-- ==== Sys2Proof/Word.lean ====
section
/-!
DEFINITION. The word types of the block (00 R7, R8; 02 R38) and the two sparse containers that the state is
built from: a map keyed by natural numbers, and a byte memory.
-/
namespace Sys2Proof

/-- A byte. -/
abbrev Byte := BitVec 8
/-- The payload of one unit (02 R38). -/
abbrev Payload := BitVec 512
/-- A fabric time, a 64-bit count of slots (00 R13). -/
abbrev Time := BitVec 64

/-- A sparse table: pairs of a key and a value, keys strictly rising. -/
abbrev FMap (α : Type) := List (Nat × α)

namespace FMap

variable {α : Type}

/-- The value at key `k`, `d` where the table lists none. -/
def get (d : α) : FMap α → Nat → α
  | [], _ => d
  | (k', v) :: r, k => if k' = k then v else get d r k

/-- The value at key `k`, if listed. -/
def find : FMap α → Nat → Option α
  | [], _ => none
  | (k', v) :: r, k => if k' = k then some v else find r k

/-- Put `v` at key `k`, keeping the keys rising. -/
def put : FMap α → Nat → α → FMap α
  | [], k, v => [(k, v)]
  | (k', v') :: r, k, v =>
    if k < k' then (k, v) :: (k', v') :: r
    else if k' = k then (k, v) :: r
    else (k', v') :: put r k v

/-- Remove key `k`. -/
def del : FMap α → Nat → FMap α
  | [], _ => []
  | (k', v') :: r, k => if k' = k then del r k else (k', v') :: del r k

/-- Keys strictly rising, every key at least `lo`. -/
def sortedFrom : Nat → FMap α → Bool
  | _, [] => true
  | lo, (k, _) :: r => decide (lo ≤ k) && sortedFrom (k + 1) r

/-- The canonical order of a table. -/
abbrev sorted (m : FMap α) : Bool := sortedFrom 0 m

/-- Change the value at key `k`, starting from `d` where none is listed. -/
def modify (d : α) (m : FMap α) (k : Nat) (f : α → α) : FMap α := m.put k (f (m.get d k))

end FMap
end Sys2Proof
end

