-- ==== Sys2Proof/Config.lean ====
section
/-!
DEFINITION. What the integrator fixes (14 R369) and the free values: constants with no body, standing for every
value that the spec leaves open. Nothing in the package can evaluate one or prove a value of one.
-/
namespace Sys2Proof

/-- The build parameters of the block (14 R369). -/
structure Build where
  /-- 1, 2, 4 or 8 -/
  galleries : Nat
  /-- 16 pavilions present, or none -/
  pavilions : Bool
  securityId : BitVec 16
  tapMfr : BitVec 11
  i3cStatic : BitVec 7
  i3cPid : BitVec 48
  thermalInputs : Nat
deriving DecidableEq, Repr

namespace Config

/-- The integrator's SECURITY_ID (14 R369). -/
opaque securityId : BitVec 16
/-- The integrator's TAP_MFR (14 R369). -/
opaque tapMfr : BitVec 11
/-- The integrator's I3C_STATIC_ADDR (14 R369). -/
opaque i3cStatic : BitVec 7
/-- The integrator's I3C_PID (14 R369). -/
opaque i3cPid : BitVec 48

/-- A free value of `w` bits, the `n`-th that the block draws (log entry 4). The spec leaves the value open. -/
opaque freeBits : (w : Nat) → Nat → BitVec w

/-- The check bits of a 64-bit scratchpad word in the tile's own code, which the tile-side contract fixes (05 R118). -/
opaque tileEcc : BitVec 64 → BitVec 8

/-- The thirty parity symbols of a codeword from its 514 data symbols: the spec names the code of the 802.3dj family and does not give
its generator polynomial (08 R210; log entry 133). -/
opaque fecParity : BitVec 5140 → BitVec 300

/-- The first block of the control blocks of LANE_SYNC, for a count of blocks: 08 R225 names what it holds and not where. -/
opaque trainingBlock : Nat → BitVec 256

/-- The filtered offset to the parent, in 1/64 slot, from the filtered offset before it and the measured offset in 1/128
slot: a free value, as the spec names the filter of 08 R233 and does not give it. -/
opaque filterOffset : Int → Int → Int

/-- The MCTP base version that the endpoint reports (09 R240). -/
opaque mctpVersion : BitVec 32
/-- Whether the vendor-defined messages are those of an IANA number; otherwise of a PCI number. -/
opaque mctpIana : Bool
/-- The vendor number that the vendor-defined messages bear. -/
opaque mctpVendor : BitVec 32
/-- The vendor's message type or command set version. -/
opaque mctpVendorType : BitVec 16

/-- Build configuration P2048 (00 R1, 14 R369); the integrator's own parameters stay open. -/
def p2048 : Build :=
  { galleries := 8, pavilions := true, securityId := securityId, tapMfr := tapMfr
    i3cStatic := i3cStatic, i3cPid := i3cPid, thermalInputs := 16 }

end Config
end Sys2Proof
end

