-- ==== Sys2Proof/Syntax.lean ====
section
/-!
DEFINITION. The commands of the block: one constructor of `Instr` per row of spec/opcode_table.json, with the
row's operands, and the types of those operands. Numbers of units, ports and clients are natural numbers that
`Sys2Proof/WellFormed.lean` bounds; fields that the spec gives a width are bit vectors of that width.
-/
namespace Sys2Proof

/-- A unit of the block, numbered as 00 R5 and 11 R291 do (level code of 03 R88, then instance). A special
endpoint bears its local endpoint number (01 R20), the host landing 2048 among them. -/
inductive UnitId where
  | landing (n : Nat) | stair (n : Nat) | gallery (n : Nat) | hall (n : Nat)
  | pavilion (n : Nat) | special (n : Nat) | chip
deriving DecidableEq, Repr

/-- The fields of a header unit (02 R41), from the most significant down. -/
structure Header where
  version : BitVec 2
  cls : BitVec 1
  vc : BitVec 3
  command : BitVec 8
  mcast : BitVec 1
  tag : BitVec 4
  part : BitVec 10
  src : BitVec 24
  dst : BitVec 24
  plane : BitVec 2
  length : BitVec 7
  stream : BitVec 17
  seq : BitVec 16
  addr : BitVec 24
  depSlot : BitVec 16
  coll : BitVec 32
  aux : BitVec 32
  stamp : BitVec 32
  rsv : BitVec 1
  inl : BitVec 256
deriving DecidableEq, Repr

/-- A unit with its side band (02 R38, R39): payload, flags, four SECDED codes, tail word. -/
structure Flit where
  payload : Payload
  first : Bool
  last : Bool
  trunc : Bool
  resend : Bool
  /-- SECDED codes, code 3 in [35:27] down to code 0 in [8:0] -/
  codes : BitVec 36
  tail : BitVec 32
deriving DecidableEq, Repr

/-- A packet as its destination holds it when LAST has come: header, data units, the tail word received, and
whether it was closed by a truncation unit or carries RESEND (02 R39, R57). -/
structure Packet where
  hdr : Header
  data : List Payload
  tail : BitVec 32
  trunc : Bool
  resend : Bool
  /-- the first data unit on which the two copies of the permute network disagreed as the landing wrote it (05 R137) -/
  permBad : Option Nat := none
deriving DecidableEq, Repr

/-- A dynamic descriptor (05 R124). The client field is stamped by the landing. -/
structure Desc where
  tag : BitVec 6
  vc5 : Bool
  after : Bool
  semEn : Bool
  sem : BitVec 8
  dest : BitVec 24
  remote : BitVec 24
  localAddr : BitVec 24
  length : BitVec 14
  rsem : BitVec 8
  rop : BitVec 2
  operand : BitVec 32
  specific : BitVec 102
deriving DecidableEq, Repr

/-- Where a dictionary message comes from (09 R239). -/
inductive Path where
  | host (ringSet : Nat)
  | lodge (channel : Nat)
  | mgmt
  | remote (chip : Nat)
  | keeper
deriving DecidableEq, Repr

/-- One dictionary entry (09 R244). -/
structure DictEntry where
  idx : BitVec 16
  sub : BitVec 8
  inst : BitVec 16
  row : BitVec 12
  word : BitVec 4
  outcome : BitVec 8
  value : BitVec 64
deriving DecidableEq, Repr

/-- The body of a COMMIT (09 R245). -/
structure CommitBody where
  time : BitVec 64
  scope : BitVec 2
  part : BitVec 10
deriving DecidableEq, Repr

/-- A cell as the decoder of a receiving pavilion hands it on (08 R211, R212, R214, R217; log entry 133): its 12,800 link-layer bits,
corrected and still scrambled, the first on the line highest; the first of them that lies in an uncorrectable codeword, counted from
the line's first; the symbols corrected and the codewords not correctable. -/
structure Cell where
  bits : BitVec 12800
  firstBad : Option Nat
  corrected : Nat
  uncorrectable : Nat
deriving DecidableEq, Repr

/-- What makes a governor ask for half rate (01 R28). -/
inductive GovCause where
  | droop | supply | thermal
deriving DecidableEq, Repr

/-- What a domain's self-test found (14 R353). -/
inductive SelfTest where
  | pass
  | bufferFailed
  | combiningFailed
  | keeperMemory (lodge : Bool)
  | gatehouseMemory
deriving DecidableEq, Repr

/-- How the I3C target got its dynamic address (14 R367). -/
inductive I3cMethod where
  | entdaa | setdasa
deriving DecidableEq, Repr

/-- The commands: the rows of spec/opcode_table.json, in the table's order. -/
inductive Instr where
  -- 01: the fabric
  | slotBoundary (u : UnitId)
  | unitArrival (u : UnitId) (port : Nat) (f : Flit) (hop : BitVec 10)
  | creditWord (u : UnitId) (port : Nat) (w : BitVec 9)
  | fabricTimeLoad (u : UnitId)
  | serviceTreeAccess (u : UnitId) (wr : Bool) (e : DictEntry)
  | governorClockRequest (u : UnitId) (cause : GovCause)
  | governorClearTimeout (u : UnitId)
  -- 02: packets at their destination
  | write (ep : Nat) (p : Packet)
  | writeInline (ep : Nat) (p : Packet)
  | readReq (ep : Nat) (p : Packet)
  | readResp (ep : Nat) (p : Packet)
  | ack (u : UnitId) (port : Nat) (p : Packet)
  | nack (u : UnitId) (port : Nat) (p : Packet)
  | signal (ep : Nat) (p : Packet)
  | writeSignal (ep : Nat) (p : Packet)
  | mcastWrite (u : UnitId) (port : Nat) (p : Packet)
  | mcastWriteSignal (u : UnitId) (port : Nat) (p : Packet)
  | mcastReport (ep : Nat) (p : Packet)
  | mcastReportTimer (stair : Nat) (rec : Nat)
  | reduceContrib (u : UnitId) (port : Nat) (p : Packet) (aluFaults : Nat)
  | reduceResult (u : UnitId) (port : Nat) (p : Packet)
  | countExch (ep : Nat) (p : Packet)
  | reserveReq (u : UnitId) (port : Nat) (p : Packet)
  | reserveGrant (ep : Nat) (p : Packet)
  | reserveRefuse (ep : Nat) (p : Packet)
  | reserveRelease (u : UnitId) (port : Nat) (p : Packet)
  | serviceReq (ep : Nat) (p : Packet)
  | serviceResp (ep : Nat) (p : Packet)
  | faultMsg (port : Nat) (msg : BitVec 128)
  | trace (u : UnitId) (port : Nat) (p : Packet)
  | timeBeacon (p : Packet)
  | errorResp (ep : Nat) (p : Packet)
  | scrubReq (ep : Nat) (p : Packet)
  | scrubComplete (l : Nat)
  | scrubDone (ep : Nat) (p : Packet)
  | fenceDrainMark (u : UnitId) (port : Nat) (p : Packet)
  | fenceDrainAck (ep : Nat) (p : Packet)
  -- 03: scheduled traffic
  | schedAckDeadline (l : Nat) (e : Nat) (seq : BitVec 16)
  | frameBoundary (part : Nat)
  | holdNotice (u : UnitId) (part : Nat) (frame : BitVec 16)
  | planLoadStart (path : Path) (sess : Nat) (v : BitVec 64)
  | planImageCheck
  | halfRateRequest (path : Path) (sess : Nat) (v : BitVec 64)
  | fullRateReturnRequest (path : Path) (sess : Nat) (v : BitVec 64)
  | shadowSlotEntryWrite (path : Path) (sess : Nat) (u : UnitId) (v : BitVec 64)
  | activeSlotEntryWrite (path : Path) (sess : Nat) (u : UnitId) (v : BitVec 64)
  -- 04: dynamic traffic
  | escapeThresholdExpiry (u : UnitId) (id : Nat)
  | initiatorDeadline (ep : Nat) (e : Nat) (seq : BitVec 16)
  | planeMapRewrite (pav : Nat)
  | drainStop (u : UnitId)
  | drainTimeout
  -- 05: the tile port
  | injectionRequest (l : Nat) (client : Nat)
  | injectionRequestDrop (l : Nat) (client : Nat)
  | injectionWatchdog (l : Nat)
  | opcodeWrite (l : Nat) (d : Desc)
  | opcodeWriteInline (l : Nat) (d : Desc)
  | opcodeRead (l : Nat) (d : Desc)
  | opcodeSignal (l : Nat) (d : Desc)
  | opcodeWriteSignal (l : Nat) (d : Desc)
  | opcodeMcastWrite (l : Nat) (d : Desc)
  | opcodeMcastWriteSignal (l : Nat) (d : Desc)
  | openWindow (l : Nat) (d : Desc)
  | closeWindow (l : Nat) (d : Desc)
  | tapArm (l : Nat) (d : Desc)
  | tapDisarm (l : Nat) (d : Desc)
  | collective (l : Nat) (d : Desc)
  | sourceRowRead (l : Nat) (row : Nat) (data : BitVec 1024) (corrected : Nat) (bad : Bool)
  | semRead (l : Nat) (client : Nat) (sem : BitVec 8)
  | semAdd (l : Nat) (client : Nat) (sem : BitVec 8) (operand : BitVec 32)
  | semSet (l : Nat) (client : Nat) (sem : BitVec 8) (operand : BitVec 32)
  | semWait (l : Nat) (client : Nat) (sem : BitVec 8) (operand : BitVec 32)
  | semWaitTake (l : Nat) (client : Nat) (sem : BitVec 8) (operand : BitVec 32)
  | streamReady (l : Nat) (entry : BitVec 6) (frame : BitVec 16)
  | streamClose (l : Nat) (entry : BitVec 6) (frame : BitVec 16)
  | ownerScrubRequest (path : Path) (sess : Nat) (l : Nat) (v : BitVec 64)
  -- 06, 07: combining
  | aluReinstatementRequest (path : Path) (sess : Nat) (u : UnitId) (v : BitVec 64)
  | settleCrossChipForm (handle : Nat) (otherChipsRounded : Bool)
  -- 08: pavilions
  | cellTransmit (p : Nat)
  | cellFrame (p : Nat) (c : Cell)
  | creditResyncReq (p : Nat) (w : BitVec 32)
  | creditResync (p : Nat) (m : BitVec 256)
  | goingDown (p : Nat) (w : BitVec 32)
  | retrainReq (p : Nat) (w : BitVec 32)
  | beacon (p : Nat) (m : BitVec 256) (rx : BitVec 70)
  | timeAnnounce (p : Nat) (m : BitVec 256)
  | commitPrepare (p : Nat) (m : BitVec 256)
  | commitConfirm (p : Nat) (m : BitVec 256)
  | commitCancel (p : Nat) (m : BitVec 256)
  | chipLost (p : Nat) (m : BitVec 256)
  | capability (p : Nat) (m : BitVec 256)
  | pavilionEnableWrite (path : Path) (sess : Nat) (p : Nat) (v : BitVec 64)
  | laneSyncAchieved (p : Nat)
  | rxrdyFall (p : Nat) (lane : Nat)
  | trainingTimeout (p : Nat)
  | beaconRound (p : Nat) (tx : BitVec 70)
  | measureComplete (p : Nat)
  | fecLimitExceeded (p : Nat)
  | syncLoss (p : Nat)
  | grandChipLost
  | holdoverTimeout
  | relockRequest (path : Path) (sess : Nat) (v : BitVec 64)
  | chipLossTimeout (c : Nat)
  -- 09: the dictionary
  | dictionaryRead (path : Path) (req : BitVec 8) (sess : Nat) (es : List DictEntry)
  | readStaged (path : Path) (req : BitVec 8) (sess : Nat) (es : List DictEntry)
  | dictionaryWrite (path : Path) (req : BitVec 8) (sess : Nat) (es : List DictEntry)
  | commit (path : Path) (req : BitVec 8) (sess : Nat) (b : CommitBody)
  | discard (path : Path) (req : BitVec 8) (sess : Nat)
  | sessionOpen (path : Path) (req : BitVec 8) (sess : Nat) (right : BitVec 16) (part : BitVec 16)
  | sessionClose (path : Path) (req : BitVec 8) (sess : Nat)
  | epochSwitch
  | tagWindowEnd
  | crossChipDecision
  | lateCommit
  -- 10: partitions, domains, limits
  | killRequest (path : Path) (sess : Nat) (v : BitVec 64)
  | stopBitSet (u : UnitId) (part : Nat)
  | abortedReport (l : Nat)
  | scrubTimeout (l : Nat)
  | domainTargetWrite (path : Path) (sess : Nat) (u : UnitId) (v : BitVec 64)
  | dozeDelayExpiry (u : UnitId)
  | dozeWake (u : UnitId)
  | goingDownEnd (u : UnitId)
  | wakingComplete (u : UnitId)
  | rejoinCheck (u : UnitId) (digest : BitVec 64) (epoch : BitVec 32)
  | supplyWarning (d : Nat) (reading : Nat)
  | supplyWarningClear (d : Nat) (reading : Nat)
  | supplyReset (d : Nat) (reading : Nat)
  | supplyResetRelease (d : Nat) (reading : Nat)
  | thermalThrottle (i : Nat) (reading : Int)
  | throttleEnd
  | thermalTrip (i : Nat) (reading : Int)
  | powerEstimateWindow
  | plCapChange (v : BitVec 8)
  | powerEmergency
  -- 11: faults
  | repeatTimerExpiry (u : UnitId) (slot : Nat)
  | outboxRescue (u : UnitId)
  | reactionStep
  | fifoPop (path : Path) (sess : Nat) (v : BitVec 64)
  | firstFaultClear (path : Path) (sess : Nat) (v : BitVec 64)
  | faultClear (path : Path) (sess : Nat) (v : BitVec 64)
  | faultForce (path : Path) (sess : Nat) (u : UnitId) (v : BitVec 64)
  | forcedOccurrence (u : UnitId)
  -- 12: firmware, rings, lodge
  | firmwareLoadStart (path : Path) (sess : Nat) (v : BitVec 64)
  | firmwareLoadComplete
  | activationFailure (keeper : Nat)
  | activationRecommit
  | attach (path : Path) (sess : Nat) (w1 : BitVec 64) (w0 : BitVec 64)
  | detach (path : Path) (sess : Nat) (v : BitVec 64)
  | hostHeartbeat (path : Path) (sess : Nat) (v : BitVec 64)
  | graceTimeExpiry
  | hostlessLimitExpiry
  | doorbell (set : Nat) (producer : BitVec 32)
  | ringCommand
  | ringSetEnable (path : Path) (sess : Nat) (v : BitVec 64)
  | channelConfigWrite (path : Path) (sess : Nat) (ch : Nat) (v : BitVec 64)
  | chWrite (viaHl : Bool) (ident : BitVec 16) (tag : BitVec 8) (ch : Nat) (ws : List (BitVec 32))
  | chRead (viaHl : Bool) (ident : BitVec 16) (tag : BitVec 8) (ch : Nat) (n : Nat)
  | ackWrite (viaHl : Bool) (ident : BitVec 16) (tag : BitVec 8) (ch : Nat) (code : BitVec 16)
  | chStatus (viaHl : Bool) (ident : BitVec 16) (tag : BitVec 8) (ch : Nat)
  | lodgeMessage (ch : Nat)
  -- 13: observation
  | counterFreeze
  | counterConfigWrite (path : Path) (sess : Nat) (u : UnitId) (n : Nat) (v : BitVec 64)
  | traceFlush (u : UnitId)
  | traceBufferPop (path : Path) (sess : Nat) (u : UnitId) (v : BitVec 64)
  | belvedereLinkChange (ready : Bool)
  | snapshotRequest (path : Path) (sess : Nat) (v : BitVec 64)
  | snapshotCapture
  | snapshotWriteComplete
  | snapshotRelease (path : Path) (sess : Nat) (v : BitVec 64)
  | waitTimeout (l : Nat) (client : Nat)
  -- 14: reset and boundary
  | blockReset
  | resetRelease
  | selfTestComplete (d : Nat) (r : SelfTest)
  | resetRequest
  | resetRequestWithdraw
  | testReset
  | extest
  | idcode
  | samplePreload (cells : List Bool)
  | status
  | bypass
  | sramRead (ident : BitVec 16) (tag : BitVec 8) (count : Nat) (addr : BitVec 24)
  | sramWrite (ident : BitVec 16) (tag : BitVec 8) (addr : BitVec 24) (beats : List (Payload × BitVec 64))
  | descriptor (ident : BitVec 16) (tag : BitVec 8) (client : Nat) (w : BitVec 256)
  | cmplRead (ident : BitVec 16) (tag : BitVec 8) (client : Nat)
  | outboundResponse (tag : Nat) (status : BitVec 4) (beats : List Payload)
  | setEndpointId (eid : BitVec 8)
  | getEndpointId
  | getMctpVersionSupport
  | getMessageTypeSupport
  | getVendorDefinedMessageSupport
  | unsupportedMctpCommand (code : BitVec 8)
  | i3cDynamicAddress (m : I3cMethod) (addr : BitVec 7)
  -- added at the table's end
  | aluSelfTestComplete (u : UnitId) (passed : Bool)
  | powerEmergencyRelease
  | governorConditionClear (u : UnitId)
deriving DecidableEq, Repr

end Sys2Proof
end

