-- ==== Sys2Proof/Machine/Codes.lean ====
section
/-!
DEFINITION. The integrity codes: the SECDED code of a quarter (02 R55, R56), CRC-32C of a packet (02 R57), CRC-64
of a digest (05 R141), CRC-16 of a cell header (08 R214), SHA-384 of images (03 R89, 12 R311), and parity.
-/
namespace Sys2Proof.Machine

/-- Whether the number of ones in the low `n` bits of `v` is odd. -/
def oddOnes : Nat → Nat → Bool
  | 0, _ => false
  | n + 1, v => (v % 2 == 1) ^^ oddOnes n (v / 2)

/-- The number of ones in the low `n` bits of `v`. -/
def onesIn : Nat → Nat → Nat
  | 0, _ => 0
  | n + 1, v => v % 2 + onesIn n (v / 2)

/-! ## SECDED (02 R55, R56) -/

/-- Whether `p` is a power of two up to 128, the place of a check bit. -/
def isCheckPos (p : Nat) : Bool := [1, 2, 4, 8, 16, 32, 64, 128].contains p

/-- The positions of the first 160 data bits: the positions from 1 up that are no power of two (R55). -/
def dataPositions : List Nat := ((List.range 168).map (· + 1)).filter (fun p => !isCheckPos p)

/-- The exclusive OR of the positions of the set bits of `d`; bit `j` of it is check bit `cj` (R55). -/
def xorPositions : List Nat → Nat → Nat
  | [], _ => 0
  | p :: ps, d => (if d % 2 = 1 then p else 0) ^^^ xorPositions ps (d / 2)

/-- The 9-bit code of `n` data bits: c8 is the exclusive OR of all data bits and of c0 to c7 (R55). -/
def secded (n d : Nat) : Nat :=
  let c := xorPositions (dataPositions.take n) d
  c + (if oddOnes n d ^^ oddOnes 8 c then 256 else 0)

/-- What a receiver finds in a quarter (R56). -/
inductive Quarter where
  | clean
  | corrected (d : Nat)
  | uncorrectable
deriving DecidableEq, Repr

/-- The index of the data bit at position `p`. -/
def dataIndex (p : Nat) : Nat := (dataPositions.takeWhile (· < p)).length

/-- Decode a quarter of `n` data bits with code `c` (R56). -/
def decodeQuarter (n d c : Nat) : Quarter :=
  let s := xorPositions (dataPositions.take n) d ^^^ (c % 256)
  let p := oddOnes n d ^^ oddOnes 9 c
  if p = false then (if s = 0 then .clean else .uncorrectable)
  else if s = 0 ∨ isCheckPos s then .corrected d
  else if s ≤ (dataPositions.take n).getLastD 0 then .corrected (d ^^^ 2 ^ dataIndex s)
  else .uncorrectable

/-- The unit flags of a unit as bits [71:68] (02 R39). -/
def flagBits (f : Flit) : Nat :=
  (if f.first then 8 else 0) + (if f.last then 4 else 0) + (if f.trunc then 2 else 0) + (if f.resend then 1 else 0)

/-- The protected bits of quarter `q` and their number (R55). -/
def quarterData (f : Flit) (q : Nat) : Nat × Nat :=
  let p := f.payload.toNat / 2 ^ (128 * q) % 2 ^ 128
  if q = 0 then (160, p + f.tail.toNat * 2 ^ 128)
  else if q = 3 then (132, p + flagBits f * 2 ^ 128)
  else (128, p)

/-- The code field of quarter `q` as received. -/
def quarterCode (f : Flit) (q : Nat) : Nat := f.codes.toNat / 2 ^ (9 * q) % 512

/-- A unit with the four codes of its content (R55). -/
def withCodes (f : Flit) : Flit :=
  let c (q : Nat) := (let d := quarterData f q; secded d.1 d.2)
  { f with codes := BitVec.ofNat 36 (c 0 + c 1 * 2 ^ 9 + c 2 * 2 ^ 18 + c 3 * 2 ^ 27) }

/-- Write the protected bits `d` of quarter `q` back into a unit. -/
def setQuarter (f : Flit) (q d : Nat) : Flit :=
  let p := f.payload.toNat
  let old := p / 2 ^ (128 * q) % 2 ^ 128
  let pay := BitVec.ofNat 512 (p - old * 2 ^ (128 * q) + d % 2 ^ 128 * 2 ^ (128 * q))
  let hi := d / 2 ^ 128
  if q = 0 then { f with payload := pay, tail := BitVec.ofNat 32 hi }
  else if q = 3 then
    { f with payload := pay, first := hi.testBit 3, last := hi.testBit 2, trunc := hi.testBit 1, resend := hi.testBit 0 }
  else { f with payload := pay }

/-- What a hop finds in a unit (02 R59): the unit with its single errors corrected and its codes valid, the number
of quarters corrected, and whether some quarter is uncorrectable. -/
structure UnitCheck where
  unit : Flit
  corrected : Nat
  bad : Bool
deriving DecidableEq, Repr

/-- Decode the four quarters of a unit (R56), each from the unit as received. -/
def checkUnit (f : Flit) : UnitCheck :=
  let r := [0, 1, 2, 3].map (fun q => (q, let d := quarterData f q; decodeQuarter d.1 d.2 (quarterCode f q)))
  let g := r.foldl (fun g x => match x.2 with | .corrected v => setQuarter g x.1 v | _ => g) f
  let n := (r.filter (fun x => match x.2 with | .corrected _ => true | _ => false)).length
  let bad := r.any (fun x => x.2 == .uncorrectable)
  { unit := if n = 0 then f else withCodes g, corrected := n, bad := bad }

/-- The truncation unit of R59: FIRST clear, LAST and TRUNC set, zero payload and tail word, valid codes. -/
def truncationUnit (resend : Bool) : Flit :=
  withCodes { payload := 0, first := false, last := true, trunc := true, resend := resend, codes := 0, tail := 0 }

/-! ## Cyclic redundancy checks -/

/-- One bit of a reflected CRC of width `w`. -/
def crcReflStep {w : Nat} (poly c : BitVec w) (b : Bool) : BitVec w :=
  let x := c.toNat.testBit 0 ^^ b
  if x then (c >>> 1) ^^^ poly else c >>> 1

/-- A reflected CRC over the low `n` bits of `d`, least significant bit first. -/
def crcRefl {w : Nat} (poly : BitVec w) : Nat → Nat → BitVec w → BitVec w
  | 0, _, c => c
  | n + 1, d, c => crcRefl poly n (d / 2) (crcReflStep poly c (d % 2 == 1))

/-- One bit of a CRC of width `w` taken most significant bit first. -/
def crcStep {w : Nat} (poly c : BitVec w) (b : Bool) : BitVec w :=
  let x := c.toNat.testBit (w - 1) ^^ b
  if x then (c <<< 1) ^^^ poly else c <<< 1

/-- A CRC over bits `n - 1` down to 0 of `d`. -/
def crcDown {w : Nat} (poly : BitVec w) (d : Nat) : Nat → BitVec w → BitVec w
  | 0, c => c
  | n + 1, c => crcDown poly d n (crcStep poly c (d.testBit n))

/-- The running CRC-32C over some payloads, each as bytes 0 to 63 (R57). -/
def crc32cRun (ps : List Payload) (c : BitVec 32) : BitVec 32 :=
  ps.foldl (fun c p => crcRefl 0x82F63B78#32 512 p.toNat c) c

/-- The tail word of a packet: CRC-32C over its payloads, header unit first (02 R57). -/
def crc32c (ps : List Payload) : BitVec 32 := crc32cRun ps 0xFFFFFFFF#32 ^^^ 0xFFFFFFFF#32

/-- CRC-16 of a cell header over its bits [255:16] (08 R214). -/
def crc16 (hdr : BitVec 256) : BitVec 16 := crcDown 0x1021#16 (hdr.toNat / 2 ^ 16) 240 0xFFFF#16

/-- One byte into the CRC-64 of 05 R141. -/
def crc64Byte (c : BitVec 64) (b : Byte) : BitVec 64 := crcDown 0x42F0E1EBA9EA3693#64 b.toNat 8 c

/-- CRC-64 over bytes, from a running value (05 R141). -/
def crc64 (bs : List Byte) (c : BitVec 64) : BitVec 64 := bs.foldl crc64Byte c

/-! ## SHA-384 (03 R89, 12 R311) -/

/-- Round constants 0 to 9 of SHA-384. -/
def shaK0 : List (BitVec 64) :=
  [0x428a2f98d728ae22, 0x7137449123ef65cd, 0xb5c0fbcfec4d3b2f, 0xe9b5dba58189dbbc, 0x3956c25bf348b538,
   0x59f111f1b605d019, 0x923f82a4af194f9b, 0xab1c5ed5da6d8118, 0xd807aa98a3030242, 0x12835b0145706fbe]

/-- Round constants 10 to 19 of SHA-384. -/
def shaK1 : List (BitVec 64) :=
  [0x243185be4ee4b28c, 0x550c7dc3d5ffb4e2, 0x72be5d74f27b896f, 0x80deb1fe3b1696b1, 0x9bdc06a725c71235,
   0xc19bf174cf692694, 0xe49b69c19ef14ad2, 0xefbe4786384f25e3, 0x0fc19dc68b8cd5b5, 0x240ca1cc77ac9c65]

/-- Round constants 20 to 29 of SHA-384. -/
def shaK2 : List (BitVec 64) :=
  [0x2de92c6f592b0275, 0x4a7484aa6ea6e483, 0x5cb0a9dcbd41fbd4, 0x76f988da831153b5, 0x983e5152ee66dfab,
   0xa831c66d2db43210, 0xb00327c898fb213f, 0xbf597fc7beef0ee4, 0xc6e00bf33da88fc2, 0xd5a79147930aa725]

/-- Round constants 30 to 39 of SHA-384. -/
def shaK3 : List (BitVec 64) :=
  [0x06ca6351e003826f, 0x142929670a0e6e70, 0x27b70a8546d22ffc, 0x2e1b21385c26c926, 0x4d2c6dfc5ac42aed,
   0x53380d139d95b3df, 0x650a73548baf63de, 0x766a0abb3c77b2a8, 0x81c2c92e47edaee6, 0x92722c851482353b]

/-- Round constants 40 to 49 of SHA-384. -/
def shaK4 : List (BitVec 64) :=
  [0xa2bfe8a14cf10364, 0xa81a664bbc423001, 0xc24b8b70d0f89791, 0xc76c51a30654be30, 0xd192e819d6ef5218,
   0xd69906245565a910, 0xf40e35855771202a, 0x106aa07032bbd1b8, 0x19a4c116b8d2d0c8, 0x1e376c085141ab53]

/-- Round constants 50 to 59 of SHA-384. -/
def shaK5 : List (BitVec 64) :=
  [0x2748774cdf8eeb99, 0x34b0bcb5e19b48a8, 0x391c0cb3c5c95a63, 0x4ed8aa4ae3418acb, 0x5b9cca4f7763e373,
   0x682e6ff3d6b2b8a3, 0x748f82ee5defb2fc, 0x78a5636f43172f60, 0x84c87814a1f0ab72, 0x8cc702081a6439ec]

/-- Round constants 60 to 69 of SHA-384. -/
def shaK6 : List (BitVec 64) :=
  [0x90befffa23631e28, 0xa4506cebde82bde9, 0xbef9a3f7b2c67915, 0xc67178f2e372532b, 0xca273eceea26619c,
   0xd186b8c721c0c207, 0xeada7dd6cde0eb1e, 0xf57d4f7fee6ed178, 0x06f067aa72176fba, 0x0a637dc5a2c898a6]

/-- Round constants 70 to 79 of SHA-384. -/
def shaK7 : List (BitVec 64) :=
  [0x113f9804bef90dae, 0x1b710b35131c471b, 0x28db77f523047d84, 0x32caab7b40c72493, 0x3c9ebe0a15c9bebc,
   0x431d67c49c100d4c, 0x4cc5d4becb3e42b6, 0x597f299cfc657e2a, 0x5fcb6fab3ad6faec, 0x6c44198c4a475817]

/-- The round constants of SHA-384. -/
def shaK : List (BitVec 64) :=
  shaK0 ++ shaK1 ++ shaK2 ++ shaK3 ++ shaK4 ++ shaK5 ++ shaK6 ++ shaK7

/-- The initial hash value of SHA-384. -/
def shaH0 : List (BitVec 64) :=
  [0xcbbb9d5dc1059ed8, 0x629a292a367cd507, 0x9159015a3070dd17, 0x152fecd8f70e5939,
   0x67332667ffc00b31, 0x8eb44a8768581511, 0xdb0c2e0d64f98fa7, 0x47b5481dbefa4fa4]

/-- The message schedule: 80 words from the 16 of a block, kept newest first. -/
def shaExpand : Nat → List (BitVec 64) → List (BitVec 64)
  | 0, ws => ws
  | n + 1, ws =>
    let w2 := ws.getD 1 0; let w7 := ws.getD 6 0; let w15 := ws.getD 14 0; let w16 := ws.getD 15 0
    let s0 := w15.rotateRight 1 ^^^ w15.rotateRight 8 ^^^ (w15 >>> 7)
    let s1 := w2.rotateRight 19 ^^^ w2.rotateRight 61 ^^^ (w2 >>> 6)
    shaExpand n ((s1 + w7 + s0 + w16) :: ws)

/-- One round on the eight working words. -/
def shaRound (v : List (BitVec 64)) (kw : BitVec 64 × BitVec 64) : List (BitVec 64) :=
  match v with
  | [a, b, c, d, e, f, g, h] =>
    let s1 := e.rotateRight 14 ^^^ e.rotateRight 18 ^^^ e.rotateRight 41
    let ch := (e &&& f) ^^^ (~~~e &&& g)
    let t1 := h + s1 + ch + kw.1 + kw.2
    let s0 := a.rotateRight 28 ^^^ a.rotateRight 34 ^^^ a.rotateRight 39
    let mj := (a &&& b) ^^^ (a &&& c) ^^^ (b &&& c)
    [t1 + s0 + mj, a, b, c, d + t1, e, f, g]
  | _ => v

/-- One block of 16 words. -/
def shaBlock (h : List (BitVec 64)) (blk : List (BitVec 64)) : List (BitVec 64) :=
  let ws := (shaExpand 64 blk.reverse).reverse
  List.zipWith (· + ·) h ((shaK.zip ws).foldl shaRound h)

/-- A 64-bit word of eight bytes, the first byte most significant. -/
def beWord (bs : List Byte) : BitVec 64 := BitVec.ofNat 64 (bs.foldl (fun a b => a * 256 + b.toNat) 0)

/-- The 16 words of a block of 128 bytes. -/
def shaWords (bs : List Byte) : List (BitVec 64) :=
  (List.range 16).map (fun i => beWord ((bs.drop (8 * i)).take 8))

/-- The padding of a message of `n` bytes. -/
def shaPad (n : Nat) : List Byte :=
  0x80#8 :: (List.replicate ((239 - n % 128) % 128) 0#8 ++ (List.range 16).map (fun i => BitVec.ofNat 8 (n * 8 / 256 ^ (15 - i))))

/-- Fold the blocks of a padded message; `k` bounds their number. -/
def shaBlocks : Nat → List Byte → List (BitVec 64) → List (BitVec 64)
  | 0, _, h => h
  | k + 1, bs, h => shaBlocks k (bs.drop 128) (shaBlock h (shaWords bs))

/-- A value of `n` bytes whose first output byte is its least significant (09 R248). -/
def leOfBytes (bs : List Byte) : Nat := bs.reverse.foldl (fun a b => a * 256 + b.toNat) 0

/-- The SHA-384 hash of some bytes, first output byte in bits [7:0] (09 R248). -/
def sha384 (bs : List Byte) : BitVec 384 :=
  let m := bs ++ shaPad bs.length
  let h := shaBlocks (m.length / 128) m shaH0
  BitVec.ofNat 384 (leOfBytes ((h.take 6).flatMap (fun w => (List.range 8).map (fun i => BitVec.ofNat 8 (w.toNat / 256 ^ (7 - i))))))

end Sys2Proof.Machine
end

