-- ==== Sys2Proof/Machine/State.lean ====
section
/-!
DEFINITION. The state of the block: every register, buffer, queue, counter, mode and pin that the spec gives it, as
plain data, and the queue of the commands that wait. Tables indexed by a unit use the unit's code
(`UnitId.code`, level times 4,096 plus instance).
-/
namespace Sys2Proof

/-- The level code of a unit (03 R88, 11 R291). -/
def UnitId.level : UnitId → Nat
  | .landing _ => 0 | .stair _ => 1 | .gallery _ => 2 | .hall _ => 3
  | .pavilion _ => 4 | .special _ => 5 | .chip => 6

/-- The instance number of a unit; for a special endpoint its local endpoint number (11 R291). -/
def UnitId.inst : UnitId → Nat
  | .landing n | .stair n | .gallery n | .hall n | .pavilion n | .special n => n
  | .chip => 0

/-- One number for a unit: level times 4,096 plus instance. -/
def UnitId.code (u : UnitId) : Nat := u.level * 4096 + u.inst

namespace Machine

/-- Why the block stops. No command of the table stops it; the one behaviour that the spec calls undefined is a
reference clock outside its limits (14 R363), which no row of the table states. -/
inductive Fault where
  /-- REF_CLK stopped or left its limits (14 R363). Raised by no command; safe. -/
  | refClkUndefined
deriving DecidableEq, Repr

/-- Why a command has no meaning. -/
inductive Refusal where
  /-- A row that is not modelled yet, by its mnemonic. Raised by a dispatch arm only; safe. -/
  | notModelled (mnemonic : String)
deriving DecidableEq, Repr

/-- Addressed bytes in rising order of address (lodge SRAM, scratchpads). -/
abbrev Memory := List Host.Cell

/-- The committed view, one 64-bit word per object word, only where it differs from its default (12 R310). -/
abbrev Dict := FMap (BitVec 64)

/-- What the last command drove out of the block. -/
inductive Output where
  /-- a unit on an on-die channel with its hop word (02 R38) -/
  | unit (u : UnitId) (port : Nat) (f : Flit) (hop : BitVec 10)
  /-- a credit word sent back from an input port (04 R96) -/
  | creditWord (u : UnitId) (port : Nat) (w : BitVec 9)
  /-- a cell frame (08 R213) -/
  | cell (p : Nat) (hdr : BitVec 256) (body : BitVec 12544)
  /-- the 3,400 line bits of each lane for a superframe, the first on the line highest (08 R211) -/
  | superframe (p : Nat) (lanes : List (BitVec 3400))
  /-- the first block of the control blocks that LANE_SYNC sends (08 R225) -/
  | training (p : Nat) (block : BitVec 256)
  /-- TP_IGNT -/
  | tpGrant (l : Nat) (g : BitVec 32)
  /-- TP_CMPL -/
  | tpCmpl (l : Nat) (r : BitVec 64)
  /-- TP_SRA -/
  | tpRowRead (l : Nat) (row : Nat)
  /-- TP_SWA, TP_SWD, TP_SWM and TP_SWE -/
  | tpWrite (l : Nat) (row : Nat) (data : BitVec 1024) (mask : BitVec 128) (ecc : BitVec 128)
  /-- TP_SFRAME: the number of the plan frame that begins (05 R131) -/
  | tpFrame (l : Nat) (f : BitVec 16)
  /-- TP_WIN -/
  | tpWin (l : Nat) (w : BitVec 33)
  /-- TP_SEMR -/
  | tpSemr (l : Nat) (w : BitVec 40)
  /-- the completion of a service-tree access (01 R31) -/
  | treeResp (u : UnitId) (asleep : Bool) (value : BitVec 64)
  /-- the response to a dictionary message (09 R245) -/
  | dictResp (path : Path) (hdr : BitVec 32) (es : List DictEntry) (body : BitVec 256)
  /-- HL_IRS -/
  | hlResp (hdr : BitVec 64) (beats : List Payload)
  /-- HL_ORQ -/
  | hlReq (hdr : BitVec 128) (beats : List Payload)
  /-- an MCTP control response: completion code and data -/
  | mctp (code : BitVec 8) (data : List Byte)
  /-- the levels that the boundary register drives in EXTEST, cell by cell (14 R368) -/
  | pins (levels : List Bool)
  /-- the TAP's selected data register: its width and value -/
  | tdo (width : Nat) (v : Nat)
  /-- one block on each of the belvedere's lanes, the sync header above the scrambled bits (13 R344) -/
  | bvBlocks (bs : List (BitVec 66))
  /-- a SERVICE_RESP or lodge answer to a fabric endpoint: header word and data -/
  | lodgeResp (ident : BitVec 16) (hdr : BitVec 32) (words : List (BitVec 32)) (idents : List (BitVec 16))
deriving DecidableEq, Repr

/-! ## Reset and start-up (14) -/

/-- Reset pins and start-up (14 R349 to R353). -/
structure Boot where
  /-- RST_N or PWR_OK low -/
  inReset : Bool := true
  /-- 0x0441:01: 0 locking, 1 control-domain self-test, 2 domain self-test, 3 complete, 4 fatal -/
  progress : Nat := 0
  /-- RSTREQ_N low -/
  requested : Bool := false
  /-- RSTACK_N driven low -/
  ackLow : Bool := false
  /-- HL_PRESENT -/
  present : Bool := false
  /-- 0x0441:02: per domain, [0] buffer or table failure, [1] combining failure, [2] not run -/
  selfTest : FMap Nat := []
deriving DecidableEq, Repr

/-! ## The dictionary and epochs (09) -/

/-- A staged write of a session (09 R255); the session is the staging tag of R383. -/
structure StagedWrite where
  sess : Nat
  key : Nat
  value : BitVec 64
deriving DecidableEq, Repr

/-- An open session (09 R241, R242). -/
structure Session where
  /-- 0 read-only, 1 owner, 2 privileged -/
  right : Nat
  part : Nat
  path : Path
  ident : BitVec 16
deriving DecidableEq, Repr

/-- An accepted commit or the epoch it takes effect at (09 R256, R258). -/
structure Epoch where
  time : Nat
  scope : Nat
  part : Nat
  sessions : List Nat
  writes : List StagedWrite
  /-- changes scheduled state (03 R62) -/
  sched : Bool
deriving DecidableEq, Repr

/-- How the response to a dictionary message leaves (09 R239). -/
inductive Carrier where
  /-- on the path of the request -/
  | direct
  /-- a completion of a ring set, with the lodge address of the entry array, 0 for inline entries (12 R324) -/
  | ring (set : Nat) (entries : Nat)
  /-- the outbound queue of a lodge channel (12 R330) -/
  | chan (ch : Nat)
  /-- a SERVICE_RESP of a keeper to a SERVICE_REQ (09 R239) -/
  | fabric (ep : Nat) (h : Header)
deriving DecidableEq, Repr

/-- A COMMIT that K0 has taken and not yet accepted: one that waits for a drain or for a held PREPARE, or one of K0's own
(09 R246, R258, R259). -/
structure CommitAsk where
  path : Path
  req : BitVec 8
  /-- key and number of the session -/
  sess : Nat
  num : Nat
  /-- requested time -/
  time : Nat
  scope : Nat
  part : Nat
  writes : List StagedWrite
  /-- K0's own: its writes are staged by no session -/
  own : Bool
  carrier : Carrier := .direct
deriving DecidableEq, Repr

/-- A PREPARE held (09 R259). -/
structure Prepare where
  origin : Nat
  seq : BitVec 16
  time : Nat
  sess : Nat
  scope : Nat
  part : Nat
  confirmed : Bool
deriving DecidableEq, Repr

/-- A cross-chip commit of this home chip (09 R259). -/
structure CrossCommit where
  ask : CommitAsk
  time : Nat
  /-- F: the longest flood path of the scope -/
  flood : Nat
  attempt : Nat
  /-- chips that answered, and whether each is READY -/
  answers : List (Nat × Bool)
  /-- some chip answered CONFLICT because R257 failed -/
  ruleFailed : Bool
  seq : BitVec 16
deriving DecidableEq, Repr

/-- Sessions, staged and committed views, epochs, clamp log (09). -/
structure Control where
  epoch : BitVec 32 := 0
  /-- fabric time of the last epoch; none before the first after release (14 R354) -/
  lastEpoch : Option Nat := none
  pending : Option Epoch := none
  queue : List Epoch := []
  /-- K0's own commits that found the queue full (R258) -/
  kept : List CommitAsk := []
  windowOpen : Bool := false
  windowEnd : Nat := 0
  staleInWindow : Nat := 0
  sessions : FMap Session := []
  staged : List StagedWrite := []
  /-- selector values, keyed by session and object (R249) -/
  selectors : FMap (BitVec 64) := []
  clampLog : FMap (BitVec 256) := []
  clampPos : Nat := 0
  clampWrapped : Bool := false
  /-- PREPAREs held, this chip's own among them -/
  prepares : List Prepare := []
  /-- PREPAREs that came during a firmware change-over and are answered after it (12 R320) -/
  late : List (BitVec 256) := []
  cross : Option CrossCommit := none
  /-- local commits that wait for a held PREPARE (R259) -/
  waiting : List CommitAsk := []
  commitSeq : BitVec 16 := 0
deriving DecidableEq, Repr

/-! ## Partitions and plans (03, 10) -/

/-- Partition states (10 R266). -/
inductive PartState where
  | free | held | ending
deriving DecidableEq, Repr

/-- One section of a failover group or a half-rate table: the writes it makes (03 R82). -/
structure TableWrites where
  pav : Nat
  /-- 0 half-rate cell tables, 1 failover sections of a failed link, 2 full-rate cell tables -/
  kind : Nat
  writes : List (Nat × BitVec 64)
deriving DecidableEq, Repr

/-- A partition of the chip (03 R61 to R92, 10 R266 to R276). -/
structure Partition where
  st : PartState := .free
  job : BitVec 16 := 0
  spans : Bool := false
  /-- a plan runs -/
  run : Bool := false
  frameLen : Nat := 0
  repair : Nat := 0
  holdLead : Nat := 0
  ackLag : Nat := 0
  e0 : Nat := 0
  digest : BitVec 384 := 0
  binding : List Nat := []
  /-- 0x1810:05: 0 full, 1 half requested, 2 half, 3 full requested -/
  rate : Nat := 0
  /-- epoch at which the present rate began, and the frame that began there -/
  e1 : Nat := 0
  f1 : Nat := 0
  /-- frames of the partition since the plan start, hold frames included -/
  frames : Nat := 0
  /-- hold frames among them -/
  holds : Nat := 0
  /-- the present frame is a hold frame -/
  holding : Bool := false
  /-- target frame numbers of the hold frames to come (R78) -/
  holdAt : List Nat := []
  /-- frames that a notice has named, as each relay forwards a notice once (R76) -/
  noticed : List Nat := []
  /-- pavilions whose failure has brought the partition to half rate and whose tables are not restored (R83) -/
  lostPavs : List Nat := []
  /-- no first sendings from this fabric time onward (R91) -/
  stopFrom : Option Nat := none
  /-- the plan stops at this epoch (R91) -/
  stopAt : Option Nat := none
  shares : Nat × Nat × Nat := (0, 0, 0)
  quotas : Nat × Nat × Nat := (0, 0, 0)
  degrade : Bool := false
  thresholds : BitVec 512 := 0
  tables : List TableWrites := []
  /-- store-slot records of the plan (07 R198) -/
  storeSlots : List (BitVec 128) := []
  /-- K0 has decided to stop the partition (10 R271) -/
  stopped : Bool := false
  /-- the removal commit has been accepted -/
  removal : Bool := false
  scrubFails : Nat := 0
  /-- its landings that the removal left in quarantine (10 R273) -/
  quarantined : List Nat := []
  /-- the handles that it owned when its removal took them (10 R276) -/
  oldHandles : List Nat := []
deriving DecidableEq, Repr

/-! ## Ports and packets in a unit (01, 02, 04) -/

/-- Lanes of a channel and the kinds of unit on it (04 R93). -/
inductive Lane where
  | normal | escape | sched | resend
deriving DecidableEq, Repr

/-- A unit in an alignment buffer (01 R27). -/
structure Aligned where
  flit : Flit
  release : Nat
  esc : Bool
  /-- an uncorrectable quarter or a hop word of odd parity (02 R59) -/
  bad : Bool
  forced : Bool
deriving DecidableEq, Repr

/-- One copy of a held packet: the output port and how many of its units have gone. -/
structure HeldOut where
  port : Nat
  sent : Nat
deriving DecidableEq, Repr

/-- A packet that a unit holds on its way. -/
structure Held where
  id : Nat
  /-- input port; 4,095 for a packet the unit itself injects -/
  inp : Nat
  lane : Lane
  hdr : Header
  /-- buffer of R96: 0 VC0, 1 to 5 VC1 to VC5, 6 and 7 the repair halves; 8 for none -/
  buf : Nat
  /-- slot of the header's release (R97, R105) -/
  rel : Nat
  units : List Flit
  /-- units already freed from the buffer -/
  freed : Nat
  /-- LAST has been taken in -/
  closed : Bool
  outs : List HeldOut
deriving DecidableEq, Repr

/-- A packet being put together at an endpoint. -/
structure Assembling where
  inp : Nat
  lane : Lane
  hdr : Header
  data : List Payload
  resend : Bool
deriving DecidableEq, Repr

/-- An input port (01 R27, 04 R93, R96). -/
structure InPort where
  align : List Aligned := []
  norm : Option Nat := none
  esc : Option Nat := none
  resend : Option Nat := none
  /-- an open scheduled packet, by its header -/
  sched : Option Header := none
  /-- lanes on which the rest of a discarded packet is still to come -/
  dropping : List (Lane × Nat) := []
  /-- units freed per buffer since reset, modulo 32 -/
  freed : FMap Nat := []
  /-- the freed counts last reported -/
  told : FMap Nat := []
  /-- the next buffer to report in turn -/
  turn : Nat := 0
deriving DecidableEq, Repr

/-- An output port (01 R23, 04 R94 to R97). -/
structure OutPort where
  norm : Option Nat := none
  esc : Option Nat := none
  resend : Option Nat := none
  /-- an open scheduled packet, by its header -/
  sched : Option Header := none
  /-- units sent per buffer, modulo 32 -/
  sent : FMap Nat := []
  /-- returned counts per buffer, modulo 32 -/
  ret : FMap Nat := []
  /-- deficits of VC1 to VC5 (R97) -/
  deficit : FMap Int := []
  ptr : Nat := 0
  /-- stall reason of the slot before (13 R332), if it stalled -/
  stall : Option Nat := none
  /-- a forced flip waits for the next unit: 1 or 2 bits (11 R305) -/
  flips : List Nat := []
deriving DecidableEq, Repr

/-- The switching part of a unit. -/
structure Node where
  ins : FMap InPort := []
  outs : FMap OutPort := []
  held : List Held := []
  nextId : Nat := 0
  /-- partitions whose stop bit the unit holds (10 R271) -/
  stop : List Nat := []
  /-- the island runs at half rate (03 R81) -/
  half : Bool := false
  /-- injection of the drained partitions is stopped here (04 R114) -/
  drainStopped : Bool := false
  /-- marks that have come: input port, and partition times 8 plus VC -/
  marks : List (Nat × Nat) := []
  /-- marks sent on: output port, and partition times 8 plus VC; port 4,095 stands for the answer sent -/
  marked : List (Nat × Nat) := []
  assembling : List Assembling := []
  /-- packets whose LAST has come and that wait for their receipt -/
  rxDone : List Packet := []
  /-- when the unit last had something to deliver, for the doze delay (10 R277) -/
  busyAt : Nat := 0
  /-- when the unit last had a link towards a hall (11 R296) -/
  joinedAt : Nat := 0
deriving DecidableEq, Repr

/-! ## Endpoints: entries, filters, queues (04, 05) -/

/-- A packet waiting to be injected: answers go first, then resends, then new headers (04 R109, R111). -/
inductive TxKind where
  | answer | resend | fresh
deriving DecidableEq, Repr

/-- A packet waiting at an endpoint's output. -/
structure TxPkt where
  kind : TxKind
  hdr : Header
  data : List Payload
  /-- the initiator entry it belongs to; 64 for none -/
  entry : Nat
  since : Nat
deriving DecidableEq, Repr

/-- One packet of an entry that awaits its answer (04 R111). -/
structure Outst where
  hdr : Header
  attempt : Nat
  /-- deadline; none until it departs or while a drain pauses it -/
  deadline : Option Nat
  /-- slots left when a drain paused it -/
  left : Nat
  /-- frame of its departure, for a scheduled attempt (03 R73) -/
  frame : Nat
  /-- counted failed and waiting in the resend queue (03 R73) -/
  failed : Bool
  localAddr : Nat
  bytes : Nat
  /-- stairs accounted for, for a multicast packet (07 R203) -/
  stairs : Nat
  nacked : Bool
  hallDrop : Bool
  /-- the packet goes only after all earlier ones are answered (05 R126) -/
  closing : Bool
  /-- the current attempt has departed: `hdr` bears its time stamp (04 R111) -/
  sent : Bool
deriving DecidableEq, Repr

/-- An initiator entry (05 R122, R126). Kind: 0 free, 1 dynamic, 2 scheduled, 3 scheduled awaiting its entry,
4 scheduled and closed. -/
structure Entry where
  kind : Nat := 0
  opcode : Nat := 0
  client : Nat := 0
  desc : Option Desc := none
  order : Nat := 0
  /-- waits for earlier descriptors of its client (after), or for its handle's previous launch -/
  waits : Bool := false
  next : Nat := 0
  total : Nat := 0
  outst : List Outst := []
  /-- locked source ranges: first byte and length (05 R128) -/
  locks : List (Nat × Nat) := []
  bytes : Nat := 0
  window : Option Nat := none
  handle : Nat := 0
  /-- rows of the delivery log that the descriptor has written (07 R204) -/
  rows : List Nat := []
deriving DecidableEq, Repr

/-- A record of the receipt filter (04 R112). -/
structure FilterRec where
  src : BitVec 24
  stream : BitVec 17
  base : BitVec 16
  map : BitVec 32
  last : Nat
deriving DecidableEq, Repr

/-- What a source read is for. -/
inductive JobUse where
  /-- a packet of an initiator entry -/
  | entry (e : Nat)
  /-- a READ_RESP -/
  | response
  /-- a scheduled stream's packet of one plan frame -/
  | stream (e : Nat)
deriving DecidableEq, Repr

/-- A source read in progress (02 R58, 05 R119). -/
structure ReadJob where
  use : JobUse
  hdr : Header
  base : Nat
  bytes : Nat
  /-- rows read so far -/
  rows : FMap (BitVec 1024)
  kind : TxKind
deriving DecidableEq, Repr

/-- What every endpoint holds (04 R109 to R112). -/
structure Endpoint where
  filter : List FilterRec := []
  entries : FMap Entry := []
  /-- next sequence of each entry's dynamic stream (05 R123) -/
  seqs : FMap (BitVec 16) := []
  tx : List TxPkt := []
  /-- requests in the read-service queue (R109) -/
  reads : List Packet := []
  jobs : List ReadJob := []
  nextOrder : Nat := 0
  /-- slot of the last VC5 header and of the last limited unit injected (10 R288) -/
  lastVc5 : Nat := 0
  lastLimited : Nat := 0
deriving DecidableEq, Repr

/-! ## The landing (05) -/

/-- An arrival window (05 R132). -/
structure Window where
  base : Nat
  length : Nat
  expected : Nat
  got : Nat
  /-- ranges already counted, so that resent bytes count once -/
  ranges : List (Nat × Nat)
  client : Nat
  /-- place of its opener among the landing's descriptors, for the after bit (05 R124) -/
  order : Nat
  tag : BitVec 6
  semEn : Bool
  sem : BitVec 8
  /-- the entry of the READ that opened it -/
  byRead : Option Nat
  permute : Bool
  table : Nat
  esize : Nat
  vl : Nat
  fill : BitVec 32
  filled : Bool
deriving DecidableEq, Repr

/-- A pending tile wait (05 R134, 13 R348). -/
structure Wait where
  sem : BitVec 8
  take : Bool
  operand : BitVec 32
  start : Nat
  timedOut : Bool
  suspended : Bool
deriving DecidableEq, Repr

/-- A scheduled transmit stream (05 R129, R131, 03 R69). -/
structure TxStream where
  desc : BitVec 256
  ready : BitVec 16
  close : Option (BitVec 16)
  /-- plan frames advanced -/
  frame : Nat
  /-- the packet of the present frame goes -/
  pending : Bool
  /-- its rows have been read, its units built -/
  built : Option Packet
  /-- the packet of the next frame has been decided on while that of the present one departs -/
  ahead : Bool
  /-- its units, once its rows have been read -/
  aheadBuilt : Option Packet
  sentUnits : Nat
  seq : BitVec 16
  failed : Bool
  closed : Bool
  closing : Bool
  noShows : Nat
deriving DecidableEq, Repr

/-- A scheduled receive stream (05 R130). -/
structure RxStream where
  desc : BitVec 256
  filled : Bool
deriving DecidableEq, Repr

/-- A running scrub (05 R138). -/
structure Scrub where
  base : Nat
  lines : Nat
  /-- the keeper that ordered it, with its request's header; none for an owner's request -/
  order : Option Header
deriving DecidableEq, Repr

/-- A tensor tap's results (05 R139 to R141). -/
structure Tap where
  cfg : BitVec 64 := 0
  count : Nat := 0
  nans : Nat := 0
  infs : Nat := 0
  zeros : Nat := 0
  min : Option (BitVec 32) := none
  max : Option (BitVec 32) := none
  sum : Int := 0
  digest : BitVec 64 := 0
  last : Option (BitVec 16) := none
  order : Bool := false
  overflow : Bool := false
deriving DecidableEq, Repr

/-- A collective launch at a member (07 R181 to R184, R195). -/
structure Launch where
  entry : Nat
  count : Nat
  /-- reservation requests still unanswered -/
  asked : List (BitVec 32)
  arrivalSent : Bool
  go : Option Nat
  /-- offsets of chunks acknowledged, with how many of their bytes -/
  done : List (Nat × Nat)
  next : Nat
deriving DecidableEq, Repr

/-- A descriptor of a local opcode that waits under its after bit (05 R124). -/
structure LocalDesc where
  opcode : Nat
  client : Nat
  desc : Desc
  order : Nat
deriving DecidableEq, Repr

/-- The tile side of a landing (05). -/
structure Tile where
  ireq : BitVec 32 := 0
  owner : Option Nat := none
  ptr : Nat := 0
  queue : List Nat := []
  /-- idle slots of the owner (R121) -/
  idle : Nat := 0
  /-- opcode and descriptor that the owner presents while TP_DESC_R is low (R122, R132) -/
  offered : Option (Nat × Desc) := none
  /-- a descriptor has been presented in the present slot (R121) -/
  presented : Bool := false
  /-- the owner was granted the path in the present tile cycle (R120) -/
  granted : Bool := false
  /-- local descriptors that wait under their after bit (R124) -/
  locals : List LocalDesc := []
  detached : BitVec 32 := 0
  windows : FMap Window := []
  sems : FMap (BitVec 32) := []
  /-- source of the last fabric operation on a semaphore (13 R339) -/
  semSrc : FMap (BitVec 24) := []
  waits : FMap Wait := []
  txs : FMap TxStream := []
  rxs : FMap RxStream := []
  /-- scheduled resends waiting, by entry and sequence, in order of failure (03 R73) -/
  resendQ : List (Nat × BitVec 16) := []
  scrub : Option Scrub := none
  /-- 0x8005:01: 0 idle, 1 running, 2 done -/
  scrubState : Nat := 0
  /-- a scrub of the ending partition is outstanding: attempts made, deadline (10 R274) -/
  scrubTries : Nat := 0
  scrubDue : Option Nat := none
  scrubOk : Bool := false
  taps : FMap Tap := []
  launches : FMap Launch := []
  scratch : Memory := []
  /-- aborted and reported for the ending partition (10 R273) -/
  aborted : Bool := false
  /-- forced errors for the next row reads: 1 corrected, 2 not (11 R305) -/
  rowForces : List Nat := []
deriving DecidableEq, Repr

/-! ## Combining (06, 07) -/

/-- One element of a combining node's accumulator. -/
inductive Acc where
  /-- exact sum and flag byte (06 R146, R147) -/
  | sum (a : Int) (flags : BitVec 8)
  /-- an encoding, for selections, bitwise operations and counts -/
  | val (v : Nat)
deriving DecidableEq, Repr

/-- A chunk in progress at a node (06 R161). -/
structure Chunk where
  handle : Nat
  /-- 0 on die; i + 1 the i-th axis of the cross-chip algorithm -/
  stage : Nat
  /-- first 64-byte block and number of blocks -/
  first : Nat
  blocks : Nat
  /-- coverage map per block: bit i for the i-th member of the chip, or for position i of the axis -/
  cover : List Nat
  accs : List Acc
  /-- LSE: the pairs of each lowest rank, kept for the fold of R155 -/
  pairs : List (Nat × List Nat)
  low : Nat
  rounded : Bool
  /-- the output, once sent (R163) -/
  out : List Packet
  /-- its store slot has passed without it, so that its output goes on VC3 (03 R67) -/
  late : Bool
  /-- its map is full and its output formed (06 R161) -/
  done : Bool
  /-- block ranges (first, number) whose REDUCE_RESULT has passed downward (06 R164) -/
  passed : List (Nat × Nat)
  /-- when this chip's own partial entered a cross-chip stage (07 R197) -/
  ownAt : Option Nat
deriving DecidableEq, Repr

/-- A unit of a contribution that a switch holds at its input beyond the rate of its store (06 R166). -/
structure Absorb where
  port : Nat
  buf : Nat
  /-- its share of the switch's rate in a slot -/
  cost : Nat
  rel : Nat
  hdr : Header
deriving DecidableEq, Repr

/-- A reservation at a switch (06 R165, R168). -/
structure Resv where
  handle : Nat
  part : Nat
  entries : Nat
  /-- stands for a cross-chip descriptor (07 R193) -/
  cross : Bool
  form : Nat
deriving DecidableEq, Repr

/-- A report record of a stair (07 R202). -/
structure ReportRec where
  hdr : Header
  ports : List Nat
  answered : List Nat
  delivered : List Nat
  fenced : List Nat
  expires : Nat
deriving DecidableEq, Repr

/-- What a switch holds beside its ports. -/
structure Switch where
  resvs : List Resv := []
  chunks : List Chunk := []
  /-- 0 healthy, 1 failed, 2 self-testing -/
  alu : Nat := 0
  /-- the reinstatement takes effect at the next epoch (06 R173) -/
  aluReady : Bool := false
  reports : FMap ReportRec := []
  trace : List (BitVec 256) := []
  traceLost : Nat := 0
  traceLostAt : Nat := 0
  /-- forced residue failures waiting (11 R305): 5 one failure, 6 two -/
  aluForces : List Nat := []
  /-- units held for the store, oldest first, and the share of the slot's rate already used (06 R166) -/
  absorbing : List Absorb := []
  spent : Nat := 0
deriving DecidableEq, Repr

/-- An arrival at a chip root (07 R183). -/
structure Arrival where
  rank : Nat
  count : Nat
  hdr : Header
deriving DecidableEq, Repr

/-- A collective handle on this chip (07 R181 to R197). -/
structure Coll where
  /-- 0x2102:01: 0 idle, 1 arriving, 2 running, 3 done, 4 ended with error -/
  st : Nat := 0
  arrivals : List Arrival := []
  firstAt : Nat := 0
  /-- counts of the chip roots, by lowest rank -/
  rootCounts : List (Nat × Nat) := []
  go : Option Nat := none
  goAt : Nat := 0
  chunks : List Chunk := []
  retained : List (Nat × List Payload) := []
  members : Nat := 0
  /-- 0x2102:03: 0 EXACT, 1 ROUNDED, 2 not applicable -/
  settled : Nat := 0
  /-- halls asked for a standing reservation and not yet answered, and whether ROUNDED was asked -/
  asked : List (Nat × Bool) := []
  refused : List Nat := []
  fellBack : Bool := false
  /-- thresholds of the plan image that the descriptor came from (R187); none for a dictionary write -/
  thr : Option (BitVec 512) := none
  /-- launch count of the run -/
  count : Nat := 0
  /-- the thresholds object as it was in force when the launch began (R187) -/
  inForce : Option (BitVec 512) := none
  /-- the launch has been ended by the chip root, so that no further result is sent (R206) -/
  ended : Bool := false
  /-- members of this chip that have completed the run -/
  finished : Nat := 0
deriving DecidableEq, Repr

/-! ## Pavilions and the machine (08) -/

/-- Training states (08 R225), numbered as 0x2810:02. -/
inductive Train where
  | disabled | laneSync | exchange | measure | check | upUnmapped | up | retrain | failed | miscabled
deriving DecidableEq, Repr

/-- A scheduled unit taken for the cell being filled: hall link, slot in the cell, unit. -/
structure CellUnit where
  link : Nat
  slot : Nat
  flit : Flit
deriving DecidableEq, Repr

/-- What a neighbour announced last (08 R231). -/
structure Announce where
  grand : Nat
  seq : BitVec 16
  hops : Nat
  state : Nat
deriving DecidableEq, Repr

/-- A pavilion (08). -/
structure Pavilion where
  st : Train := .disabled
  reason : Nat := 0
  since : Nat := 0
  peerChip : Option Nat := none
  peerPav : Nat := 0
  peerAlpha : Int := 0
  /-- the lane-delay asymmetry taken at this training, 1/64 slot -/
  alpha : Int := 0
  peerCoord : Option (BitVec 14) := none
  generation : Nat := 0
  /-- d_rx of the last round, 1/64 slot -/
  dRx : Int := 0
  dSum : Int := 0
  theta : Int := 0
  rounds : Nat := 0
  /-- slot of the last beacon round (08 R225, R229) -/
  roundAt : Option Nat := none
  /-- a new D that the next epoch publishes -/
  newD : Option Nat := none
  alarm : Bool := false
  retrains : List Nat := []
  /-- twice the run of superframes with a bad sync byte or header check, plus 1 while the first cell of the present one was
  bad (R226) -/
  badFrames : Nat := 0
  txIdle : Bool := true
  /-- GOING_DOWN cells still to send -/
  goingDown : Nat := 0
  retrainCells : Nat := 0
  /-- the first cell of the superframe being sent (R211) -/
  txFirst : Option (BitVec 12800) := none
  /-- the next cell received is the second of its superframe (R211) -/
  rxSecond : Bool := false
  /-- when the uncorrectable codewords of the last 2^20 codewords came (R226) -/
  badWords : List Nat := []
  sched : List CellUnit := []
  /-- credits towards the peer, per buffer 0 to 8 -/
  peerSize : FMap Nat := []
  sent : FMap Nat := []
  ret : FMap Nat := []
  /-- this side's receive buffers -/
  got : FMap Nat := []
  freed : FMap Nat := []
  told : FMap Nat := []
  turn : Nat := 0
  lastCell : BitVec 16 := 0
  shortQ : List (BitVec 32) := []
  longQ : List (BitVec 256) := []
  /-- second half of the long message being sent -/
  txHalf : Option (BitVec 128) := none
  /-- first half of the long message being received -/
  rxHalf : Option (BitVec 128) := none
  /-- the hold notice sent last, sent again when no other waits -/
  notice : Option (BitVec 32) := none
  inShort : List (BitVec 32) := []
  inLong : List (BitVec 256) := []
  /-- messages seen: type, origin and sequence, and when -/
  seen : List (Nat × Nat) := []
  seqNo : BitVec 8 := 0
  /-- the peer's last transmit stamp and this side's receive stamp of it -/
  peerTx : BitVec 70 := 0
  peerRx : BitVec 70 := 0
  announce : Option Announce := none
  /-- packets open on the line: lane, header, hall link, and whether the rest is discarded -/
  rxOpen : List (Lane × Header × Nat × Bool) := []
  /-- units decoded that wait for their release: slot, hall link, lane, buffer, unit -/
  rxWait : List (Nat × Nat × Lane × Nat × Flit) := []
  /-- GOING_DOWN was received -/
  sawGoingDown : Bool := false
  downSince : Nat := 0
deriving DecidableEq, Repr

/-- Time-servo states (08 R233), numbered as 0x2800:04. -/
inductive TimeState where
  | free | acquire | locked | holdover | grand | timeFault
deriving DecidableEq, Repr

/-- The chip's place in the machine (08 R227 to R238). -/
structure Place where
  chipNo : Option Nat := none
  st : TimeState := .free
  grand : Option Nat := none
  grandSeq : BitVec 16 := 0
  /-- the last sequence seen of each grand chip (R231) -/
  seqSeen : FMap (BitVec 16) := []
  staleRounds : Nat := 0
  hops : Nat := 0
  parent : Option Nat := none
  /-- filtered offset to the parent, 1/64 slot -/
  theta : Int := 0
  good : Nat := 0
  bad : Nat := 0
  rounds : Nat := 0
  holdSince : Nat := 0
  lost : List Nat := []
  floodSeq : BitVec 16 := 0
deriving DecidableEq, Repr

/-! ## Drains and plan loads (03, 04) -/

/-- A drain (04 R113 to R115). Status: 0 idle, 1 stopping, 2 marking, 3 drained, 4 timed out. -/
structure Drain where
  st : Nat := 0
  number : Nat := 0
  parts : List Nat := []
  vcs : List Nat := []
  cross : Bool := false
  ts : Nat := 0
  /-- its commit, kept until the epoch at which injection resumes -/
  commit : Option CommitAsk := none
  /-- endpoints that have answered; 4,096 plus the chip for other chips -/
  acks : List Nat := []
  /-- the head keeper of another chip that coordinates it, for a drain that this chip takes part in (R114) -/
  coord : Option (BitVec 24) := none
  /-- the PREPARE of another chip whose writes here need it (R113; 09 R259) -/
  prepare : Option Prepare := none
  /-- commits that wait until this drain has ended, for a drain of other partitions -/
  waiting : List CommitAsk := []
deriving DecidableEq, Repr

/-- What a staged plan image changes beside its table writes. -/
structure PlanInfo where
  part : Nat
  job : BitVec 16
  frameLen : Nat
  repair : Nat
  holdLead : Nat
  ackLag : Nat
  degrade : Bool
  chips : Nat
  binding : List Nat
  digest : BitVec 384
  shares : Nat × Nat × Nat
  quotas : Nat × Nat × Nat
  ns : Nat
  landings : List Nat
  thresholds : Option (BitVec 512)
  handles : List Nat
  writes : List (Nat × BitVec 64)
  streams : List (Nat × BitVec 256)
  tables : List TableWrites
  storeSlots : List (BitVec 128)
  /-- pavilions of this chip that the plan receives by, with the D that its tables were found to fit (03 R64, R90) -/
  latencies : List (Nat × Nat)
deriving DecidableEq, Repr

/-- A plan load (03 R90). Status as 0x1800:05. -/
structure PlanLoad where
  running : Bool := false
  status : Nat := 0
  section_ : Nat := 0
  sess : Nat := 0
  /-- bytes read from the host window, when the source is there -/
  host : List Byte := []
  hostError : Bool := false
  digest : BitVec 384 := 0
  staged : Option PlanInfo := none
  /-- plans whose commit is accepted -/
  accepted : List PlanInfo := []
deriving DecidableEq, Repr

/-! ## Domains and limits (10) -/

/-- Domain states (10 R277), numbered as 0x8020:02. -/
inductive DomState where
  | active | doze | goingDown | sleep | waking | rejoining
deriving DecidableEq, Repr

/-- A switchable power domain, numbered in SUP_CODE order: stairs 0 to 127, galleries, halls. -/
structure Domain where
  st : DomState := .waking
  target : Nat := 0
  since : Nat := 0
  poweredAt : Nat := 0
  attempts : Nat := 0
  /-- the epoch whose master copy the rejoin loads -/
  epochAt : BitVec 32 := 0
  /-- units whose digest has matched in this rejoin -/
  matched : List Nat := []
  /-- a self-test failure keeps it asleep (14 R353) -/
  failed : Bool := false
  /-- held in reset by its supply (R285) -/
  supplyReset : Bool := false
deriving DecidableEq, Repr

/-- Hard limits (10 R283 to R289). -/
structure Limits where
  warn : List Nat := []
  reset : List Nat := []
  supply : FMap Nat := []
  /-- when a domain last read less than a point above the warning threshold, and when below that threshold (10 R284, R285) -/
  warnAt : FMap Nat := []
  lowAt : FMap Nat := []
  thermal : FMap Int := []
  /-- when an input last read within 5 °C of the throttle temperature, or above it (10 R286) -/
  hotAt : Nat := 0
  throttle : Bool := false
  tripped : Bool := false
  stage : Nat := 0
  /-- windows that the present stage has held, and consecutive ones at or below 90 % of the cap -/
  above : Nat := 0
  below : Nat := 0
  unmet : Bool := false
  emergency : Bool := false
  estimate : Nat := 0
  capCore : Nat := 240
deriving DecidableEq, Repr

/-- An island governor (01 R28). -/
structure Governor where
  request : Bool := false
  cause : Option GovCause := none
  /-- logic clock below 2.01 GHz -/
  lowered : Bool := false
  stretched : Bool := false
  clearSince : Option Nat := none
deriving DecidableEq, Repr

/-! ## Faults (11) -/

/-- A suppression slot (11 R294). -/
structure Slot where
  kind : Nat := 0
  part : Nat := 0
  /-- keyed by kind and partition -/
  pool : Bool := false
  active : Bool := false
  count : Nat := 0
  timer : Nat := 0
  latest : BitVec 128 := 0
  waiting : Option (BitVec 128) := none
deriving DecidableEq, Repr

/-- A fault force in progress (11 R305). -/
structure Force where
  kind : Nat
  act : Bool
  sub : Nat
  port : Nat
  left : Nat
  next : Nat
deriving DecidableEq, Repr

/-- What a unit that raises faults holds. -/
structure FaultSource where
  slots : FMap Slot := []
  outbox : List (BitVec 128) := []
  force : Option Force := none
deriving DecidableEq, Repr

/-- Drops pending in the record FIFO (11 R298). -/
structure Drops where
  count : Nat
  cls : Nat
  first : Nat
  last : Nat
deriving DecidableEq, Repr

/-- The gatehouse (11 R297 to R299, R303). -/
structure Gatehouse where
  fifo : List (BitVec 256) := []
  recNo : BitVec 16 := 0
  drops : Option Drops := none
  dropped : Nat := 0
  summary : FMap Nat := []
  /-- outstanding flags, by source code times 1,024 plus kind -/
  flags : List Nat := []
  first : BitVec 256 := 0
  fatal : BitVec 256 := 0
deriving DecidableEq, Repr

/-- A reaction of K0 (11 R301). -/
structure Reaction where
  kind : Nat
  part : Nat
  fatal : Bool
  ctx : BitVec 48
  step : Nat
  inst : Nat
deriving DecidableEq, Repr

/-- The reaction engine (11 R301). State: 0 IDLE, 1 REACTING, 3 FATAL. -/
structure React where
  st : Nat := 0
  running : Option Reaction := none
  queue : List Reaction := []
  suspended : List Reaction := []
  merged : Nat := 0
  overflow : Nat := 0
  subsumed : Nat := 0
deriving DecidableEq, Repr

/-! ## Firmware, rings and the lodge (12) -/

/-- Firmware states (12 R313), numbered as 0x4401:01. -/
inductive FwState where
  | rom | ready | refused | attached | hostless
deriving DecidableEq, Repr

/-- What an image header names (12 R311). -/
structure Image where
  version : BitVec 32
  iface : BitVec 32
  features : BitVec 64
  schema : BitVec 16
  lowSchema : BitVec 16
  highSchema : BitVec 16
  digest : BitVec 384
deriving DecidableEq, Repr

/-- The keeper firmware (12 R313 to R322). -/
structure Firmware where
  st : FwState := .rom
  loading : Bool := false
  cold : Bool := false
  status : Nat := 0
  host : List Byte := []
  hostError : Bool := false
  /-- the image in the active banks; none in ROM -/
  running : Option Image := none
  standby : Option Image := none
  attachNo : BitVec 32 := 0
  attachResult : BitVec 8 := 0
  driverMajor : BitVec 16 := 0
  agreed : BitVec 64 := 0
  /-- word 1 of an attach request, written in the message now served (R315) -/
  attachWord : Option (BitVec 64) := none
  /-- start of the present grace time -/
  beatAt : Nat := 0
  hostlessAt : Nat := 0
  deferred : Bool := false
  /-- the change-over runs since this epoch (R320) -/
  changing : Option Nat := none
  activatedAt : Nat := 0
deriving DecidableEq, Repr

/-- A mailbox channel (12 R327, R328). -/
structure Chan where
  inq : List (BitVec 32 × BitVec 16) := []
  outq : List (BitVec 32 × BitVec 16) := []
  ackOwner : BitVec 16 := 0
  ackPeer : BitVec 16 := 0
  errors : Nat := 0
deriving DecidableEq, Repr

/-- The lodge (12 R323 to R330). -/
structure Lodge where
  sram : Memory := []
  /-- base and size of the rings of enabled sets as K0 read them (R323): key 4 times the set plus the ring -/
  rings : FMap (Nat × Nat) := []
  /-- events lost per set since the last event 0x000C (R325) -/
  lostEvents : FMap Nat := []
  chans : FMap Chan := []
  /-- ring sets whose doorbell K0 has been notified of -/
  bells : List Nat := []
  /-- inbound queues K0 has been notified of -/
  mail : List Nat := []
  /-- ring sets and, from 32 up, channels whose last command still waits for its response -/
  busy : List Nat := []
  turn : Nat := 0
  eventSeq : FMap (BitVec 32) := []
deriving DecidableEq, Repr

/-- An outbound request of the host landing (14 R360). -/
structure OutReq where
  /-- 1 data of a fabric write, 2 plan load, 3 firmware load, 4 snapshot write, 5 source data of a packet, 6 data of a
  READ_RESP -/
  use : Nat
  beats : Nat
  hdr : Option Header
deriving DecidableEq, Repr

/-- A request that waits while 64 are outstanding. -/
structure HostAsk where
  req : OutReq
  read : Bool
  addr : Nat
  data : List Payload
deriving DecidableEq, Repr

/-- The host landing's port (14 R357 to R360). -/
structure HostPort where
  outReqs : FMap OutReq := []
  asks : List HostAsk := []
  /-- completion records queued, with their client -/
  cmpl : List (Nat × BitVec 64) := []
deriving DecidableEq, Repr

/-! ## Observation (13) -/

/-- The counters of one port (13 R331, R333). -/
structure PortCtrs where
  fixed : FMap Nat := []
  cfg : FMap (BitVec 32) := []
  prog : FMap Nat := []
deriving DecidableEq, Repr

/-- A source's trace outbox (13 R340). -/
structure TraceOut where
  recs : List (BitVec 256) := []
  since : Nat := 0
  lost : Nat := 0
  lostAt : Nat := 0
deriving DecidableEq, Repr

/-- The stillness snapshot (13 R345 to R347). State: 0 idle, 1 capturing, 2 writing, 3 held. -/
structure Snapshot where
  st : Nat := 0
  number : Nat := 0
  ts : Nat := 0
  cause : Nat := 0
  part : Nat := 0
  header : BitVec 512 := 0
  records : List (BitVec 256) := []
  omitted : Bool := false
deriving DecidableEq, Repr

/-- Counters, trace, belvedere, snapshot (13). -/
structure Observe where
  ctrs : FMap PortCtrs := []
  /-- 0 counting, 1 armed, 2 frozen -/
  ctrState : Nat := 0
  freezeAt : Nat := 0
  frozenAt : Nat := 0
  traces : FMap TraceOut := []
  bvReady : Bool := false
  bvQueue : List (BitVec 256) := []
  /-- records that the belvedere has lost since its last LOSS record, and the time of the first -/
  bvLost : Nat := 0
  bvLostAt : Nat := 0
  /-- data blocks sent since the last control block -/
  bvRun : Nat := 0
  /-- the state of each lane's scrambler (13 R344) -/
  bvScr : List (BitVec 58) := [0, 0, 0, 0]
  snap : Snapshot := {}
  /-- wait-timeout notices under way: partition and ts (R348) -/
  notices : List (Nat × Nat) := []
deriving DecidableEq, Repr

/-- The management target (09 R240, 14 R367). -/
structure Mgmt where
  eid : BitVec 8 := 0
  dynAddr : Option (BitVec 7) := none
deriving DecidableEq, Repr

/-- The test access port (14 R368). -/
structure TapPort where
  instr : BitVec 8 := 1#8
  preload : List Bool := []
deriving DecidableEq, Repr

/-- A fabric-time load that K0 has sent to the islands of a domain (01 R26). -/
structure TimeLoad where
  value : Time
  /-- codes of the units that have not loaded it yet -/
  left : List Nat
deriving DecidableEq, Repr

/-- The state of the block. -/
structure State where
  pending : List Instr
  outs : List Output
  build : Build
  /-- the model's own counter of free values drawn (log entry 4) -/
  free : Nat
  boot : Boot
  clocks : FMap Time
  /-- fabric-time loads under way, per domain; 140 for the control domain (01 R26) -/
  loads : FMap TimeLoad
  dict : Dict
  /-- the previous bank of the tag-selected tables, while the tag window is open -/
  prev : Option Dict
  ctl : Control
  parts : FMap Partition
  nodes : FMap Node
  eps : FMap Endpoint
  tiles : FMap Tile
  switches : FMap Switch
  colls : FMap Coll
  pavs : FMap Pavilion
  mach : Place
  drain : Drain
  plan : PlanLoad
  doms : FMap Domain
  lim : Limits
  govs : FMap Governor
  srcs : FMap FaultSource
  gate : Gatehouse
  react : React
  fw : Firmware
  lodge : Lodge
  host : HostPort
  obs : Observe
  mgmt : Mgmt
  tap : TapPort
deriving DecidableEq, Repr

/-- The state that a block reset leaves, RST_N or PWR_OK low (14 R350): no command waits, every island is held in
reset with its fabric time at 0, every domain is off, the firmware is in its ROM (R352), the time servo is free, and
every object is at its default. The default beside each field of a record above is its reset value. -/
def State.reset : State :=
  { pending := [], outs := [], build := Config.p2048, free := 0, boot := {}, clocks := [], loads := []
    dict := [], prev := none, ctl := {}, parts := [], nodes := [], eps := [], tiles := [], switches := []
    colls := [], pavs := [], mach := {}, drain := {}, plan := {}, doms := [], lim := {}, govs := [], srcs := []
    gate := {}, react := {}, fw := {}, lodge := {}, host := {}, obs := {}, mgmt := {}, tap := {} }

end Machine
end Sys2Proof
end

