-- ==== Sys2Proof/Machine/Layout.lean ====
section
/-!
DEFINITION. The layouts of the spec as packing and unpacking functions: header unit (02 R41), hop word (02 R40),
credit word (04 R96), dictionary entry and message header (09 R243, R244), commit body (09 R245), dynamic
descriptor (05 R124), fault message (11 R291), records, and units as bytes (00 R8).
-/
namespace Sys2Proof.Machine

/-- Bits `lo` to `lo + w - 1` of a number. -/
def bitsAt (v lo w : Nat) : Nat := v / 2 ^ lo % 2 ^ w

/-! ## Bytes and units (00 R8) -/

/-- Byte `k` of a payload: bits [8k + 7:8k]. -/
def payloadByte (p : Payload) (k : Nat) : Byte := BitVec.ofNat 8 (p.toNat / 2 ^ (8 * k))

/-- The bytes of a payload in ascending order. -/
def payloadBytes (p : Payload) : List Byte := (List.range 64).map (payloadByte p)

/-- A number whose least significant byte comes first. -/
def ofBytes (bs : List Byte) : Nat := leOfBytes bs

/-- The low `n` bytes of a number, least significant first. -/
def bytesOf : Nat → Nat → List Byte
  | 0, _ => []
  | n + 1, v => BitVec.ofNat 8 v :: bytesOf n (v / 256)

/-- Whether two ranges (first, length) meet. -/
def meets (a n b m : Nat) : Bool := decide (a < b + m ∧ b < a + n)

/-- How much of a range no listed range covers. -/
def uncovered : List (Nat × Nat) → Nat → Nat → Nat
  | [], _, n => n
  | r :: rs, a, n =>
    if meets a n r.1 r.2 then
      let before := r.1 - a
      let after := a + n - (r.1 + r.2)
      (if before = 0 then 0 else uncovered rs a before) + (if after = 0 then 0 else uncovered rs (r.1 + r.2) after)
    else uncovered rs a n

/-- A payload from its bytes, missing ones zero. -/
def payloadOf (bs : List Byte) : Payload := BitVec.ofNat 512 (ofBytes (bs.take 64))

/-- Bytes as payloads of 64 bytes; `k` bounds their number. -/
def payloadsOf : Nat → List Byte → List Payload
  | 0, _ => []
  | k + 1, bs => if bs.isEmpty then [] else payloadOf bs :: payloadsOf k (bs.drop 64)

/-! ## Units and hop words -/

/-- The payload of a header unit (02 R41). -/
def packHeader (h : Header) : Payload :=
  h.version ++ h.cls ++ h.vc ++ h.command ++ h.mcast ++ h.tag ++ h.part ++ h.src ++ h.dst ++ h.plane ++ h.length ++
    h.stream ++ h.seq ++ h.addr ++ h.depSlot ++ h.coll ++ h.aux ++ h.stamp ++ h.rsv ++ h.inl

/-- The header fields of a payload (02 R41). -/
def unpackHeader (p : Payload) : Header :=
  { version := p.extractLsb' 510 2, cls := p.extractLsb' 509 1, vc := p.extractLsb' 506 3
    command := p.extractLsb' 498 8, mcast := p.extractLsb' 497 1, tag := p.extractLsb' 493 4
    part := p.extractLsb' 483 10, src := p.extractLsb' 459 24, dst := p.extractLsb' 435 24
    plane := p.extractLsb' 433 2, length := p.extractLsb' 426 7, stream := p.extractLsb' 409 17
    seq := p.extractLsb' 393 16, addr := p.extractLsb' 369 24, depSlot := p.extractLsb' 353 16
    coll := p.extractLsb' 321 32, aux := p.extractLsb' 289 32, stamp := p.extractLsb' 257 32
    rsv := p.extractLsb' 256 1, inl := p.extractLsb' 0 256 }

/-- The channel that a unit is counted and handled under: 000b for a scheduled packet whatever its VC field holds (02 R44). -/
def vcOf (h : Header) : Nat := if h.cls = 1#1 then 0 else h.vc.toNat

/-- The hop word of a unit that leaves at slot `t` (02 R40). -/
def hopWord (esc forced : Bool) (t : Nat) : BitVec 10 :=
  let v := 512 + (if esc then 256 else 0) + t % 64 * 4 + (if forced then 2 else 0)
  BitVec.ofNat 10 (v + (if oddOnes 10 v then 1 else 0))

/-- The departure slot that a hop word names: the latest time no later than `now` with its low 6 bits (02 R40). -/
def hopDeparture (hop : BitVec 10) (now : Nat) : Nat := now - (now + 64 - bitsAt hop.toNat 2 6) % 64

/-- A credit word (04 R96). -/
def creditWordOf (buf freed : Nat) : BitVec 9 :=
  let v := buf % 8 * 64 + freed % 32 * 2
  BitVec.ofNat 9 (v + (if oddOnes 9 v then 1 else 0))

/-- The units of a packet: header unit, data units, tail word in the last, valid codes (02 R39, R57). -/
def unitsOf (h : Header) (data : List Payload) (resend : Bool) : List Flit :=
  let ps := packHeader h :: data
  let n := ps.length
  ps.zipIdx.map (fun x => withCodes
    { payload := x.1, first := x.2 == 0, last := x.2 + 1 == n, trunc := false, resend := resend, codes := 0
      tail := if x.2 + 1 = n then crc32c ps else 0 })

/-- The units of a packet bit for bit as its source made them: its own tail word, and a truncation unit where one closes it
(02 R42). -/
def rawUnits (p : Packet) : List Flit :=
  let ps := packHeader p.hdr :: p.data
  let n := ps.length
  ps.zipIdx.map (fun x =>
    let last := x.2 + 1 == n && !p.trunc
    withCodes { payload := x.1, first := x.2 == 0, last := last, trunc := false, resend := p.resend, codes := 0
                tail := if last then p.tail else 0 }) ++ (if p.trunc then [truncationUnit p.resend] else [])

/-! ## Dictionary messages (09 R243 to R245) -/

/-- The 128 bits of a dictionary entry (09 R244). -/
def packEntry (e : DictEntry) : BitVec 128 :=
  e.idx ++ e.sub ++ e.inst ++ e.row ++ e.word ++ e.outcome ++ e.value

/-- A dictionary entry from its 128 bits (09 R244). -/
def unpackEntry (v : BitVec 128) : DictEntry :=
  { idx := v.extractLsb' 112 16, sub := v.extractLsb' 104 8, inst := v.extractLsb' 88 16
    row := v.extractLsb' 76 12, word := v.extractLsb' 72 4, outcome := v.extractLsb' 64 8
    value := v.extractLsb' 0 64 }

/-- A dictionary message header (09 R243). -/
def msgHeader (op : Nat) (req : BitVec 8) (sess status n : Nat) : BitVec 32 :=
  BitVec.ofNat 32 (op % 16 * 2 ^ 28 + req.toNat * 2 ^ 20 + sess % 256 * 2 ^ 12 + status % 16 * 2 ^ 8 + n % 256)

/-- The body of a response to COMMIT (09 R245). -/
def commitAnswer (e epoch failIdx failSub : Nat) : BitVec 256 :=
  BitVec.ofNat 256 (e % 2 ^ 64 * 2 ^ 192 + epoch % 2 ^ 32 * 2 ^ 160 + failIdx % 2 ^ 16 * 2 ^ 144 + failSub % 256 * 2 ^ 136)

/-- A COMMIT body from the inline payload (09 R245). -/
def commitBodyOf (v : BitVec 256) : CommitBody :=
  { time := v.extractLsb' 192 64, scope := v.extractLsb' 190 2, part := v.extractLsb' 180 10 }

/-! ## Descriptors and records -/

/-- The opcode of a dynamic descriptor (05 R124, R125). -/
def descOpcode (v : BitVec 256) : Nat := (v.extractLsb' 252 4).toNat

/-- The fields of a dynamic descriptor below its opcode (05 R124). -/
def unpackDesc (v : BitVec 256) : Desc :=
  { tag := v.extractLsb' 241 6, vc5 := v.getLsbD 240, after := v.getLsbD 239, semEn := v.getLsbD 238
    sem := v.extractLsb' 230 8, dest := v.extractLsb' 206 24, remote := v.extractLsb' 182 24
    localAddr := v.extractLsb' 158 24, length := v.extractLsb' 144 14, rsem := v.extractLsb' 136 8
    rop := v.extractLsb' 134 2, operand := v.extractLsb' 102 32, specific := v.extractLsb' 0 102 }

/-- A completion record (05 R127). -/
def completionRecord (client : Nat) (tag : BitVec 6) (status entry bytes : Nat) : BitVec 64 :=
  BitVec.ofNat 64 (client % 32 * 2 ^ 59 + tag.toNat * 2 ^ 53 + status % 256 * 2 ^ 45 + entry % 64 * 2 ^ 39 + bytes % 2 ^ 24 * 2 ^ 15)

/-- A fault message (11 R291). -/
def faultMessage (level inst sub kind cls part time ctx rep : Nat) : BitVec 128 :=
  BitVec.ofNat 128 (level % 8 * 2 ^ 125 + inst % 4096 * 2 ^ 113 + sub % 32 * 2 ^ 108 + kind % 1024 * 2 ^ 98 +
    cls % 4 * 2 ^ 96 + part % 1024 * 2 ^ 86 + time % 2 ^ 32 * 2 ^ 54 + ctx % 2 ^ 48 * 2 ^ 6 + rep % 64)

/-- Fields of a fault message (11 R291). -/
def fmLevel (m : BitVec 128) : Nat := bitsAt m.toNat 125 3
/-- Source instance of a fault message. -/
def fmInst (m : BitVec 128) : Nat := bitsAt m.toNat 113 12
/-- Kind of a fault message. -/
def fmKind (m : BitVec 128) : Nat := bitsAt m.toNat 98 10
/-- Class of a fault message. -/
def fmClass (m : BitVec 128) : Nat := bitsAt m.toNat 96 2
/-- Partition of a fault message. -/
def fmPart (m : BitVec 128) : Nat := bitsAt m.toNat 86 10
/-- Time of a fault message. -/
def fmTime (m : BitVec 128) : Nat := bitsAt m.toNat 54 32
/-- Context of a fault message. -/
def fmCtx (m : BitVec 128) : Nat := bitsAt m.toNat 6 48
/-- Repeat count of a fault message. -/
def fmRepeat (m : BitVec 128) : Nat := bitsAt m.toNat 0 6

/-- Context format P (11 R292). -/
def ctxPacket (port : Nat) (h : Header) : Nat := port % 256 * 2 ^ 39 + h.stream.toNat * 2 ^ 22 + h.seq.toNat * 2 ^ 6
/-- Context format S (11 R292). -/
def ctxScratch (addr entry client : Nat) : Nat := addr % 2 ^ 24 * 2 ^ 23 + entry % 64 * 2 ^ 17 + client % 32 * 2 ^ 12
/-- Context format C (11 R292). -/
def ctxColl (handle offset : Nat) : Nat := handle % 4096 * 2 ^ 35 + offset % 2 ^ 24 * 2 ^ 11
/-- Context format L (11 R292). -/
def ctxLink (port count : Nat) : Nat := port % 256 * 2 ^ 39 + count % 2 ^ 39
/-- Context format M (11 R292). -/
def ctxMachine (inst num : Nat) : Nat := inst % 4096 * 2 ^ 35 + num % 2 ^ 22 * 2 ^ 13
/-- Context format V (11 R292). -/
def ctxValue (v : Nat) : Nat := v % 2 ^ 16 * 2 ^ 31
/-- The FORCED bit of a context (11 R292). -/
def ctxForced : Nat := 2 ^ 47

/-- A record-FIFO entry (11 R298). -/
def fifoEntry (m : BitVec 128) (time recNo : Nat) : BitVec 256 :=
  BitVec.ofNat 256 (m.toNat * 2 ^ 128 + time % 2 ^ 64 * 2 ^ 64 + recNo % 2 ^ 16 * 2 ^ 48)

/-- A trace record (13 R339). -/
def traceRecord (type level inst part time body : Nat) : BitVec 256 :=
  BitVec.ofNat 256 (type % 256 * 2 ^ 248 + level % 8 * 2 ^ 245 + inst % 4096 * 2 ^ 233 + part % 1024 * 2 ^ 223 +
    time % 2 ^ 64 * 2 ^ 152 + body % 2 ^ 152)

/-- A clamp-log entry (09 R252). -/
def clampEntry (time : Nat) (e : DictEntry) (sess outcome field requested applied : Nat) : BitVec 256 :=
  BitVec.ofNat 256 (time % 2 ^ 32 * 2 ^ 224 + e.idx.toNat * 2 ^ 208 + e.sub.toNat * 2 ^ 200 + e.inst.toNat * 2 ^ 184 +
    e.row.toNat * 2 ^ 172 + e.word.toNat * 2 ^ 168 + sess % 256 * 2 ^ 160 + outcome % 256 * 2 ^ 152 +
    field % 256 * 2 ^ 144 + requested % 2 ^ 64 * 2 ^ 64 + applied % 2 ^ 64)

end Sys2Proof.Machine
end

