-- ==== Sys2Proof/Machine/Objects.lean ====
section
/-!
DEFINITION. The objects of the dictionary (09 R247 to R249 and the object tables of every chapter): for each object
its instance prefixes, access class, rows, words of a row, default words, the rule of its range, and when a write of
it takes effect.
-/
namespace Sys2Proof.Machine

/-- Access classes (09 R249); `ctr` is OWN at a landing and PRIV elsewhere (13 R337). -/
inductive Access where
  | ro | rw | wo | rwc | priv | own | ctr
deriving DecidableEq, Repr

/-- When an accepted write takes effect (09 R250). `selector`: a value of the session (R249). `grand`: at once while
the time state is FREE, at the next epoch otherwise (08, 0x2800:02). -/
inductive Takes where
  | never | immediate | epoch | selector | grand
deriving DecidableEq, Repr

/-- The rule of a Range column. A field is (lowest bit, width, lower bound, upper bound). -/
inductive Range where
  | any | readOnly | zero | one
  | aligned (bits : Nat)
  | clamp (fs : List (Nat × Nat × Nat × Nat))
  | refuse (fs : List (Nat × Nat × Nat × Nat))
  /-- 0 to 511, 0xFFFF, and the value given -/
  | partition (also : Nat)
  | doze | axes | source | port | slotEntry | cellEntry | collDesc | thresholds | replication | chipNo | asymmetry
  | faultPair | summary | force | counter | traceTypes | snapAddr | snapLen | channel | tap | scrub | census
deriving DecidableEq, Repr

/-- An object of the dictionary. -/
structure Obj where
  /-- index times 256 plus sub-index -/
  id : Nat
  /-- instance prefixes: 0 none, 1 L, 2 S, 3 G, 4 H, 5 P, 6 K -/
  pre : List Nat
  acc : Access
  rows : Nat
  words : Nat
  /-- default words, row by row; the last one stands for every later place -/
  dflt : List Nat
  range : Range
  takes : Takes
deriving DecidableEq, Repr

/-- Objects of slot tables and plans (03). -/
def objs03 : List Obj :=
  [ ⟨0x180001, [0], .priv, 1, 1, [0], .refuse [(0, 8, 0, 1)], .immediate⟩ -- plan space
  , ⟨0x180002, [0], .priv, 1, 1, [0], .source, .immediate⟩ -- plan address
  , ⟨0x180003, [0], .priv, 1, 1, [0], .refuse [(0, 16, 0, 511)], .immediate⟩ -- plan partition
  , ⟨0x180004, [0], .priv, 1, 1, [0], .refuse [(0, 1, 0, 1)], .immediate⟩ -- plan load start
  , ⟨0x180005, [0], .ro, 1, 1, [0], .readOnly, .never⟩ -- plan load status
  , ⟨0x180006, [0], .ro, 1, 1, [0], .readOnly, .never⟩ -- plan refusal section
  , ⟨0x180007, [0], .ro, 1, 6, [0], .readOnly, .never⟩ -- staged plan digest
  , ⟨0x180101, [0], .own, 512, 16, [0], .readOnly, .never⟩ -- active plan
  , ⟨0x181001, [0], .ro, 512, 1, [0], .readOnly, .never⟩ -- frame length
  , ⟨0x181002, [0], .ro, 512, 1, [0], .readOnly, .never⟩ -- repair window
  , ⟨0x181003, [0], .ro, 512, 1, [0], .readOnly, .never⟩ -- hold lead and ack lag
  , ⟨0x181004, [0], .ro, 512, 1, [0], .readOnly, .never⟩ -- plan start
  , ⟨0x181005, [0], .ro, 512, 1, [0], .readOnly, .never⟩ -- rate
  , ⟨0x181101, [0], .priv, 1, 1, [0xffff], .partition 0xFFFF, .immediate⟩ -- half-rate request
  , ⟨0x181102, [0], .priv, 1, 1, [0xffff], .partition 0xFFFF, .immediate⟩ -- full-rate return
  , ⟨0x182001, [1, 2, 3, 4], .priv, 1, 1, [0], .port, .selector⟩ -- slot-table port
  , ⟨0x182002, [1, 2, 3, 4], .priv, 1, 1, [0], .clamp [(0, 16, 0, 4095)], .selector⟩ -- slot-table index
  , ⟨0x182003, [1, 2, 3, 4], .priv, 1, 1, [0], .slotEntry, .epoch⟩ -- shadow slot entry
  , ⟨0x182004, [1, 2, 3, 4], .priv, 1, 1, [0], .slotEntry, .epoch⟩ -- active slot entry
  , ⟨0x182005, [1, 2, 3, 4], .priv, 1, 1, [0xffff], .partition 0xFFFF, .selector⟩ -- slot entry owner
  , ⟨0x183001, [5], .priv, 1, 1, [0], .clamp [(0, 16, 0, 511)], .selector⟩ -- cell index
  , ⟨0x183002, [5], .priv, 2, 1, [0], .cellEntry, .epoch⟩ -- tx cell entry
  , ⟨0x183003, [5], .priv, 1, 1, [0], .refuse [(0, 32, 0, 4294967295)], .epoch⟩ -- rx cell entry
  , ⟨0x183004, [5], .ro, 1, 1, [0], .readOnly, .never⟩ -- pavilion latency
  ]

/-- Objects of slot tables and plans (03). -/
def objs03b : List Obj :=
  [ ⟨0x184001, [0], .own, 512, 1, [0], .zero, .immediate⟩ -- frame holds
  , ⟨0x184002, [0], .own, 512, 1, [0], .zero, .immediate⟩ -- late holds
  , ⟨0x184003, [0], .own, 512, 1, [0], .zero, .immediate⟩ -- scheduled resends
  , ⟨0x184004, [0], .own, 512, 1, [0], .zero, .immediate⟩ -- failed and abandoned
  ]

/-- Objects of dynamic traffic (04). -/
def objs04 : List Obj :=
  [ ⟨0x100001, [0], .rwc, 5, 1, [32, 64, 64, 16, 32], .clamp [(0, 8, 1, 255)], .epoch⟩ -- VC weights
  , ⟨0x100002, [0], .rwc, 1, 1, [256], .clamp [(0, 16, 16, 4096)], .epoch⟩ -- service wait
  , ⟨0x100003, [0], .rwc, 1, 1, [512], .clamp [(0, 16, 64, 16384)], .epoch⟩ -- escape threshold
  , ⟨0x100101, [0], .rwc, 1, 1, [0x186a0], .clamp [(0, 32, 2000, 20000000)], .epoch⟩ -- initiator timeout on die
  , ⟨0x100102, [0], .rwc, 1, 1, [0x3d0900], .clamp [(0, 32, 20000, 200000000)], .epoch⟩ -- initiator timeout across
  , ⟨0x100103, [0], .ro, 1, 1, [3], .readOnly, .never⟩ -- resend limit
  , ⟨0x100201, [0], .rwc, 1, 1, [0x30d40], .clamp [(0, 32, 20000, 20000000)], .epoch⟩ -- drain timeout one chip
  , ⟨0x100202, [0], .rwc, 1, 1, [0x7a1200], .clamp [(0, 32, 200000, 400000000)], .epoch⟩ -- drain timeout across
  , ⟨0x100203, [0], .ro, 1, 1, [0], .readOnly, .never⟩ -- drain status
  , ⟨0x100204, [0], .ro, 1, 1, [0], .readOnly, .never⟩ -- drain number
  , ⟨0x101001, [0], .priv, 1024, 1, [0], .refuse [(0, 16, 0, 65535)], .epoch⟩ -- chip map
  , ⟨0x101002, [0], .ro, 1, 1, [0], .readOnly, .never⟩ -- own chip number
  , ⟨0x101003, [0], .priv, 1, 1, [0], .axes, .epoch⟩ -- axis sizes
  , ⟨0x101004, [0], .ro, 1024, 1, [0], .readOnly, .never⟩ -- plane map
  , ⟨0x101101, [2, 3, 4], .priv, 1, 3, [0xffffffffffffffff], .any, .epoch⟩ -- link-enable mask
  , ⟨0x101102, [2, 3, 4], .ro, 1, 3, [0], .readOnly, .never⟩ -- link state
  , ⟨0x102001, [1], .own, 1, 1, [0], .readOnly, .never⟩ -- entries in use
  , ⟨0x102002, [1], .own, 1, 1, [0], .zero, .immediate⟩ -- ended by timeout
  , ⟨0x102003, [1], .own, 1, 1, [0], .zero, .immediate⟩ -- duplicates
  , ⟨0x102004, [1], .own, 1, 1, [0], .zero, .immediate⟩ -- answers shed
  ]

/-- Objects of landings (05). -/
def objs05 : List Obj :=
  [ ⟨0x042001, [0], .rwc, 1, 1, [0x1f400], .clamp [(0, 32, 2000, 20000000)], .epoch⟩ -- injection watchdog
  , ⟨0x800001, [1], .own, 1, 1, [0], .readOnly, .never⟩ -- detached clients
  , ⟨0x800002, [1], .priv, 1, 1, [0], .refuse [(0, 32, 0, 4294967295)], .epoch⟩ -- reattach clients
  , ⟨0x800003, [1], .own, 1, 1, [0], .zero, .immediate⟩ -- watchdog bites
  , ⟨0x800004, [1], .own, 1, 1, [0], .zero, .immediate⟩ -- partition mark
  , ⟨0x800101, [1], .priv, 1, 1, [0], .clamp [(0, 8, 0, 64)], .epoch⟩ -- scheduled entry count
  , ⟨0x800102, [1], .own, 64, 1, [0], .readOnly, .never⟩ -- entry states
  , ⟨0x800103, [1], .own, 64, 4, [0], .readOnly, .never⟩ -- transmit descriptors
  , ⟨0x800104, [1], .own, 64, 4, [0], .readOnly, .never⟩ -- receive descriptors
  , ⟨0x800201, [1], .own, 1, 1, [0], .readOnly, .never⟩ -- open windows
  , ⟨0x800202, [1], .own, 1, 1, [0], .zero, .immediate⟩ -- undeclared and overlaps
  , ⟨0x800203, [1], .own, 512, 1, [0], .clamp [(0, 8, 0, 127)], .epoch⟩ -- permute tables
  , ⟨0x800204, [1], .own, 1, 1, [0], .zero, .immediate⟩ -- mismatches and FILLED
  , ⟨0x800301, [1], .own, 256, 1, [0], .readOnly, .never⟩ -- semaphores
  , ⟨0x800302, [1], .own, 1, 1, [0], .zero, .immediate⟩ -- wait timeouts
  , ⟨0x800401, [1], .own, 1, 1, [0], .tap, .epoch⟩ -- tap configuration 0
  , ⟨0x800402, [1], .own, 1, 1, [0], .tap, .epoch⟩ -- tap configuration 1
  , ⟨0x800403, [1], .own, 1, 1, [0], .tap, .epoch⟩ -- tap configuration 2
  , ⟨0x800404, [1], .own, 1, 1, [0], .tap, .epoch⟩ -- tap configuration 3
  , ⟨0x800411, [1], .own, 14, 1, [0], .zero, .immediate⟩ -- tap results 0
  , ⟨0x800412, [1], .own, 14, 1, [0], .zero, .immediate⟩ -- tap results 1
  , ⟨0x800413, [1], .own, 14, 1, [0], .zero, .immediate⟩ -- tap results 2
  , ⟨0x800414, [1], .own, 14, 1, [0], .zero, .immediate⟩ -- tap results 3
  , ⟨0x800501, [1], .priv, 1, 1, [0], .readOnly, .never⟩ -- scrub status
  ]

/-- Objects of landings (05). -/
def objs05b : List Obj :=
  [ ⟨0x800502, [1], .priv, 1, 1, [0], .readOnly, .never⟩ -- lines zeroed
  , ⟨0x800503, [1], .own, 1, 1, [0], .zero, .immediate⟩ -- source errors
  ]

/-- Objects of combining (06). -/
def objs06 : List Obj :=
  [ ⟨0x200001, [2, 3, 4], .ro, 1, 1, [0], .readOnly, .never⟩ -- store entries
  , ⟨0x200002, [2, 3, 4], .ro, 1, 1, [0], .readOnly, .never⟩ -- free entries
  , ⟨0x200003, [2, 3, 4], .ro, 1, 1, [0], .readOnly, .never⟩ -- reserved collectives
  , ⟨0x200004, [2, 3, 4], .ro, 1, 1, [0], .readOnly, .never⟩ -- ALU state
  , ⟨0x200005, [2, 3, 4], .priv, 1, 1, [0], .one, .epoch⟩ -- ALU reinstatement
  , ⟨0x200101, [2, 3, 4], .priv, 1, 1, [0], .zero, .immediate⟩ -- reservations
  , ⟨0x200102, [2, 3, 4], .priv, 1, 1, [0], .zero, .immediate⟩ -- combining failures
  , ⟨0x200103, [2, 3, 4], .priv, 1, 1, [0], .zero, .immediate⟩ -- duplicates and mismatches
  , ⟨0x200104, [1], .own, 1, 1, [0], .zero, .immediate⟩ -- root combining
  , ⟨0x201001, [0], .own, 4096, 1, [0], .zero, .immediate⟩ -- result flags
  ]

/-- Objects of collectives and multicast (07). -/
def objs07 : List Obj :=
  [ ⟨0x210001, [0], .priv, 4096, 8, [0], .collDesc, .epoch⟩ -- collective descriptors
  , ⟨0x210002, [0], .priv, 4096, 1, [0xffff], .partition 0xFFFF, .epoch⟩ -- handle owner
  , ⟨0x210101, [0], .rwc, 5, 1, [0x10000, 0x10000, 8, 7, 2], .thresholds, .epoch⟩ -- thresholds
  , ⟨0x210201, [0], .own, 4096, 1, [0], .readOnly, .never⟩ -- collective state
  , ⟨0x210202, [0], .own, 4096, 1, [0], .readOnly, .never⟩ -- selection in force
  , ⟨0x210203, [0], .own, 4096, 1, [0], .readOnly, .never⟩ -- settled form
  , ⟨0x210301, [0], .own, 4096, 2, [0], .zero, .immediate⟩ -- stragglers
  , ⟨0x220001, [2, 3, 4], .priv, 1, 1, [0], .clamp [(0, 16, 0, 4095)], .selector⟩ -- replication index
  , ⟨0x220002, [2, 3, 4], .priv, 3, 1, [0], .replication, .epoch⟩ -- replication entry
  , ⟨0x220003, [2, 3, 4], .ro, 1, 1, [0], .readOnly, .never⟩ -- replication in use
  , ⟨0x220101, [2], .priv, 1, 1, [0], .zero, .immediate⟩ -- report records
  , ⟨0x220102, [2, 3, 4], .priv, 1, 1, [0], .zero, .immediate⟩ -- multicast drops
  , ⟨0x801001, [1], .own, 64, 1, [0], .census, .epoch⟩ -- census
  , ⟨0x801002, [1], .own, 1024, 1, [0], .readOnly, .never⟩ -- delivery log
  , ⟨0x801003, [1], .own, 1, 1, [0], .zero, .immediate⟩ -- delivery position
  ]

/-- Objects of pavilions and machine (08). -/
def objs08 : List Obj :=
  [ ⟨0x280001, [0], .priv, 1, 1, [0xffff], .chipNo, .immediate⟩ -- chip-number request
  , ⟨0x280002, [0], .priv, 1, 1, [1], .refuse [(0, 1, 0, 1)], .grand⟩ -- grand eligible
  , ⟨0x280003, [0], .ro, 1, 1, [0xffff], .readOnly, .never⟩ -- grand chip
  , ⟨0x280004, [0], .ro, 1, 1, [0], .readOnly, .never⟩ -- time state
  , ⟨0x280005, [0], .ro, 1, 1, [0xffff], .readOnly, .never⟩ -- parent and hops
  , ⟨0x280006, [0], .ro, 1, 1, [0], .readOnly, .never⟩ -- filtered offset
  , ⟨0x280007, [0], .rwc, 1, 1, [0xf4240], .clamp [(0, 32, 100000, 1000000)], .epoch⟩ -- holdover limit
  , ⟨0x280008, [0], .priv, 1, 1, [0], .refuse [(0, 1, 0, 1)], .immediate⟩ -- relock
  , ⟨0x280101, [0], .rwc, 1, 1, [0x61a80], .clamp [(0, 32, 20000, 20000000)], .epoch⟩ -- chip-loss time
  , ⟨0x280102, [0], .ro, 1024, 1, [0], .readOnly, .never⟩ -- lost chips
  , ⟨0x280103, [0], .rwc, 1, 1, [16], .clamp [(0, 16, 1, 1024)], .epoch⟩ -- codeword limit
  , ⟨0x280104, [0], .rwc, 1, 1, [3], .clamp [(0, 8, 1, 15)], .epoch⟩ -- retrain limit
  , ⟨0x281001, [5], .priv, 1, 1, [0], .refuse [(0, 1, 0, 1)], .immediate⟩ -- pavilion enable
  , ⟨0x281002, [5], .ro, 1, 1, [0], .readOnly, .never⟩ -- link state
  , ⟨0x281003, [5], .ro, 1, 1, [0], .readOnly, .never⟩ -- failure reason
  , ⟨0x281004, [5], .ro, 1, 1, [0], .readOnly, .never⟩ -- peer identity
  , ⟨0x281005, [5], .priv, 1, 1, [0], .asymmetry, .immediate⟩ -- asymmetry
  , ⟨0x281006, [5], .ro, 1, 1, [0], .readOnly, .never⟩ -- receive delay
  , ⟨0x281007, [5], .ro, 1, 1, [0], .readOnly, .never⟩ -- delay alarm
  , ⟨0x281101, [5], .priv, 1, 8, [0], .any, .epoch⟩ -- partition enable
  , ⟨0x281201, [5], .priv, 1, 1, [0], .zero, .immediate⟩ -- FEC counts
  , ⟨0x281202, [5], .priv, 1, 1, [0], .zero, .immediate⟩ -- damaged cells
  , ⟨0x281203, [5], .priv, 1, 1, [0], .zero, .immediate⟩ -- deferred and retrains
  , ⟨0x281204, [5], .priv, 1, 1, [0], .zero, .immediate⟩ -- link discards
  ]

/-- Objects of dictionary control and identity (09). -/
def objs09 : List Obj :=
  [ ⟨0x000001, [0], .ro, 1, 1, [0], .readOnly, .never⟩ -- epoch current
  , ⟨0x000002, [0], .ro, 1, 1, [0], .readOnly, .never⟩ -- epoch staged
  , ⟨0x000003, [0], .ro, 1, 1, [0], .readOnly, .never⟩ -- commit time
  , ⟨0x000004, [0], .ro, 1, 1, [0], .readOnly, .never⟩ -- last epoch time
  , ⟨0x000005, [0], .priv, 64, 1, [0], .readOnly, .never⟩ -- sessions
  , ⟨0x000006, [0], .priv, 1, 1, [0], .refuse [(0, 32, 0, 4294967295)], .immediate⟩ -- host heartbeat
  , ⟨0x000007, [0], .priv, 256, 4, [0], .readOnly, .never⟩ -- clamp log
  , ⟨0x000008, [0], .priv, 1, 1, [0], .zero, .immediate⟩ -- clamp log position
  , ⟨0x000009, [0], .rwc, 1, 1, [0x9c40], .clamp [(0, 32, 8192, 100000)], .epoch⟩ -- tag window
  , ⟨0x00000A, [0], .rwc, 1, 1, [0x9c40], .clamp [(0, 32, 40000, 2000000)], .epoch⟩ -- cross-chip lead floor
  , ⟨0x00000B, [0], .priv, 8, 1, [0], .readOnly, .never⟩ -- commit queue
  , ⟨0x00000C, [0], .priv, 1, 1, [0], .zero, .immediate⟩ -- stale discards, late commits
  , ⟨0x010001, [0], .ro, 1, 8, [0x61462079656c6855, 0x6461726572, 0, 0, 0, 0, 0, 0], .readOnly, .never⟩ -- vendor
  , ⟨0x010002, [0], .ro, 1, 8, [0x2068746f6c6f6c50, 0x312d50565a, 0, 0, 0, 0, 0, 0], .readOnly, .never⟩ -- product
  , ⟨0x010003, [0], .ro, 1, 1, [1], .readOnly, .never⟩ -- generation
  , ⟨0x010004, [0], .ro, 1, 8, [0x3834303250, 0, 0, 0, 0, 0, 0, 0], .readOnly, .never⟩ -- build configuration
  , ⟨0x010005, [0], .ro, 1, 1, [256], .readOnly, .never⟩ -- format version
  , ⟨0x010006, [0], .ro, 1, 1, [0], .readOnly, .never⟩ -- interface version
  , ⟨0x010007, [0], .ro, 1, 1, [0], .readOnly, .never⟩ -- firmware version
  , ⟨0x010008, [0], .ro, 1, 6, [0], .readOnly, .never⟩ -- firmware digest
  , ⟨0x010009, [0], .ro, 1, 1, [0], .readOnly, .never⟩ -- feature mask
  , ⟨0x01000A, [0], .ro, 1, 1, [0], .readOnly, .never⟩ -- MCTP endpoint
  ]

/-- Objects of partitions, domains and limits (10). -/
def objs10 : List Obj :=
  [ ⟨0x041001, [0], .ro, 1, 1, [240], .readOnly, .never⟩ -- cap ceiling
  , ⟨0x041002, [0], .rwc, 1, 1, [240], .clamp [(0, 16, 100, 240)], .immediate⟩ -- cap, host
  , ⟨0x041003, [0], .rwc, 1, 1, [240], .clamp [(0, 16, 100, 240)], .immediate⟩ -- cap, management
  , ⟨0x041004, [0], .ro, 1, 1, [240], .readOnly, .never⟩ -- cap, core
  , ⟨0x041005, [0], .ro, 1, 1, [240], .readOnly, .never⟩ -- cap in force
  , ⟨0x041006, [0], .ro, 1, 1, [0], .readOnly, .never⟩ -- estimated power
  , ⟨0x041101, [0], .rwc, 1, 1, [105], .clamp [(0, 8, 85, 105)], .immediate⟩ -- throttle temperature
  , ⟨0x041102, [0], .rwc, 1, 1, [115], .clamp [(0, 8, 95, 115)], .immediate⟩ -- trip temperature
  , ⟨0x041103, [0], .rwc, 1, 1, [94], .clamp [(0, 8, 94, 97)], .immediate⟩ -- supply warning
  , ⟨0x041104, [0], .rwc, 1, 1, [90], .clamp [(0, 8, 90, 93)], .immediate⟩ -- supply reset
  , ⟨0x041105, [0], .ro, 1, 1, [0], .readOnly, .never⟩ -- limit state
  , ⟨0x041106, [0], .ro, 16, 1, [0], .readOnly, .never⟩ -- thermal readings
  , ⟨0x041107, [0], .ro, 141, 1, [0], .readOnly, .never⟩ -- supply readings
  , ⟨0x041201, [0], .rwc, 1, 1, [0], .doze, .epoch⟩ -- doze delay
  , ⟨0x080001, [0], .priv, 2048, 1, [0xffff], .partition 0xFFFE, .epoch⟩ -- partition map
  , ⟨0x080002, [0], .priv, 1, 32, [0], .any, .epoch⟩ -- landing fences
  , ⟨0x080101, [0], .own, 512, 1, [0], .readOnly, .never⟩ -- partition records
  , ⟨0x080102, [0], .own, 512, 1, [0], .readOnly, .never⟩ -- slot shares
  , ⟨0x080103, [0], .own, 512, 1, [0], .readOnly, .never⟩ -- combining quotas
  , ⟨0x080201, [0], .priv, 1, 1, [0xffff], .partition 0xFFFF, .immediate⟩ -- kill request
  , ⟨0x080202, [0], .priv, 1, 8, [0], .readOnly, .never⟩ -- stop mask
  , ⟨0x080203, [0], .rwc, 1, 1, [0x186a0], .clamp [(0, 32, 20000, 2000000)], .epoch⟩ -- scrub timeout
  , ⟨0x080204, [0], .priv, 512, 1, [0], .readOnly, .never⟩ -- ending progress
  , ⟨0x800504, [1], .own, 1, 1, [0], .scrub, .immediate⟩ -- scrub request
  ]

/-- Objects of partitions, domains and limits (10). -/
def objs10b : List Obj :=
  [ ⟨0x802001, [2, 3, 4], .priv, 1, 1, [0], .refuse [(0, 8, 0, 2)], .immediate⟩ -- domain target
  , ⟨0x802002, [2, 3, 4], .ro, 1, 1, [0], .readOnly, .never⟩ -- domain state
  , ⟨0x802003, [2, 3, 4], .ro, 1, 1, [0], .readOnly, .never⟩ -- rejoin record
  , ⟨0x802004, [2, 3, 4], .priv, 1, 1, [0], .zero, .immediate⟩ -- refusals and discards
  ]

/-- Objects of fault collection (11). -/
def objs11 : List Obj :=
  [ ⟨0x300101, [0], .priv, 1, 4, [0], .readOnly, .never⟩ -- FIFO head
  , ⟨0x300102, [0], .priv, 1, 1, [0], .one, .immediate⟩ -- FIFO pop
  , ⟨0x300103, [0], .priv, 1, 1, [0], .readOnly, .never⟩ -- FIFO occupancy
  , ⟨0x300104, [0], .priv, 1, 1, [0], .readOnly, .never⟩ -- records dropped
  , ⟨0x300201, [0], .rwc, 1, 1, [0x30d40], .clamp [(0, 32, 20000, 20000000)], .epoch⟩ -- repeat interval
  , ⟨0x300301, [0], .priv, 1, 1, [1], .refuse [(0, 8, 0, 2)], .immediate⟩ -- FAULT_N threshold
  , ⟨0x300302, [0], .priv, 1, 1, [1], .refuse [(0, 8, 0, 2)], .immediate⟩ -- event threshold
  , ⟨0x300401, [0], .priv, 1, 4, [0], .readOnly, .never⟩ -- first fault
  , ⟨0x300402, [0], .priv, 1, 1, [0], .one, .immediate⟩ -- first-fault clear
  , ⟨0x300403, [0], .priv, 1, 4, [0], .readOnly, .never⟩ -- first fatal
  , ⟨0x300501, [0], .priv, 1, 1, [0], .readOnly, .never⟩ -- outstanding
  , ⟨0x300502, [0], .priv, 1, 1, [0], .faultPair, .immediate⟩ -- fault clear
  , ⟨0x300503, [0], .priv, 256, 1, [0], .readOnly, .never⟩ -- outstanding list
  , ⟨0x300601, [0], .priv, 1, 1, [0], .readOnly, .never⟩ -- reaction state
  , ⟨0x301001, [0], .priv, 1, 1, [0], .summary, .selector⟩ -- summary select
  , ⟨0x301002, [0], .priv, 1, 1, [0], .readOnly, .never⟩ -- summary count
  , ⟨0x302001, [1, 2, 3, 4, 5, 6], .priv, 1, 1, [0], .force, .immediate⟩ -- fault force
  , ⟨0x302101, [0], .priv, 1, 1, [0], .force, .immediate⟩ -- fault force, control
  , ⟨0x302201, [0], .priv, 1, 1, [0], .refuse [(0, 1, 0, 1)], .epoch⟩ -- test enable
  ]

/-- Objects of firmware, host and lodge (12). -/
def objs12 : List Obj :=
  [ ⟨0x043001, [0], .rwc, 1, 1, [0x77359400], .clamp [(0, 64, 20000000, 20000000000)], .immediate⟩ -- grace time
  , ⟨0x043002, [0], .rwc, 1, 1, [0x1bf08eb000], .clamp [(0, 64, 2000000000, 1200000000000)], .immediate⟩ -- hostless limit
  , ⟨0x043003, [0], .priv, 1, 1, [0], .refuse [(0, 8, 0, 1)], .immediate⟩ -- hostless policy
  , ⟨0x400001, [0], .priv, 1, 1, [1], .refuse [(0, 32, 0, 4294967295)], .immediate⟩ -- ring-set enable
  , ⟨0x400002, [0], .priv, 32, 1, [0xffff], .partition 0xFFFF, .immediate⟩ -- ring-set binding
  , ⟨0x400003, [0], .priv, 32, 1, [0], .zero, .immediate⟩ -- ring losses
  , ⟨0x400004, [0], .priv, 1, 1, [1], .refuse [(0, 1, 0, 1)], .immediate⟩ -- log ring enable
  , ⟨0x401001, [0], .wo, 2, 1, [0], .any, .immediate⟩ -- attach request
  , ⟨0x401002, [0], .priv, 1, 1, [0], .readOnly, .never⟩ -- attach result
  , ⟨0x401003, [0], .ro, 1, 1, [0], .readOnly, .never⟩ -- agreed features
  , ⟨0x401004, [0], .priv, 1, 1, [0], .one, .immediate⟩ -- detach
  , ⟨0x402001, [0], .priv, 64, 1, [0], .channel, .immediate⟩ -- channel configuration
  , ⟨0x402002, [0], .priv, 64, 1, [0], .zero, .immediate⟩ -- channel status
  , ⟨0x440001, [0], .priv, 1, 1, [0], .refuse [(0, 8, 0, 1)], .immediate⟩ -- firmware space
  , ⟨0x440002, [0], .priv, 1, 1, [0], .source, .immediate⟩ -- firmware address
  , ⟨0x440003, [0], .priv, 1, 1, [0], .refuse [(0, 1, 0, 1)], .immediate⟩ -- firmware load start
  , ⟨0x440004, [0], .ro, 1, 1, [0], .readOnly, .never⟩ -- firmware load status
  , ⟨0x440005, [0], .ro, 1, 6, [0], .readOnly, .never⟩ -- standby digest
  , ⟨0x440006, [0], .ro, 1, 1, [0], .readOnly, .never⟩ -- standby versions
  , ⟨0x440008, [0], .priv, 1, 1, [0], .one, .epoch⟩ -- firmware activate
  , ⟨0x440009, [0], .priv, 1, 6, [0], .any, .immediate⟩ -- approved digest
  , ⟨0x44000A, [0], .priv, 1, 1, [0], .zero, .immediate⟩ -- deferrals
  , ⟨0x44000B, [0], .ro, 1, 1, [0], .readOnly, .never⟩ -- last activation
  , ⟨0x440101, [0], .ro, 1, 1, [0], .readOnly, .never⟩ -- firmware state
  ]

/-- Objects of firmware, host and lodge (12). -/
def objs12b : List Obj :=
  [ ⟨0x440201, [0], .priv, 1, 1, [0], .readOnly, .never⟩ -- master-copy occupancy
  ]

/-- Objects of observation (13). -/
def objs13 : List Obj :=
  [ ⟨0x380001, [0], .priv, 1, 1, [0], .any, .epoch⟩ -- freeze time
  , ⟨0x380002, [0], .priv, 1, 1, [0], .one, .epoch⟩ -- thaw
  , ⟨0x380003, [0], .priv, 1, 1, [0], .one, .epoch⟩ -- clear
  , ⟨0x380004, [0], .ro, 1, 1, [0], .readOnly, .never⟩ -- counter state
  , ⟨0x380005, [0], .priv, 1, 1, [1], .refuse [(0, 8, 0, 1)], .epoch⟩ -- observation mode
  , ⟨0x380006, [0], .ro, 1, 1, [0], .readOnly, .never⟩ -- frozen at
  , ⟨0x381001, [1, 2, 3, 4, 5], .ctr, 1, 1, [0], .port, .selector⟩ -- counter port
  , ⟨0x381002, [1, 2, 3, 4, 5], .ctr, 8, 1, [0], .readOnly, .never⟩ -- fixed counters
  , ⟨0x381003, [1, 2, 3, 4, 5], .ctr, 4, 1, [0], .counter, .immediate⟩ -- configurations
  , ⟨0x381004, [1, 2, 3, 4, 5], .ctr, 4, 1, [0], .readOnly, .never⟩ -- programmable counters
  , ⟨0x381101, [0], .priv, 40, 1, [0], .readOnly, .never⟩ -- level totals
  , ⟨0x382001, [0], .priv, 1, 1, [0x80fe], .traceTypes, .epoch⟩ -- trace types
  , ⟨0x382002, [0], .priv, 1, 8, [0xffffffffffffffff], .any, .epoch⟩ -- trace partitions
  , ⟨0x382003, [0], .rwc, 1, 1, [2000], .clamp [(0, 32, 0, 20000000)], .epoch⟩ -- sync-wait threshold
  , ⟨0x382101, [0], .priv, 1, 1, [2], .refuse [(0, 8, 0, 2)], .immediate⟩ -- belvedere mode
  , ⟨0x382102, [0], .ro, 1, 1, [0], .readOnly, .never⟩ -- belvedere state
  , ⟨0x382103, [0], .priv, 1, 1, [0], .zero, .immediate⟩ -- belvedere records
  , ⟨0x382201, [3, 4], .priv, 1, 4, [0], .readOnly, .never⟩ -- trace head
  , ⟨0x382202, [3, 4], .priv, 1, 1, [0], .one, .immediate⟩ -- trace pop
  , ⟨0x382203, [3, 4], .priv, 1, 1, [0], .readOnly, .never⟩ -- trace occupancy
  , ⟨0x382204, [3, 4], .priv, 1, 1, [0], .zero, .immediate⟩ -- trace lost
  , ⟨0x384001, [0], .rwc, 1, 1, [0x1312d00], .clamp [(0, 32, 200000, 2000000000)], .epoch⟩ -- wait timeout
  , ⟨0x385001, [0], .own, 4096, 4, [0], .zero, .immediate⟩ -- collective counters
  , ⟨0x386001, [0], .priv, 1, 1, [0], .one, .immediate⟩ -- snapshot request
  ]

/-- Objects of observation (13). -/
def objs13b : List Obj :=
  [ ⟨0x386002, [0], .priv, 1, 1, [0], .refuse [(0, 8, 0, 1)], .immediate⟩ -- snapshot space
  , ⟨0x386003, [0], .priv, 1, 1, [0x100000], .snapAddr, .immediate⟩ -- snapshot address
  , ⟨0x386004, [0], .priv, 1, 1, [0x100000], .snapLen, .immediate⟩ -- snapshot length
  , ⟨0x386005, [0], .priv, 1, 1, [0], .readOnly, .never⟩ -- snapshot state
  , ⟨0x386006, [0], .priv, 1, 1, [0], .refuse [(0, 1, 1, 1)], .immediate⟩ -- snapshot release
  , ⟨0x386007, [0], .priv, 1, 1, [0], .zero, .immediate⟩ -- ignored triggers
  ]

/-- Objects of start-up and boundary (14). -/
def objs14 : List Obj :=
  [ ⟨0x044001, [0], .priv, 1, 1, [0], .aligned 24, .immediate⟩ -- host window base
  , ⟨0x044101, [0], .ro, 1, 1, [0], .readOnly, .never⟩ -- start-up progress
  , ⟨0x044102, [0], .ro, 141, 1, [0], .readOnly, .never⟩ -- self-test results
  , ⟨0x044103, [0], .ro, 1, 1, [0], .readOnly, .never⟩ -- build parameters
  ]

/-- Every object of the dictionary. -/
def objTable : List Obj :=
  objs03 ++ objs03b ++ objs04 ++ objs05 ++ objs05b ++ objs06 ++ objs07 ++ objs08 ++ objs09 ++ objs10 ++ objs10b ++ objs11 ++ objs12 ++ objs12b ++ objs13 ++ objs13b ++ objs14

/-- The object of an index and sub-index. -/
def findObj (id : Nat) : Option Obj := objTable.find? (fun o => o.id == id)

/-- The default of a word of an object (0 for a place of the model's own). -/
def objDefault (id row word : Nat) : Nat :=
  match findObj id with
  | some o => if word < o.words then o.dflt.getD (row * o.words + word) (o.dflt.getLastD 0) else 0
  | none => 0

/-- The key of a dictionary word: object, instance code of 09 R244, row and word. -/
def dkey (id inst row word : Nat) : Nat := ((id * 2 ^ 16 + inst) * 2 ^ 24 + row) * 16 + word

/-- The object of a key. -/
def keyId (k : Nat) : Nat := k / 2 ^ 44
/-- The instance code of a key. -/
def keyInst (k : Nat) : Nat := k / 2 ^ 28 % 2 ^ 16
/-- The row of a key. -/
def keyRow (k : Nat) : Nat := k / 16 % 2 ^ 24
/-- The word of a key. -/
def keyWord (k : Nat) : Nat := k % 16

/-- The instance code of a unit (09 R244); 0 for a unit that no prefix names. -/
def instOf : UnitId → Nat
  | .landing n => 8192 + n
  | .stair n => 2 * 8192 + n
  | .gallery n => 3 * 8192 + n
  | .hall n => 4 * 8192 + n
  | .pavilion n => 5 * 8192 + n
  | .special n => if 2051 ≤ n ∧ n ≤ 2059 then 6 * 8192 + (n - 2051) else 0
  | .chip => 0

/-- The unit of an instance code; the chip for prefix 0. -/
def unitOfInst (i : Nat) : UnitId :=
  let n := i % 4096
  match i / 8192 with
  | 1 => .landing n
  | 2 => .stair n
  | 3 => .gallery n
  | 4 => .hall n
  | 5 => .pavilion n
  | 6 => .special (2051 + n)
  | _ => .chip

end Sys2Proof.Machine
end

