-- ==== Sys2Proof/Machine/Ops.lean ====
section
/-!
DEFINITION. The named operations over the state that every meaning uses: units and times, dictionary words,
counters, free values, memories, trace records, fault occurrences, events, outputs, and the frame of a command.
-/
namespace Sys2Proof.Machine

/-! ## Units and tables -/

/-- The unit of an endpoint number (01 R20). -/
def epUnit (ep : Nat) : UnitId := if ep < 2048 then .landing ep else .special ep

/-- The head keeper. -/
def k0 : UnitId := .special 2051

/-- The sector keeper of landing `l` (00, 03 R61): endpoint 2052 plus its gallery. -/
def sectorKeeper (l : Nat) : Nat := 2052 + l / 256

def State.node (s : State) (u : UnitId) : Node := s.nodes.get {} u.code
def State.onNode (s : State) (u : UnitId) (f : Node → Node) : State := { s with nodes := s.nodes.modify {} u.code f }
def State.ep (s : State) (n : Nat) : Endpoint := s.eps.get {} n
def State.onEp (s : State) (n : Nat) (f : Endpoint → Endpoint) : State := { s with eps := s.eps.modify {} n f }
def State.tile (s : State) (l : Nat) : Tile := s.tiles.get {} l
def State.onTile (s : State) (l : Nat) (f : Tile → Tile) : State := { s with tiles := s.tiles.modify {} l f }
def State.sw (s : State) (u : UnitId) : Switch := s.switches.get {} u.code
def State.onSw (s : State) (u : UnitId) (f : Switch → Switch) : State := { s with switches := s.switches.modify {} u.code f }
def State.part (s : State) (p : Nat) : Partition := s.parts.get {} p
def State.onPart (s : State) (p : Nat) (f : Partition → Partition) : State := { s with parts := s.parts.modify {} p f }
def State.coll (s : State) (h : Nat) : Coll := s.colls.get {} h
def State.onColl (s : State) (h : Nat) (f : Coll → Coll) : State := { s with colls := s.colls.modify {} h f }
def State.pav (s : State) (p : Nat) : Pavilion := s.pavs.get {} p
def State.onPav (s : State) (p : Nat) (f : Pavilion → Pavilion) : State := { s with pavs := s.pavs.modify {} p f }
def State.dom (s : State) (d : Nat) : Domain := s.doms.get {} d
def State.onDom (s : State) (d : Nat) (f : Domain → Domain) : State := { s with doms := s.doms.modify {} d f }
def State.src (s : State) (u : UnitId) : FaultSource := s.srcs.get {} u.code
def State.onSrc (s : State) (u : UnitId) (f : FaultSource → FaultSource) : State := { s with srcs := s.srcs.modify {} u.code f }
def State.gov (s : State) (u : UnitId) : Governor := s.govs.get {} u.code
def State.onGov (s : State) (u : UnitId) (f : Governor → Governor) : State := { s with govs := s.govs.modify {} u.code f }

/-- The fabric time that a unit's island counts (01 R26). -/
def State.now (s : State) (u : UnitId) : Nat := (s.clocks.get 0 u.code).toNat

/-- The fabric time of the control domain, K0's. -/
def State.time (s : State) : Nat := s.now k0

/-! ## Outputs, free values, the frame of a command -/

/-- Drive something out of the block. -/
def State.emit (s : State) (o : Output) : State := { s with outs := s.outs ++ [o] }

/-- Draw a free value (log entry 4). -/
def State.fresh (s : State) (w : Nat) : BitVec w × State := (Config.freeBits w s.free, { s with free := s.free + 1 })

/-- What no command but a reset or its release touches: the queue, the build, and whether the block is held in reset. -/
def State.framed (s t : State) : State :=
  { t with pending := s.pending, build := s.build, boot := { t.boot with inReset := s.boot.inReset } }

/-- The frame of every command: while the block is held in reset every input is ignored (14 R350); otherwise the
command starts with nothing driven out. -/
def up (s : State) (f : State → State) : Host.Outcome State Fault Refusal :=
  .next (if s.boot.inReset then { s with outs := [] } else s.framed (f { s with outs := [] }))

/-- The frame of a command that acts only while a guard holds; otherwise it drives nothing and changes nothing
(log entry 6). -/
def upWhen (s : State) (g : State → Bool) (f : State → State) : Host.Outcome State Fault Refusal :=
  up s (fun s => if g s then f s else s)

/-! ## Dictionary words -/

/-- The committed value of an object word (09 R254). -/
def State.word (s : State) (id inst row word : Nat) : Nat :=
  match s.dict.find (dkey id inst row word) with
  | some v => v.toNat
  | none => objDefault id row word

/-- The committed value of a single-word object without rows and instances. -/
def State.val (s : State) (id : Nat) : Nat := s.word id 0 0 0

/-- Set an object word; a word equal to its default is not listed. -/
def State.setWord (s : State) (id inst row word v : Nat) : State :=
  let k := dkey id inst row word
  { s with dict := if v = objDefault id row word then s.dict.del k else s.dict.put k (BitVec.ofNat 64 v) }

/-- Set a single-word object. -/
def State.setVal (s : State) (id v : Nat) : State := s.setWord id 0 0 0 v

/-- Add to the count in bits `lo` to `lo + w - 1` of an object word. Past the count's width the spec states no
result, and the field takes a free value (log entry 5). -/
def State.bump (s : State) (id inst row word lo w n : Nat) : State :=
  let v := s.word id inst row word
  let f := bitsAt v lo w
  if f + n < 2 ^ w then s.setWord id inst row word (v + n * 2 ^ lo)
  else
    let r := s.fresh w
    r.2.setWord id inst row word (v - f * 2 ^ lo + r.1.toNat * 2 ^ lo)

/-- The slot-table entry of an output port (03 R65). -/
def State.slotEntry (s : State) (u : UnitId) (port t : Nat) : Nat :=
  match s.dict.find (dkey 0x182003 (instOf u) (port * 4096 + t % 4096) 0) with
  | some v => v.toNat
  | none => 0

/-- The owner of a slot-table entry, none for 0; kept in word 1 (03 R68). -/
def State.slotOwner (s : State) (u : UnitId) (port idx : Nat) : Option Nat :=
  match s.dict.find (dkey 0x182003 (instOf u) (port * 4096 + idx) 1) with
  | some v => if v.toNat = 0 then none else some (v.toNat - 1)
  | none => none

/-- This chip's number (0x1010:02). -/
def State.chipNo (s : State) : Nat := s.mach.chipNo.getD 0

/-- The global address of a local endpoint (01 R21). -/
def State.addrOf (s : State) (ep : Nat) : BitVec 24 := BitVec.ofNat 24 (s.chipNo * 4096 + ep)

/-- The chip of a global address. -/
def chipOf (a : BitVec 24) : Nat := a.toNat / 4096
/-- The local endpoint of a global address. -/
def localOf (a : BitVec 24) : Nat := a.toNat % 4096

/-- The partition of landing `l` in the committed map (10): 0 to 511, or 0xFFFE, 0xFFFF. -/
def State.partOf (s : State) (l : Nat) : Nat := s.word 0x080001 0 l 0

/-- The partition that the packets of an endpoint carry: its landing's, or the service partition (01 R33). -/
def State.epPart (s : State) (ep : Nat) : Nat := if ep < 2048 then s.partOf ep else 1023

/-- Whether a landing is fenced (0x0800:02). -/
def State.fenced (s : State) (l : Nat) : Bool := (s.word 0x080002 0 0 (l / 64)).testBit (l % 64)

/-! ## Memories -/

/-- The canonical form of lodge SRAM: addresses strictly rising, and no byte that an unlisted address reads as. -/
def Memory.wf (m : Memory) : Bool := FMap.sorted m && m.all (fun x => x.2 != 0#8)

/-- The canonical form of a scratchpad, where an unlisted address reads as no value: addresses strictly rising. -/
def Memory.padWf (m : Memory) : Bool := FMap.sorted m

/-- The byte at an address of lodge SRAM: what nothing lists is 0 (14 R352). -/
def sramByte (m : Memory) (a : Nat) : Byte := FMap.get 0#8 m a

/-- Write a byte of lodge SRAM, keeping the canonical form. -/
def sramPut (m : Memory) (a : Nat) (b : Byte) : Memory := if b = 0#8 then FMap.del m a else FMap.put m a b

/-- Write bytes of lodge SRAM from an address upward. -/
def sramWrite : Memory → Nat → List Byte → Memory
  | m, _, [] => m
  | m, a, b :: bs => sramWrite (sramPut m a b) (a + 1) bs

/-- `n` bytes of lodge SRAM from an address. -/
def sramRead (m : Memory) (a n : Nat) : List Byte := (List.range n).map (fun i => sramByte m (a + i))

/-- A little-endian value of `n` bytes in lodge SRAM (00 R8). -/
def sramVal (m : Memory) (a n : Nat) : Nat := ofBytes (sramRead m a n)

/-- The byte that arrival writes left at a scratchpad address; none where nothing was written. -/
def padByte (m : Memory) (a : Nat) : Option Byte := FMap.find m a

/-- Write bytes of a scratchpad from an address upward. -/
def padWrite : Memory → Nat → List Byte → Memory
  | m, _, [] => m
  | m, a, b :: bs => padWrite (FMap.put m a b) (a + 1) bs

/-! ## Domains -/

/-- The stair of a landing, the gallery of a stair. -/
def stairOf (l : Nat) : Nat := l / 16

/-- The switchable domain of a unit, in SUP_CODE order (01 R35, 14 R362): stairs 0 to 127, galleries from 128, halls
from 136; none for the control domain. -/
def domainOf : UnitId → Option Nat
  | .landing l => some (stairOf l)
  | .stair n => some n
  | .gallery g => some (128 + g)
  | .hall h => some (136 + h)
  | .pavilion p => some (136 + p / 4)
  | .special _ => none
  | .chip => none

/-- The switch that a domain is named after. -/
def domainUnit (d : Nat) : UnitId := if d < 128 then .stair d else if d < 136 then .gallery (d - 128) else .hall (d - 136)

/-- The state of a unit's domain; the control domain is ACTIVE (01 R35). -/
def State.domState (s : State) (u : UnitId) : DomState :=
  match domainOf u with
  | some d => (s.dom d).st
  | none => .active

/-- Whether a unit's islands run: its domain is ACTIVE, in DOZE or going down, and no supply holds it in reset. -/
def State.running (s : State) (u : UnitId) : Bool :=
  match domainOf u with
  | none => true
  | some d =>
    let x := s.dom d
    !x.supplyReset && (x.st == .active || x.st == .doze || x.st == .goingDown || x.st == .rejoining)

/-- Whether a service-tree access to a unit ends "target asleep" (01 R31): its domain is in SLEEP, or passing into or
out of it. -/
def State.asleep (s : State) (u : UnitId) : Bool := !(s.domState u == .active || s.domState u == .doze)

/-- Drive an output of a landing's tile port: the isolation cells hold it at its unpowered level while the domain is going down,
asleep, waking or rejoining (14 R355). Rows read and written go on while a domain goes down (log entry 148). -/
def State.tpOut (s : State) (l : Nat) (o : Output) : State := if s.asleep (.landing l) then s else s.emit o

/-! ## Counters (13) -/

/-- The counters of a port. -/
def State.ctrs (s : State) (u : UnitId) (port : Nat) : PortCtrs := s.obs.ctrs.get {} (u.code * 256 + port)

/-- Change the counters of a port. -/
def State.onCtrs (s : State) (u : UnitId) (port : Nat) (f : PortCtrs → PortCtrs) : State :=
  { s with obs := { s.obs with ctrs := s.obs.ctrs.modify {} (u.code * 256 + port) f } }

/-- Whether a fixed counter counts: no freeze has fired, and in production mode only the always-on set counts
(13 R334, R335). -/
def State.counting (s : State) (i : Nat) : Bool :=
  s.obs.ctrState != 2 && (s.val 0x380005 == 1 || [0, 2, 3, 4].contains i)

/-- Add to fixed counter `i` of a port, modulo 2^48 (13 R331). -/
def State.count (s : State) (u : UnitId) (port i n : Nat) : State :=
  if s.counting i ∧ n ≠ 0 then
    s.onCtrs u port (fun c => { c with fixed := c.fixed.modify 0 i (fun v => (v + n) % 2 ^ 48) })
  else s

/-- Whether a configuration word counts an event of a partition and a VC field (13 R333). -/
def progCounts (cfg : BitVec 32) (ev part vc reason : Nat) : Bool :=
  let c := cfg.toNat
  bitsAt c 26 6 == ev && ev != 0 &&
    ((ev == 0x09 || ev == 0x0C) ||
      ((!c.testBit 25 || bitsAt c 15 10 == part) && (!c.testBit 14 || bitsAt c 11 3 == vc))) &&
    (ev != 1 || bitsAt c 7 4 == reason)

/-- Count a programmable event at a port (13 R333, R334). -/
def State.event (s : State) (u : UnitId) (port ev part vc reason n : Nat) : State :=
  if s.obs.ctrState != 2 && s.val 0x380005 == 1 && n != 0 then
    let c := s.ctrs u port
    if (List.range 4).any (fun i => progCounts (c.cfg.get 0 i) ev part vc reason) then
      s.onCtrs u port (fun c => { c with
        prog := (List.range 4).foldl (fun m i => if progCounts (c.cfg.get 0 i) ev part vc reason
          then m.modify 0 i (fun v => (v + n) % 2 ^ 48) else m) c.prog })
    else s
  else s

/-! ## Trace (13 R339 to R342) -/

/-- Whether records of a type and partition are made (13 R340). -/
def State.traces? (s : State) (type part : Nat) : Bool :=
  type == 0x0F || ((s.val 0x382001).testBit type &&
    (part == 1023 || (s.word 0x382002 0 0 (part / 64)).testBit (part % 64)))

/-- Queue a trace record in a source's outbox of 4; a full outbox counts it as lost (13 R340, R342). -/
def State.trace (s : State) (u : UnitId) (type part time body : Nat) : State :=
  if s.traces? type part then
    let o := s.obs.traces.get {} u.code
    let o' :=
      if o.recs.length < 4 then
        { o with recs := o.recs ++ [traceRecord type u.level u.inst part time body]
                 since := if o.recs.isEmpty then s.now u else o.since }
      else { o with lost := o.lost + 1, lostAt := if o.lost = 0 then time else o.lostAt }
    { s with obs := { s.obs with traces := s.obs.traces.put u.code o' } }
  else s

/-- The record of a discarded packet (13 R339, type 0x05). -/
def State.traceDrop (s : State) (u : UnitId) (port cause : Nat) (h : Header) : State :=
  s.trace u 0x05 h.part.toNat (s.now u)
    (port % 256 * 2 ^ 144 + cause * 2 ^ 136 + h.stream.toNat * 2 ^ 119 + h.seq.toNat * 2 ^ 103 + h.src.toNat * 2 ^ 79 +
      h.dst.toNat * 2 ^ 55 + h.command.toNat * 2 ^ 47)

/-- A header discarded as stale (02 R54 check 8; 09 R264). -/
def State.staleAt (s : State) (u : UnitId) (port : Nat) (h : Header) : State :=
  let s := { s with ctl := { s.ctl with staleInWindow := s.ctl.staleInWindow + 1 } }
  ((s.bump 0x00000C 0 0 0 0 24 1).event u port 0x08 h.part.toNat (vcOf h) 0 1).traceDrop u port 1 h

/-- Whether the belvedere streams (13 R343). -/
def State.streaming (s : State) : Bool :=
  s.obs.bvReady && !s.boot.requested && (s.val 0x382101 == 1 || (s.val 0x382101 == 2 &&
    (s.fw.st == .rom || s.fw.st == .ready || s.fw.st == .refused || s.val 0x302201 == 1 || s.react.st != 0 ||
      s.doms.any (fun d => d.2.st == .rejoining) || s.parts.any (fun p => p.2.st == .ending))))

/-- The body of a LOSS record (13 R339): the records lost and the time of the first loss. -/
def lossBody (n at_ : Nat) : Nat := min n (2 ^ 32 - 1) * 2 ^ 120 + at_ * 2 ^ 56

/-- The belvedere marks its losses before any new record (13 R342). -/
def State.bvMark (s : State) : State :=
  let o := s.obs
  if o.bvLost = 0 ∨ 2048 ≤ o.bvQueue.length then s
  else
    let x := traceRecord 0x0F 5 2060 1023 s.time (lossBody o.bvLost o.bvLostAt)
    { s with obs := { o with bvQueue := o.bvQueue ++ [x], bvLost := 0 } }

/-- Records that the belvedere loses (13 R342, R343). -/
def State.bvLose (s : State) (n : Nat) : State :=
  if n = 0 then s
  else
    let o := s.obs
    ({ s with obs := { o with bvLost := o.bvLost + n, bvLostAt := if o.bvLost = 0 then s.time else o.bvLostAt } }).bump
      0x382103 0 0 0 40 24 n

/-- A record enters the belvedere's queue of 2,048 (13 R343). -/
def State.bvPut (s : State) (r : BitVec 256) : State :=
  let s := s.bvMark
  if s.obs.bvQueue.length < 2048 then { s with obs := { s.obs with bvQueue := s.obs.bvQueue ++ [r] } } else s.bvLose 1

/-- Scramble 64 bits, the lowest first, by x^58 + x^39 + 1 (13 R344). -/
def scramble (x : BitVec 58) (d : BitVec 64) : BitVec 58 × BitVec 64 :=
  (List.range 64).foldl (fun (a : BitVec 58 × BitVec 64) i =>
    let b := (d.getLsbD i ^^ a.1.getLsbD 38) ^^ a.1.getLsbD 57
    ((a.1 <<< 1) ||| (BitVec.ofBool b).setWidth 58, a.2 ||| ((BitVec.ofBool b).setWidth 64 <<< i))) (x, 0#64)

/-- The belvedere at a slot boundary (13 R344): a block on every lane each 33/8 slots while it streams, the records in
order; a control block after 2,048 data blocks or where no record waits. The phase of its clock against the slots is
the model's (log entry 31). -/
def State.bvSlot (s : State) (t : Nat) : State :=
  if !s.streaming || 8 * t / 33 == 8 * (t - 1) / 33 then s
  else
    let o := s.obs
    let lane (d : Nat → BitVec 64) (sync : BitVec 2) : List (BitVec 58) × List (BitVec 66) :=
      let r := (List.range 4).map (fun k => scramble (o.bvScr.getD k 0) (d k))
      (r.map (·.1), r.map (fun (x : BitVec 58 × BitVec 64) => sync ++ x.2))
    match o.bvQueue with
    | r :: q =>
      if o.bvRun < 2048 then
        let x := lane (fun k => BitVec.ofNat 64 (bitsAt r.toNat (64 * k) 64)) 1#2
        let s := { s with obs := { o with bvQueue := q, bvRun := o.bvRun + 1, bvScr := x.1 } }
        ((s.bump 0x382103 0 0 0 0 40 1).bvMark).emit (.bvBlocks x.2)
      else
        let x := lane (fun k => BitVec.ofNat 64 (0x1E + k * 2 ^ 8 + t % 2 ^ 48 * 2 ^ 16)) 2#2
        ({ s with obs := { o with bvRun := 0, bvScr := x.1 } }).emit (.bvBlocks x.2)
    | [] =>
      let x := lane (fun k => BitVec.ofNat 64 (0x1E + k * 2 ^ 8 + t % 2 ^ 48 * 2 ^ 16)) 2#2
      (({ s with obs := { o with bvRun := 0, bvScr := x.1 } }).bvMark).emit (.bvBlocks x.2)

/-! ## Fault occurrences (11 R291 to R295) -/

/-- A kind of the kinds table: code, source levels, class, and whether K0 reacts (11 R293). -/
structure FaultKind where
  code : Nat
  levels : List Nat
  cls : Nat
  k0 : Bool
deriving DecidableEq, Repr

/-- The kinds table (11 R293), first part. -/
def faultKindsA : List FaultKind :=
  [ ⟨0x001, [0, 1, 2, 3, 4, 5], 0, false⟩, ⟨0x002, [0, 1, 2, 3, 4, 5], 1, false⟩, ⟨0x003, [0, 1, 2, 3, 4, 5], 0, false⟩
  , ⟨0x004, [0, 1, 2, 3, 4], 1, false⟩, ⟨0x005, [1, 2, 3, 4], 1, false⟩, ⟨0x006, [0], 1, false⟩
  , ⟨0x007, [0, 1, 2, 3, 4, 5], 0, false⟩, ⟨0x008, [0, 1, 2, 3, 4], 1, false⟩, ⟨0x009, [4], 1, false⟩
  , ⟨0x00A, [1, 2, 3], 1, false⟩, ⟨0x020, [0], 0, false⟩, ⟨0x021, [0], 1, false⟩, ⟨0x022, [0], 1, false⟩
  , ⟨0x023, [0], 1, false⟩, ⟨0x024, [0], 1, false⟩, ⟨0x025, [0], 1, true⟩, ⟨0x026, [0], 1, true⟩
  , ⟨0x040, [0, 1, 2, 3], 0, false⟩, ⟨0x041, [0, 1, 2, 3], 1, false⟩, ⟨0x042, [1, 2, 3], 0, false⟩ ]

/-- The kinds table (11 R293), second part. -/
def faultKindsB : List FaultKind :=
  [ ⟨0x043, [0, 1, 2, 3], 1, false⟩, ⟨0x044, [1, 2, 3], 1, false⟩, ⟨0x060, [4], 0, false⟩, ⟨0x061, [4], 1, false⟩
  , ⟨0x062, [4], 0, false⟩, ⟨0x080, [6], 1, true⟩, ⟨0x081, [6], 1, true⟩, ⟨0x082, [6], 1, true⟩
  , ⟨0x083, [6], 1, true⟩, ⟨0x084, [6], 1, false⟩, ⟨0x085, [5], 1, false⟩, ⟨0x0A0, [1, 2, 3, 6], 0, false⟩
  , ⟨0x0A1, [1, 2, 3], 1, true⟩, ⟨0x0A2, [6], 2, true⟩, ⟨0x0A3, [6], 0, false⟩, ⟨0x0A4, [6], 2, true⟩
  , ⟨0x0A5, [6], 0, false⟩, ⟨0x0C0, [5], 0, false⟩, ⟨0x0C1, [5], 2, true⟩, ⟨0x0C2, [5], 0, false⟩
  , ⟨0x0C3, [5], 2, true⟩, ⟨0x0E0, [6], 1, false⟩, ⟨0x0E1, [6], 1, false⟩ ]

/-- The kinds table (11 R293). -/
def faultKinds : List FaultKind := faultKindsA ++ faultKindsB

/-- The row of a kind. -/
def findKind (k : Nat) : Option FaultKind := faultKinds.find? (fun f => f.code == k)

/-- The class of a kind: 0 corrected, 1 contained, 2 fatal. -/
def kindClass (k : Nat) : Nat := ((findKind k).map (·.cls)).getD 1

/-- Whether a pool slot of the pair exists. -/
def poolSlot (f : FaultSource) (kind part : Nat) : Option Nat :=
  (List.range 16).find? (fun i => let x := f.slots.get {} (1024 + i); x.active && x.kind == kind && x.part == part)

/-- The suppression slot of an occurrence (11 R294): a corrected kind's own slot; a pool slot of the pair of kind and
partition; or the kind's overflow slot. -/
def slotFor (f : FaultSource) (kind part : Nat) : Nat :=
  if kindClass kind = 0 then kind
  else match poolSlot f kind part with
    | some i => 1024 + i
    | none => match (List.range 16).find? (fun i => !(f.slots.get {} (1024 + i)).active) with
      | some i => 1024 + i
      | none => 2048 + kind

/-- The same message with another repeat count. -/
def withRepeat (m : BitVec 128) (n : Nat) : BitVec 128 := BitVec.ofNat 128 (m.toNat / 64 * 64 + n % 64)

/-- The occurrences that a message counts. -/
def messageCount (m : BitVec 128) : Nat := if fmRepeat m = 0 then 1 else fmRepeat m

/-- Replace the newest queued message of a class by a fatal one; its count returns to its slot (11 R295). -/
def displace (f : FaultSource) (cls : Nat) (m : BitVec 128) : Option FaultSource :=
  match f.outbox.reverse.find? (fun x => fmClass x == cls) with
  | none => none
  | some old =>
    let i := f.outbox.length - 1 - f.outbox.reverse.findIdx (fun x => fmClass x == cls)
    let k := slotFor f (fmKind old) (fmPart old)
    some { f with outbox := f.outbox.set i m
                  slots := f.slots.modify {} k (fun x => { x with count := x.count + messageCount old }) }

/-- One occurrence at a source (11 R294, R295): the message, the time now and the repeat interval. -/
def occur (f : FaultSource) (m : BitVec 128) (now interval : Nat) : FaultSource :=
  let kind := fmKind m; let part := fmPart m
  let k := slotFor f kind part
  let x := f.slots.get {} k
  let started : Slot := if x.active then x else
    { kind := kind, part := part, pool := 1024 ≤ k ∧ k < 2048, active := true, count := 0, timer := now + interval
      latest := m, waiting := x.waiting }
  if fmClass m = 2 then
    if f.outbox.length < 8 then { f with outbox := f.outbox ++ [m], slots := f.slots.put k started }
    else
      let f := { f with slots := f.slots.put k started }
      match displace f 0 m with
      | some g => g
      | none => match displace f 1 m with
        | some g => g
        | none => { f with slots := f.slots.modify {} k (fun x =>
            if x.waiting.isSome then { x with count := x.count + 1, latest := m } else { x with waiting := some m }) }
  else if x.active then
    let n := x.count + 1
    if n ≥ 63 ∧ f.outbox.length < 8 then
      { f with outbox := f.outbox ++ [withRepeat m 63]
               slots := f.slots.put k { x with count := n - 63, latest := m, timer := now + interval } }
    else { f with slots := f.slots.put k { x with count := n, latest := m } }
  else if f.outbox.length < 8 then { f with outbox := f.outbox ++ [m], slots := f.slots.put k started }
  else { f with slots := f.slots.put k { started with count := 1 } }

/-- Whether the level of a source lists a kind; a source raises no other (11 R293). -/
def lists (u : UnitId) (kind : Nat) : Bool := (findKind kind).any (fun f => f.levels.contains u.level)

/-- Raise a fault: `holder` holds the slots and the outbox, `u` is the source that the message names. -/
def State.raiseFor (s : State) (holder u : UnitId) (sub kind part ctx : Nat) : State :=
  let t := if holder = .chip then s.time else s.now holder
  if !lists u kind then s
  else s.onSrc holder (fun f => occur f (faultMessage u.level u.inst sub kind (kindClass kind) part t ctx 0) t (s.val 0x300201))

/-- Raise a fault of a unit's own (11 R294). -/
def State.raise (s : State) (u : UnitId) (sub kind part ctx : Nat) : State := s.raiseFor u u sub kind part ctx

/-- Discard a packet under 00 R10: count it and send a corrected malformed-packet record. -/
def State.malformed (s : State) (u : UnitId) (port : Nat) (h : Header) : State :=
  ((s.event u port 0x07 h.part.toNat (vcOf h) 0 1).traceDrop u port 9 h).raise u 1 0x003 h.part.toNat (ctxPacket port h)

/-! ## Events (12 R323, R325) -/

/-- Whether a ring set is enabled (0x4000:01). -/
def State.ringOn (s : State) (set : Nat) : Bool := (s.val 0x400001).testBit set

/-- Entries of ring `r` of a set, and its base, as K0 read them. -/
def State.ring (s : State) (set r : Nat) : Nat × Nat := s.lodge.rings.get (0, 0) (set * 4 + r)

/-- The producer index of ring `r` of a set. -/
def State.producer (s : State) (set r : Nat) : Nat := sramVal s.lodge.sram (64 * set + 16 * r + 4) 4
/-- The consumer index of ring `r` of a set. -/
def State.consumer (s : State) (set r : Nat) : Nat := sramVal s.lodge.sram (64 * set + 16 * r) 4

/-- Whether a ring is full (12 R323). -/
def State.ringFull (s : State) (set r : Nat) : Bool :=
  (s.producer set r + 2 ^ 32 - s.consumer set r) % 2 ^ 32 == 2 ^ (s.ring set r).2

/-- Write bytes of lodge SRAM. -/
def State.sramSet (s : State) (a : Nat) (bs : List Byte) : State :=
  { s with lodge := { s.lodge with sram := sramWrite s.lodge.sram a bs } }

/-- Put an entry into ring `r` of a set and advance its producer index (12 R323). -/
def State.ringPut (s : State) (set r bytes v : Nat) : State :=
  let p := s.producer set r
  let d := s.ring set r
  (s.sramSet (d.1 + p % 2 ^ d.2 * bytes) (bytesOf bytes v)).sramSet (64 * set + 16 * r + 4) (bytesOf 4 ((p + 1) % 2 ^ 32))

/-- One event entry (12 R325). -/
def eventEntry (time code seq data : Nat) : Nat :=
  time % 2 ^ 64 * 2 ^ 192 + code % 2 ^ 16 * 2 ^ 176 + seq % 2 ^ 32 * 2 ^ 128 + data % 2 ^ 128

/-- Post one entry to a set's event ring that has room. -/
def State.eventPut (s : State) (set code data : Nat) : State :=
  let q := s.lodge.eventSeq.get 0 set
  let s := s.ringPut set 2 32 (eventEntry s.time code q.toNat data)
  { s with lodge := { s.lodge with eventSeq := s.lodge.eventSeq.put set (q + 1) } }

/-- An event that finds the ring full is dropped and counted (12 R325). -/
def State.eventLost (s : State) (set : Nat) : State :=
  let s := s.bump 0x400003 0 set 0 16 16 1
  { s with lodge := { s.lodge with lostEvents := s.lodge.lostEvents.modify 0 set (· + 1) } }

/-- Post an event to one set: event 0x000C goes first when events were lost and there is room again (12 R325). -/
def State.postTo (s : State) (set code data : Nat) : State :=
  if !s.ringOn set || (s.lodge.rings.find (set * 4 + 2)).isNone then s
  else if s.ringFull set 2 then s.eventLost set
  else
    let n := s.lodge.lostEvents.get 0 set
    if n = 0 then s.eventPut set code data
    else
      let s := s.eventPut set 0x000C n
      let s := { s with lodge := { s.lodge with lostEvents := s.lodge.lostEvents.del set } }
      if s.ringFull set 2 then s.eventLost set else s.eventPut set code data

/-- Post an event: to set 0, and where it concerns one partition to the sets bound to it (12 R325). -/
def State.post (s : State) (code : Nat) (part : Option Nat) (data : Nat) : State :=
  let s := s.postTo 0 code data
  match part with
  | none => s
  | some p => (List.range 32).foldl (fun s i =>
      if i ≠ 0 ∧ s.word 0x400002 0 i 0 = p then s.postTo i code data else s) s

/-- The end of a firmware change-over, 20,000 slots after its epoch (12 R320): the standby image runs, its version and
digest are published, and event 0x0004 tells it. -/
def State.finishChange (s : State) (t : Nat) : State :=
  match s.fw.changing with
  | none => s
  | some e =>
    if t < e + 20000 then s
    else
      let f := s.fw
      let s := { s with fw := { f with changing := none, running := f.standby, standby := f.running, status := 0, activatedAt := e } }
      s.post 0x0004 none (match s.fw.running with
        | some i => i.version.toNat + i.iface.toNat * 2 ^ 32
        | none => 0)

end Sys2Proof.Machine
end

