-- ==== Sys2Proof/Machine/Arith.lean ====
section
/-!
DEFINITION. Combining arithmetic (06): formats, exact accumulators, final rounding, selection, bitwise and count
operations, ARGMAX and ARGMIN pairs, the log-sum-exp fold, ROUNDED carries, images, and the units of a result.
-/
namespace Sys2Proof.Machine

/-! ## Formats (06 R142, R143) -/

/-- An element format: bytes, exponent bits, fraction bits, scale (06 R142); integer formats have no exponent. -/
structure Fmt where
  code : Nat
  bytes : Nat
  eb : Nat
  fb : Nat
  scale : Nat
  /-- encodings of the largest finite value and of the canonical NaN -/
  top : Nat
  nan : Nat
deriving DecidableEq, Repr

/-- The formats, by code. -/
def fmts : List Fmt :=
  [ ⟨0, 1, 0, 0, 0, 127, 0⟩, ⟨1, 2, 0, 0, 0, 32767, 0⟩, ⟨2, 4, 0, 0, 0, 2147483647, 0⟩
  , ⟨3, 1, 4, 3, 9, 0x7E, 0x7F⟩, ⟨4, 1, 5, 2, 16, 0x7B, 0x7E⟩, ⟨5, 2, 5, 10, 24, 0x7BFF, 0x7E00⟩
  , ⟨6, 2, 8, 7, 133, 0x7F7F, 0x7FC0⟩, ⟨7, 4, 8, 23, 149, 0x7F7FFFFF, 0x7FC00000⟩ ]

/-- The format of a code. -/
def fmtOf (c : Nat) : Fmt := fmts.getD c ⟨0, 1, 0, 0, 0, 127, 0⟩

/-- Whether a format is an integer format. -/
def Fmt.isInt (f : Fmt) : Bool := f.eb == 0

/-- An element as a number: NaN, an infinity, or a sign and an integer multiple of 2^-scale. -/
inductive Num where
  | nan
  | inf (neg : Bool)
  | fin (neg : Bool) (a : Int)
deriving DecidableEq, Repr

/-- A two's-complement value of `w` bits. -/
def signedOf (w v : Nat) : Int := if v % 2 ^ w < 2 ^ (w - 1) then (v % 2 ^ w : Nat) else (v % 2 ^ w : Nat) - (2 ^ w : Nat)

/-- The pattern of a two's-complement value in `w` bits. -/
def patternOf (w : Nat) (a : Int) : Nat := (a % ((2 ^ w : Nat) : Int)).toNat

/-- The number that an encoding stands for (06 R142, R143). -/
def decodeNum (f : Fmt) (v : Nat) : Num :=
  if f.isInt then (let a := signedOf (8 * f.bytes) v; .fin (a < 0) a)
  else
    let neg := v.testBit (8 * f.bytes - 1)
    let e := bitsAt v f.fb f.eb
    let m := bitsAt v 0 f.fb
    let special := e + 1 = 2 ^ f.eb
    if f.code = 3 then
      (if special ∧ m = 7 then .nan
       else let a : Nat := if e = 0 then m else (2 ^ f.fb + m) * 2 ^ (e - 1)
            .fin neg (if neg then -(a : Int) else a))
    else if special then (if m = 0 then .inf neg else .nan)
    else
      let a : Nat := if e = 0 then m else (2 ^ f.fb + m) * 2 ^ (e - 1)
      .fin neg (if neg then -(a : Int) else a)

/-- The number of bits of a natural number, at most `n`. -/
def bitLen (n v : Nat) : Nat := match n with
  | 0 => 0
  | n + 1 => if v = 0 then 0 else bitLen n (v / 2) + 1

/-- `m / 2^sh` rounded to nearest, ties to even. -/
def rneShift (m sh : Nat) : Nat :=
  let q := m / 2 ^ sh
  let r := m % 2 ^ sh
  if sh = 0 then q
  else if r > 2 ^ (sh - 1) ∨ (r = 2 ^ (sh - 1) ∧ q % 2 = 1) then q + 1 else q

/-- The sign bit of an encoding. -/
def signBit (f : Fmt) (neg : Bool) : Nat := if neg then 2 ^ (8 * f.bytes - 1) else 0

/-- An infinity of a format. -/
def infOf (f : Fmt) (neg : Bool) : Nat := signBit f neg + (2 ^ f.eb - 1) * 2 ^ f.fb

/-- A non-zero multiple of 2^-`scale` rounded onto the grid of a format (06 R149): the encoding and OVERFLOW. -/
def roundNum (f : Fmt) (scale : Nat) (a : Int) : Nat × Bool :=
  let m := a.natAbs
  let neg : Bool := a < 0
  let base := scale - f.scale
  let sh := Nat.max (bitLen 1024 m - (f.fb + 1)) base
  let enc := rneShift m sh + (sh - base) * 2 ^ f.fb
  if enc ≤ f.top then (signBit f neg + enc, false)
  else if f.code = 3 then (signBit f neg + f.top, true)
  else (infOf f neg, true)

/-! ## Sums (06 R146 to R150) -/

/-- Flag byte of an EXACT image (06 R147). -/
def flagNan : BitVec 8 := 1#8
/-- POS_INF. -/
def flagPosInf : BitVec 8 := 2#8
/-- NEG_INF. -/
def flagNegInf : BitVec 8 := 4#8
/-- PLUS. -/
def flagPlus : BitVec 8 := 8#8

/-- An ELEMENT input of a SUM: its integer at scale `scale` and its flags (06 R148). -/
def sumInput (f : Fmt) (scale v : Nat) : Acc :=
  match decodeNum f v with
  | .nan => .sum 0 (flagNan ||| flagPlus)
  | .inf neg => .sum 0 ((if neg then flagNegInf else flagPosInf) ||| flagPlus)
  | .fin neg a => .sum (a * ((2 ^ (scale - f.scale) : Nat) : Int)) (if f.isInt ∨ (neg ∧ a = 0) then 0 else flagPlus)

/-- Result flags of a handle (06 R175). -/
structure Flags where
  nan : Bool := false
  inf : Bool := false
  sat : Bool := false
  overflow : Bool := false
  empty : Bool := false
deriving DecidableEq, Repr

/-- OR of two sets of result flags. -/
def Flags.or (a b : Flags) : Flags :=
  { nan := a.nan || b.nan, inf := a.inf || b.inf, sat := a.sat || b.sat, overflow := a.overflow || b.overflow
    empty := a.empty || b.empty }

/-- The flag byte of a row of 0x2010:01. -/
def Flags.byte (a : Flags) (rounded root degraded : Bool) : Nat :=
  let b (x : Bool) (n : Nat) : Nat := if x then 2 ^ n else 0
  b rounded 7 + b root 6 + b degraded 5 + b a.empty 4 + b a.overflow 3 + b a.sat 2 + b a.inf 1 + b a.nan 0

/-- The result of a SUM (06 R148 to R150). -/
def sumResult (f : Fmt) (scale : Nat) (wrap : Bool) (a : Int) (fl : BitVec 8) : Nat × Flags :=
  if f.isInt then
    let w := 8 * f.bytes
    let hi : Int := ((2 ^ (w - 1) : Nat) : Int) - 1
    let lo : Int := -((2 ^ (w - 1) : Nat) : Int)
    if lo ≤ a ∧ a ≤ hi then (patternOf w a, {})
    else if wrap then (patternOf w a, {})
    else (patternOf w (if a < lo then lo else hi), { sat := true })
  else if fl &&& flagNan ≠ 0 ∨ (fl &&& flagPosInf ≠ 0 ∧ fl &&& flagNegInf ≠ 0) then (f.nan, { nan := true })
  else if fl &&& flagPosInf ≠ 0 then (infOf f false, { inf := true })
  else if fl &&& flagNegInf ≠ 0 then (infOf f true, { inf := true })
  else if a = 0 then (signBit f (fl &&& flagPlus == 0), {})
  else
    let r := roundNum f scale a
    (r.1, { overflow := r.2, inf := r.2 && f.code != 3 })

/-- A ROUNDED carry: an FP32 encoding by round-to-odd, from scale 149 (06 R159). -/
def carryOf (a : Int) (fl : BitVec 8) : Nat :=
  let f := fmtOf 7
  if fl &&& flagNan ≠ 0 ∨ (fl &&& flagPosInf ≠ 0 ∧ fl &&& flagNegInf ≠ 0) then f.nan
  else if fl &&& flagPosInf ≠ 0 then infOf f false
  else if fl &&& flagNegInf ≠ 0 then infOf f true
  else if a = 0 then signBit f (fl &&& flagPlus == 0)
  else
    let m := a.natAbs
    let sh := bitLen 1024 m - 24
    let q := m / 2 ^ sh
    let q := if m % 2 ^ sh ≠ 0 ∧ q % 2 = 0 then q + 1 else q
    signBit f (a < 0) + Nat.min (q + sh * 2 ^ 23) 0x7F7FFFFF

/-! ## Selection, bitwise, count (06 R151, R152) -/

/-- The order of MAX and MIN on numbers that are not NaN: -0 below +0 (06 R151). -/
def numKey (scale : Nat) (n : Num) : Int :=
  match n with
  | .nan => 0
  | .inf neg => if neg then -((2 ^ 1200 : Nat) : Int) else ((2 ^ 1200 : Nat) : Int)
  | .fin neg a => 2 * a * ((2 ^ scale : Nat) : Int) + (if neg then 0 else 1)

/-- The greater or lesser of two encodings (06 R151). -/
def selectNum (f : Fmt) (greatest : Bool) (x y : Nat) : Nat :=
  match decodeNum f x, decodeNum f y with
  | .nan, _ => f.nan
  | _, .nan => f.nan
  | a, b => if f.isInt then
      (match a, b with
      | .fin _ i, .fin _ j => if greatest then (if i < j then y else x) else (if j < i then y else x)
      | _, _ => x)
    else if greatest then (if numKey 0 a < numKey 0 b then y else x) else (if numKey 0 b < numKey 0 a then y else x)

/-! ## ARGMAX and ARGMIN (06 R153, R154) -/

/-- Rank of a pair. -/
def pairRank (p : Nat) : Nat := bitsAt p 104 24

/-- Whether pair `p` wins over `q` (06 R154). -/
def pairWins (f : Fmt) (greatest : Bool) (p q : Nat) : Bool :=
  let x := decodeNum f (bitsAt p 0 64)
  let y := decodeNum f (bitsAt q 0 64)
  match x, y with
  | .nan, .nan => pairRank p < pairRank q
  | .nan, _ => true
  | _, .nan => false
  | a, b =>
    let ka : Int := if f.isInt then (match a with | .fin _ i => i | _ => 0) else numKey 0 a
    let kb : Int := if f.isInt then (match b with | .fin _ i => i | _ => 0) else numKey 0 b
    if ka = kb then pairRank p < pairRank q else if greatest then kb < ka else ka < kb

/-- The winner, its value made canonical when it is NaN. -/
def pairResult (f : Fmt) (p : Nat) : Nat :=
  match decodeNum f (bitsAt p 0 64) with
  | .nan => p / 2 ^ 64 * 2 ^ 64 + f.nan
  | _ => p

/-! ## The log-sum-exp pair (06 R155) -/

/-- `n` terms of the Taylor sum of exp(-z), z = `z` / 2^`p`, in units of 2^-`p`. -/
def expTaylor (p z : Nat) : Nat → Nat → Int → Nat → Int
  | 0, _, acc, _ => acc
  | n + 1, k, acc, term =>
    let t := term * z / 2 ^ p / k
    expTaylor p z n (k + 1) (if k % 2 = 1 then acc - t else acc + t) t

/-- Square `n` times in units of 2^-`p`. -/
def squareTimes (p : Nat) : Nat → Nat → Nat
  | 0, v => v
  | n + 1, v => squareTimes p n (v * v / 2 ^ p)

/-- exp(-x 2^-149) to FP32, from bounds at precision `p`; none where the bounds round differently. -/
def expAt (p terms x : Nat) : Option Nat :=
  let z := x * 2 ^ (p - 149 - 8)
  let v := squareTimes p 8 (expTaylor p z terms 1 ((2 ^ p : Nat) : Int) (2 ^ p)).toNat
  let lo := (roundNum (fmtOf 7) p ((v - 2 ^ 20 : Nat) : Int)).1
  let hi := (roundNum (fmtOf 7) p ((v + 2 ^ 20 : Nat) : Int)).1
  if lo = hi then some lo else none

/-- e(d) for d = -x 2^-149: exp(d) correctly rounded to FP32 (06 R155). Bounds at 320 bits and, where they do not decide,
at 900 and 2,000 bits (log entry 10). -/
def expRounded (x : Nat) : Nat :=
  if x = 0 then 0x3F800000
  else if 104 * 2 ^ 149 ≤ x then 0
  else match expAt 320 80 x with
    | some e => e
    | none => match expAt 900 160 x with
      | some e => e
      | none => (expAt 2000 320 x).getD 0

/-- FP32 operand of a product: NaN, infinity, or an integer at scale 149. -/
def f32 (v : Nat) : Num := decodeNum (fmtOf 7) v

/-- A product of two FP32 numbers as a number at scale 298 (06 R155, infinite operands). -/
def mulNum (x y : Num) : Num :=
  match x, y with
  | .nan, _ | _, .nan => .nan
  | .inf s, .inf t => .inf (s != t)
  | .inf s, .fin t a => if a = 0 then .nan else .inf (s != t)
  | .fin s a, .inf t => if a = 0 then .nan else .inf (s != t)
  | .fin s a, .fin t b => .fin (s != t) (a * b)

/-- A sum of two numbers at one scale. -/
def addNum (x y : Num) : Num :=
  match x, y with
  | .nan, _ | _, .nan => .nan
  | .inf s, .inf t => if s = t then .inf s else .nan
  | .inf s, .fin _ _ => .inf s
  | .fin _ _, .inf t => .inf t
  | .fin s a, .fin t b => .fin (if a + b = 0 then s && t else a + b < 0) (a + b)

/-- RNE32 of a number at a scale. -/
def rne32 (scale : Nat) (x : Num) : Nat :=
  let f := fmtOf 7
  match x with
  | .nan => f.nan
  | .inf s => infOf f s
  | .fin s a => if a = 0 then signBit f s else (roundNum f scale a).1

/-- The difference m - M of two FP32 encodings, as the exact distance M - m at scale 149; none when m is -inf. -/
def lseDist (m top : Nat) : Option Nat :=
  match f32 m, f32 top with
  | .fin _ a, .fin _ b => some (b - a).toNat
  | _, _ => none

/-- lse_combine (06 R155): pairs (m, s) of FP32 encodings. -/
def lseCombine (p q : Nat × Nat) : Nat × Nat :=
  let f := fmtOf 7
  let isNan (v : Nat) : Bool := f32 v == .nan
  let pinf := infOf f false
  let ninf := infOf f true
  if isNan p.1 || isNan p.2 || isNan q.1 || isNan q.2 then (f.nan, f.nan)
  else if p.1 = pinf ∨ q.1 = pinf then
    let w (x : Nat × Nat) : Num := if x.1 = pinf then f32 x.2 else .fin false 0
    (pinf, rne32 149 (addNum (w p) (w q)))
  else
    let s1 := if p.1 = ninf then 0 else p.2
    let s2 := if q.1 = ninf then 0 else q.2
    if p.1 = ninf ∧ q.1 = ninf then (ninf, 0)
    else
      let top := selectNum f true p.1 q.1
      let e (m : Nat) : Nat := match lseDist m top with | some x => expRounded x | none => 0
      (top, rne32 298 (addNum (mulNum (f32 s1) (f32 (e p.1))) (mulNum (f32 s2) (f32 (e q.1)))))

/-- Result flags of an LSE pair (06 R155). -/
def lseFlags (p : Nat × Nat) : Flags :=
  let f := fmtOf 7
  let isInf (v : Nat) : Bool := v == infOf f false || v == infOf f true
  { empty := p == (infOf f true, 0), nan := f32 p.1 == .nan || f32 p.2 == .nan, inf := p.1 == infOf f false || isInf p.2 }

/-- lse_fold over pairs in ascending rank (06 R155). -/
def lseFold (ps : List (Nat × Nat)) : Nat × Nat := ps.foldl lseCombine (infOf (fmtOf 7) true, 0)

/-! ## Elements in units (06 R143, R147) -/

/-- Bytes of a member element of an operation and format (07 R178). -/
def elemBytes (op : Nat) (f : Fmt) : Nat := if op = 7 ∨ op = 8 then 16 else if op = 9 then 8 else f.bytes

/-- Bytes of an EXACT image of a format (06 R147). -/
def imageBytes (f : Fmt) : Nat := if f.isInt ∨ f.code = 3 then 8 else if f.code ≤ 5 then 12 else 40

/-- Units per 64-byte block of elements, EXACT (06 R147). -/
def exactUnits (f : Fmt) : Nat := 64 / f.bytes * imageBytes f / 64

/-- Units per 64-byte block of elements, ROUNDED (06 R147). -/
def roundedUnits (f : Fmt) : Nat := 64 / f.bytes * 4 / 64

/-- Longest packet in units of a form (06 R147): 0 ELEMENT, 1 EXACT, 2 ROUNDED. -/
def longestPacket (f : Fmt) (form : Nat) : Nat := if form = 1 then (if f.isInt ∨ f.code = 3 then 64 else 60) else 64

/-- Units of a block in a form, for an operation. -/
def unitsPerBlock (f : Fmt) (form : Nat) : Nat := if form = 1 then exactUnits f else if form = 2 then roundedUnits f else 1

/-- Consecutive little-endian values of `w` bytes, `n` of them. -/
def splitVals (w : Nat) : Nat → List Byte → List Nat
  | 0, _ => []
  | n + 1, bs => ofBytes (bs.take w) :: splitVals w n (bs.drop w)

/-- Bytes of the data units of a packet. -/
def unitBytes (ps : List Payload) : List Byte := ps.flatMap payloadBytes

/-- An EXACT image read as an accumulator (06 R147). -/
def imageAcc (f : Fmt) (v : Nat) : Acc :=
  if f.isInt then .sum (signedOf 64 v) 0
  else
    let w := 8 * imageBytes f - 8
    .sum (signedOf w v) (BitVec.ofNat 8 (v / 2 ^ w))

/-- An accumulator as an EXACT image. -/
def accImage (f : Fmt) (a : Int) (fl : BitVec 8) : Nat :=
  if f.isInt then patternOf 64 a
  else
    let w := 8 * imageBytes f - 8
    patternOf w a + fl.toNat * 2 ^ w

/-- The value that a node takes in, with no NaN payload (06 R143): canonical NaN for a selection and in a pair. -/
def canonVal (op : Nat) (f : Fmt) (v : Nat) : Nat :=
  if op = 1 ∨ op = 2 then (match decodeNum f v with | .nan => f.nan | _ => v)
  else if op = 7 ∨ op = 8 then pairResult f v
  else v

/-- Width of the accumulators of a format; carries enter W320 (06 R146, R159). -/
def accWidth (f : Fmt) (rounded : Bool) : Nat :=
  if rounded then 320 else if f.isInt ∨ f.code = 3 then 64 else if f.code ≤ 5 then 96 else 320

/-- r(X): a bit pattern modulo 255 (06 R170). -/
def residue (x : Nat) : Nat := x % 255

/-- The residue check of an addition of two patterns of `w` bits: r(A') = r(A) + r(a) - c, with c the carry out of bit `w - 1`
(06 R170). -/
def residueHolds (w A a : Nat) : Bool :=
  residue ((A + a) % 2 ^ w) == (residue A + residue a + 254 * ((A + a) / 2 ^ w)) % 255

/-- Add to an accumulator of `w` bits: the new value is written only once its residue check passes (06 R146, R170). -/
def accAdd (w : Nat) (a b : Int) : Int :=
  let A := patternOf w a
  let B := patternOf w b
  if residueHolds w A B then signedOf w ((A + B) % 2 ^ w) else a

/-- The accumulators that a packet brings: its form, whether it is a member's own data, and its lowest rank; scale 149 when
the chunk is ROUNDED (06 R148, R152, R153, R159). -/
def inputAccs (op : Nat) (f : Fmt) (scale form : Nat) (own : Bool) (rank : Nat) (ps : List Payload) : List Acc :=
  let bs := unitBytes ps
  if op = 0 then
    (if form = 1 then (splitVals (imageBytes f) (bs.length / imageBytes f) bs).map (fun v =>
        match imageAcc f v with | .sum a fl => .sum (a * ((2 ^ (scale - f.scale) : Nat) : Int)) fl | x => x)
     else if form = 2 then (splitVals 4 (bs.length / 4) bs).map (sumInput (fmtOf 7) 149)
     else (splitVals f.bytes (bs.length / f.bytes) bs).map (sumInput f scale))
  else if op = 6 then (splitVals 4 (bs.length / 4) bs).map (fun v => .val (if own then (if v = 0 then 0 else 1) else v))
  else if op = 7 ∨ op = 8 then (splitVals 16 (bs.length / 16) bs).map (fun v =>
    .val (canonVal op f (v % 2 ^ 96 + (if own then rank % 2 ^ 24 else pairRank v) * 2 ^ 104)))
  else (splitVals (elemBytes op f) (bs.length / elemBytes op f) bs).map (fun v => .val (canonVal op f v))

/-- Combine two accumulators of an element, sums in `w` bits. -/
def accJoin (op : Nat) (f : Fmt) (w : Nat) (x y : Acc) : Acc :=
  match x, y with
  | .sum a u, .sum b v => .sum (accAdd w a b) (u ||| v)
  | .val a, .val b => .val (
      match op with
      | 1 => selectNum f true a b
      | 2 => selectNum f false a b
      | 3 => a &&& b
      | 4 => a ||| b
      | 5 => a ^^^ b
      | 6 => a + b
      | 7 => if pairWins f true a b then a else b
      | _ => if pairWins f false a b then a else b)
  | x, _ => x

/-- The final value of an element and its flags, with its width in bytes (06 R148 to R154). -/
def accResult (op : Nat) (f : Fmt) (scale : Nat) (wrap : Bool) (x : Acc) : Nat × Flags :=
  match x with
  | .sum a fl => sumResult f scale wrap a fl
  | .val v =>
    let fl (w : Nat) : Flags := match decodeNum f w with
      | .nan => { nan := true }
      | .inf _ => { inf := true }
      | .fin _ _ => {}
    if op = 1 ∨ op = 2 then (match decodeNum f v with | .nan => (f.nan, { nan := true }) | _ => (v, fl v))
    else if op = 7 ∨ op = 8 then (pairResult f v, fl (bitsAt v 0 64))
    else (v, {})

/-- Values of `w` bytes as payloads. -/
def valUnits (w : Nat) (vs : List Nat) : List Payload :=
  let bs := vs.flatMap (fun v => bytesOf w v)
  payloadsOf (bs.length / 64 + 1) bs

/-- The data units of accumulators in a form: 0 ELEMENT, 1 EXACT, 2 ROUNDED; partials of the other operations are their
values (06 R144). -/
def accUnits (op : Nat) (f : Fmt) (form : Nat) (xs : List Acc) : List Payload :=
  if form = 1 then valUnits (imageBytes f) (xs.map (fun x => match x with | .sum a fl => accImage f a fl | .val v => v))
  else if form = 2 then valUnits 4 (xs.map (fun x => match x with | .sum a fl => carryOf a fl | .val v => v))
  else valUnits (elemBytes op f) (xs.map (fun x => match x with | .val v => v | .sum a _ => a.toNat))

/-- The identity element of an operation (07 R183). -/
def identityOf (op : Nat) (f : Fmt) : Nat :=
  match op with
  | 0 => if f.isInt then 0 else signBit f true
  | 1 => if f.isInt then 2 ^ (8 * f.bytes - 1) else if f.code = 3 then 0xFE else infOf f true
  | 2 => if f.isInt then f.top else if f.code = 3 then 0x7E else infOf f false
  | 3 => 2 ^ (8 * f.bytes) - 1
  | 9 => 0xFF800000
  | _ => 0

end Sys2Proof.Machine
end

