-- ==== Sys2Proof/Machine/Route.lean ====
section
/-!
DEFINITION. The shape of the tree (01 R16 to R20), the usable links (04 R100), the routes on the die and across the
torus (04 R99 to R107), the collective climb (07 R384), the bank that serves a header (09 R264), and the replication
entries (07 R199).
-/
namespace Sys2Proof.Machine

/-! ## The tree -/

/-- What an on-die port is joined to: the unit and its port (01 R18). -/
def peer (u : UnitId) (port : Nat) : Option (UnitId × Nat) :=
  match u with
  | .landing l => if port = 1 then some (.stair (l / 16), l % 16) else none
  | .stair n =>
    if port < 16 then some (.landing (16 * n + port), 1)
    else if port < 24 then some (.gallery (n / 16), 8 * (n % 16) + (port - 16)) else none
  | .gallery g =>
    if port < 128 then some (.stair (16 * g + port / 8), 16 + port % 8)
    else if port < 160 then some (.hall ((port - 128) / 8), 8 * g + (port - 128) % 8) else none
  | .hall h =>
    if port < 64 then some (.gallery (port / 8), 128 + 8 * h + port % 8)
    else if port < 72 then some (.pavilion (4 * h + (port - 64) / 2), (port - 64) % 2)
    else if port < 85 then some (.special (2048 + (port - 72)), h) else none
  | .pavilion p => if port < 2 then some (.hall (p / 4), 64 + 2 * (p % 4) + port) else none
  | .special e => if port < 4 then some (.hall port, 72 + (e - 2048)) else none
  | .chip => none

/-- The output ports of a unit that on-die channels leave by. -/
def outPorts : UnitId → List Nat
  | .landing _ => [1]
  | .stair _ => List.range 24
  | .gallery _ => List.range 160
  | .hall _ => List.range 85
  | .pavilion _ => [0, 1]
  | .special _ => [0, 1, 2, 3]
  | .chip => []

/-- The number of ports of a unit under 01 R18, the tile, lane and HL_ ports included. -/
def portCount : UnitId → Nat
  | .landing _ => 2
  | .stair _ => 24
  | .gallery _ => 160
  | .hall _ => 85
  | .pavilion _ => 3
  | .special 2048 => 5
  | .special _ => 4
  | .chip => 0

/-- The hop latency of an on-die link in slots (01 R19). -/
def hopLatency (u : UnitId) (port : Nat) : Nat :=
  match u with
  | .landing _ => 4
  | .stair _ => if port < 16 then 4 else 6
  | .gallery _ => if port < 128 then 6 else 10
  | .hall _ => if port < 64 then 10 else 4
  | _ => 4

/-- The hop latency of an on-die link in fabric slots: it is counted in partition slots, so it doubles while either end's island
runs at half rate (00 R12; 03 R81; log entry 116). -/
def State.linkLatency (s : State) (u : UnitId) (port : Nat) : Nat :=
  let half := (s.node u).half || (match peer u port with
    | some (v, _) => (s.node v).half
    | none => false)
  if half then 2 * hopLatency u port else hopLatency u port

/-- Whether a unit is a switch. -/
def isSwitch : UnitId → Bool
  | .stair _ | .gallery _ | .hall _ => true
  | _ => false

/-- The endpoint number of a unit that is an endpoint. -/
def epOf : UnitId → Option Nat
  | .landing l => some l
  | .special e => some e
  | _ => none

/-- Whether two units share a power domain. -/
def sameDomain (u v : UnitId) : Bool := domainOf u == domainOf v

/-- The present galleries (14 R369). -/
def State.galleries (s : State) : Nat := s.build.galleries

/-! ## Links (04 R100, R113; 10 R279) -/

/-- Whether the hall's link-state bits of a pavilion are set: in UP and UP_UNMAPPED (08 R225). -/
def State.pavUp (s : State) (p : Nat) : Bool := (s.pav p).st == .up || (s.pav p).st == .upUnmapped

/-- Whether the link-enable mask leaves a port enabled (0x1011:01); other units have no mask. -/
def State.enabled (s : State) (u : UnitId) (port : Nat) : Bool :=
  if isSwitch u then (s.word 0x101101 (instOf u) 0 (port / 64)).testBit (port % 64) else true

/-- Whether the link of a port leads into a powered domain whose bits its neighbours hold set (10 R279). -/
def State.linkPowered (s : State) (u : UnitId) (port : Nat) : Bool :=
  match peer u port with
  | none => false
  | some (v, _) =>
    (sameDomain u v || s.domState v == .active || s.domState v == .doze) &&
      (match v with | .pavilion p => s.pavUp p | _ => true)

/-- The link-state bit of a port (0x1011:02): enabled, powered and up. -/
def State.usable (s : State) (u : UnitId) (port : Nat) : Bool := s.enabled u port && s.linkPowered u port

/-- Whether the link of a port leads into a domain in DOZE (10 R279). -/
def State.dozing (s : State) (u : UnitId) (port : Nat) : Bool :=
  match peer u port with
  | some (v, _) => !sameDomain u v && s.domState v == .doze
  | none => false

/-- Units of a buffer at an on-die input (04 R95, R74). -/
def bufferSize (b : Nat) : Nat := if b = 0 then 4 else if b ≤ 5 then 16 else 8

/-- The output port of a unit. -/
def State.outPort (s : State) (u : UnitId) (port : Nat) : OutPort := (s.node u).outs.get {} port
/-- The input port of a unit. -/
def State.inPort (s : State) (u : UnitId) (port : Nat) : InPort := (s.node u).ins.get {} port
/-- Change an output port. -/
def State.onOut (s : State) (u : UnitId) (port : Nat) (f : OutPort → OutPort) : State :=
  s.onNode u (fun n => { n with outs := n.outs.modify {} port f })
/-- Change an input port. -/
def State.onIn (s : State) (u : UnitId) (port : Nat) (f : InPort → InPort) : State :=
  s.onNode u (fun n => { n with ins := n.ins.modify {} port f })

/-- Free credits of a buffer at the far end of an output port (04 R96). -/
def OutPort.credit (o : OutPort) (b : Nat) : Nat := bufferSize b - (o.sent.get 0 b + 32 - o.ret.get 0 b) % 32

/-- The first element with the greatest value. -/
def argMax (f : Nat → Nat) : List Nat → Option Nat
  | [] => none
  | x :: xs => match argMax f xs with
    | some y => if f x ≥ f y then some x else some y
    | none => some x

/-- The hall that a port of a gallery or of a special endpoint leads to. -/
def planeOfPort (u : UnitId) (port : Nat) : Nat :=
  match u with
  | .gallery _ => (port - 128) / 8
  | .special _ => port
  | _ => 4

/-- Links of the crossovers: link `7 - j / G` of gallery `j mod G` (04 R107). -/
def crossLink (g j : Nat) : Nat × Nat := (j % g, 7 - j / g)

/-- Whether link `k` of gallery `g` is a crossover link. -/
def State.isCross (s : State) (g k : Nat) : Bool :=
  s.build.pavilions && (List.range 8).any (fun j => crossLink s.galleries j == (g, k))

/-- Whether a port is an end of a crossover link. -/
def State.crossPort (s : State) (u : UnitId) (port : Nat) : Bool :=
  match u with
  | .gallery g => 128 ≤ port && s.isCross g ((port - 128) % 8)
  | .hall _ => port < 64 && s.isCross (port / 8) (port % 8)
  | _ => false

/-- Choose among candidate ports for a normal-lane header (04 R100; 10 R279 prefers a link that is not dozing). -/
def State.chooseNormal (s : State) (u : UnitId) (vc plane : Nat) (ports : List Nat) : Option Nat :=
  let c := ports.filter (s.usable u)
  let c := let a := c.filter (fun p => !s.dozing u p); if a.isEmpty then c else a
  argMax (fun p => (s.outPort u p).credit vc * 2 + (if planeOfPort u p = plane then 1 else 0)) c

/-- Choose among candidate ports for an escape-lane header; none while every lane is open or without credit. -/
def State.chooseEscape (s : State) (u : UnitId) (ports : List Nat) : Option Nat :=
  let c := ports.filter (fun p => s.usable u p && !s.crossPort u p)
  let c := let a := c.filter (fun p => !s.dozing u p); if a.isEmpty then c else a
  argMax (fun p => (s.outPort u p).credit 0)
    (c.filter (fun p => (s.outPort u p).esc.isNone && (s.outPort u p).credit 0 > 0))

/-! ## The torus (04 R102 to R107) -/

/-- A pavilion's axis, direction and sibling number (04 R102). -/
structure Facing where
  pav : Nat
  axis : Nat
  pos : Bool
  sib : Nat
deriving DecidableEq, Repr

/-- The table of 04 R102. -/
def facings : List Facing :=
  [⟨0, 0, false, 0⟩, ⟨1, 0, true, 0⟩, ⟨2, 1, false, 0⟩, ⟨3, 1, true, 0⟩, ⟨4, 1, false, 1⟩, ⟨5, 1, true, 1⟩,
   ⟨6, 2, false, 0⟩, ⟨7, 2, true, 0⟩, ⟨8, 0, false, 1⟩, ⟨9, 0, true, 1⟩, ⟨10, 2, false, 1⟩, ⟨11, 2, true, 1⟩,
   ⟨12, 3, false, 0⟩, ⟨13, 3, true, 0⟩, ⟨14, 3, false, 1⟩, ⟨15, 3, true, 1⟩]

/-- The row of a pavilion. -/
def facing (p : Nat) : Facing := facings.getD p ⟨p, 0, false, 0⟩

/-- The pavilion of the same axis and sibling that faces the other way. -/
def oppositePav (p : Nat) : Nat := if (facing p).pos then p - 1 else p + 1

/-- The other pavilion that faces the same direction. -/
def siblingPav (p : Nat) : Nat :=
  ((facings.find? (fun f => f.axis == (facing p).axis && f.pos == (facing p).pos && f.sib != (facing p).sib)).map (·.pav)).getD p

/-- Size of an axis (0x1010:03). -/
def State.axisSize (s : State) (a : Nat) : Nat :=
  if s.build.pavilions then bitsAt (s.val 0x101003) (4 * a) (if a = 3 then 2 else 4) + 1 else 1

/-- Whether a chip is of the machine (0x1010:01). A build without pavilions is a machine of its own chip 0 (14 R369; log
entry 38). -/
def State.chipPresent (s : State) (c : Nat) : Bool :=
  (s.word 0x101001 0 c 0).testBit 15 || (!s.build.pavilions && c == 0)

/-- Coordinate of a chip on an axis (04 R103). -/
def State.coord (s : State) (c a : Nat) : Nat := bitsAt (s.word 0x101001 0 c 0) (4 * a) (if a = 3 then 2 else 4)

/-- Distance on an axis from coordinate `c` to `t` and whether the direction is positive (04 R103). -/
def axisRoute (n c t : Nat) : Nat × Bool :=
  let d := (t + n - c) % n
  if 2 * d ≤ n then (d, true) else (n - d, false)

/-- The productive directions from `c` to `t` (04 R103). -/
def productive (n c t : Nat) : List Bool :=
  let d := (t + n - c) % n
  if d = 0 then [] else if 2 * d = n then [true, false] else if 2 * d < n then [true] else [false]

/-- The axes on which a destination chip still lies away, in order. -/
def State.openAxes (s : State) (dst : Nat) : List Nat :=
  (List.range 4).filter (fun a => s.coord s.chipNo a != s.coord dst a)

/-- The coordinate after one hop. -/
def stepCoord (n c : Nat) (pos : Bool) : Nat := if pos then (c + 1) % n else (c + n - 1) % n

/-- The dateline class of a hop (04 R106). -/
def datelineClass (pos : Bool) (arrival t : Nat) : Nat :=
  if pos then (if t < arrival then 0 else 1) else (if t > arrival then 0 else 1)

/-- The dateline class of the next hop towards a chip along an axis. -/
def State.hopClass (s : State) (dst a : Nat) : Nat :=
  let n := s.axisSize a; let c := s.coord s.chipNo a; let t := s.coord dst a
  let r := axisRoute n c t
  datelineClass r.2 (stepCoord n c r.2) t

/-- The class of the hop by which a packet has arrived through pavilion `p` (the hop of its facing, reversed). -/
def State.arrivalClass (s : State) (dst p : Nat) : Nat :=
  let f := facing p
  datelineClass (!f.pos) (s.coord s.chipNo f.axis) (s.coord dst f.axis)

/-- The pavilion of the escape route's next hop (04 R105) among those that are `ok`; `from?` is the hall that the packet entered
from a pavilion, on which a leg continues first. -/
def State.escapePav (s : State) (ok : Nat → Bool) (dst : Nat) (from? : Option Nat) : Option Nat :=
  match s.openAxes dst with
  | [] => none
  | a :: later =>
    let r := axisRoute (s.axisSize a) (s.coord s.chipNo a) (s.coord dst a)
    let c := (facings.filter (fun f => f.axis == a && f.pos == r.2 && ok f.pav)).map (·.pav)
    let here := match from? with | some h => c.find? (fun p => p / 4 == h) | none => none
    match here with
    | some p => some p
    | none =>
      let turn := match later with
        | b :: _ => c.find? (fun p => facings.any (fun f => f.pav / 4 == p / 4 && f.axis == b))
        | [] => none
      match turn with
      | some p => some p
      | none => c.head?

/-- The hall port onto pavilion `p`, link `k`. -/
def pavPort (p k : Nat) : Nat := 64 + 2 * (p % 4) + k

/-- Whether a pavilion serves the next hop of an escape route towards a chip: it and the hall link of the hop's dateline class
are usable (04 R105). -/
def State.escapeOk (s : State) (dst p : Nat) : Bool :=
  s.pavUp p && s.usable (.hall (p / 4)) (pavPort p (s.hopClass dst (facing p).axis))

/-- The repair half that a resend takes at the next on-die input: that of the next pavilion hop's dateline class (03 R74; log
entry 7). -/
def State.repairBuffer (s : State) (h : Header) : Nat :=
  6 + (if chipOf h.dst = s.chipNo then 0 else match s.openAxes (chipOf h.dst) with
    | a :: _ => s.hopClass (chipOf h.dst) a
    | [] => 0)

/-! ## The collective climb (07 R384) and multicast (07 R199) -/

/-- The wanted part of a collective descriptor: the word `w` of handle `h` in force. -/
def State.descWord (s : State) (h w : Nat) : Nat := s.word 0x210001 0 h w

/-- The replication entry of a unit for a group and partition: its port mask (07 R199). -/
def State.replication (s : State) (u : UnitId) (group part : Nat) : Option Nat :=
  let lo := dkey 0x220002 (instOf u) 0 0
  let hi := dkey 0x220002 (instOf u) 4096 0
  let want := 2 ^ 63 + part * 2 ^ 53 + group * 2 ^ 33
  match s.dict.find? (fun kv => lo ≤ kv.1 && kv.1 < hi && kv.1 % 16 == 2 && kv.2.toNat / 2 ^ 33 * 2 ^ 33 == want) with
  | none => none
  | some kv =>
    let row := keyRow kv.1
    let w (i : Nat) := s.word 0x220002 (instOf u) row i
    some (w 0 + w 1 * 2 ^ 64 + w 2 % 2 ^ 32 * 2 ^ 128)

/-- The set bits of a port mask, below `n`. -/
def maskPorts (m n : Nat) : List Nat := (List.range n).filter (fun i => m.testBit i)

/-- Another usable port to the same neighbour unit, or to the sibling pavilion (07 R200). -/
def State.altPort (s : State) (u : UnitId) (port : Nat) : Option Nat :=
  match peer u port with
  | none => none
  | some (v, _) =>
    let same := (outPorts u).filter (fun p => s.usable u p && (match peer u p with
      | some (w, _) => w == v || (match v, w with
        | .pavilion a, .pavilion b => siblingPav a == b
        | _, _ => false)
      | none => false))
    same.head?

/-! ## The bank of a header (09 R264) -/

/-- A state in which the tag-selected tables are those of the bank that serves a header; none for a stale header. -/
def State.bank (s : State) (h : Header) : Option State :=
  if chipOf h.src ≠ s.chipNo then some s
  else if h.tag.toNat = s.ctl.epoch.toNat % 16 then some s
  else if s.ctl.windowOpen ∧ h.tag.toNat = (s.ctl.epoch.toNat + 15) % 16 then
    some { s with dict := s.prev.getD s.dict }
  else none

/-- Whether a header is of the previous epoch's tag. -/
def State.oldTag (s : State) (h : Header) : Bool :=
  chipOf h.src == s.chipNo && h.tag.toNat != s.ctl.epoch.toNat % 16

/-- The same at a unit: one that rejoined in this tag window holds no previous bank (10 R282). -/
def State.bankAt (s : State) (u : UnitId) (h : Header) : Option State :=
  match domainOf u with
  | some d => if s.oldTag h && (s.dom d).epochAt == s.ctl.epoch then none else s.bank h
  | none => s.bank h

/-- The switch that the path of a packet to landing `l` turns down at: the apex of 07 R182. -/
def isApex (u : UnitId) (inp l : Nat) : Bool :=
  match u with
  | .stair n => l / 16 == n && inp < 16
  | .gallery g => l / 256 == g && inp < 128
  | .hall _ => inp < 64 || 72 ≤ inp
  | _ => false

/-- What a unit does with a header. -/
inductive Route where
  /-- copies on these ports -/
  | ports (ps : List Nat)
  /-- the unit itself takes the packet -/
  | take
  /-- no port is free yet (04 R100) -/
  | wait
  /-- discarded: 8 no route, 7 going down, 9 malformed, 10 no replication entry -/
  | discard (cause : Nat)
deriving DecidableEq, Repr

/-- How a header travels at a unit: on the normal lane; on the escape lane that it arrived by; on the escape lane that it enters
here (04 R105); or as a resend of the scheduled class (03 R74). -/
inductive Way where
  | normal | escape | escaped | resend
deriving DecidableEq, Repr

/-- The way of a held packet: one that escaped here lies in the buffer of its normal lane, or in none where this unit made it. -/
def wayOf (lane : Lane) (buf : Nat) : Way :=
  match lane with
  | .normal | .sched => .normal
  | .resend => .resend
  | .escape => if buf = 0 ∨ 16 ≤ buf then .escape else .escaped

/-- What the collective climb asks of a REDUCE_CONTRIB at a unit: nothing; the up route (07 R384); or the hall that is its
cross-chip node (07 R185, R189). -/
inductive Climb where
  | none | up | over (hall : Nat)
deriving DecidableEq, Repr

/-- A route by one of the candidate ports (04 R100). The safe routes of the back stair and of resends leave the crossover links
out (04 R100, 03 R74). Where no candidate is usable the header is discarded; on the escape lane it waits while every lane is
open or without credit. -/
def State.chosen (s : State) (u : UnitId) (w : Way) (h : Header) (ports : List Nat) : Route :=
  let c := if w = .normal then ports else ports.filter (fun p => !s.crossPort u p)
  if c.all (fun p => !s.usable u p) then .discard (if c.any (fun p => s.enabled u p) then 7 else 8)
  else match w with
    | .normal => (match s.chooseNormal u (vcOf h) h.plane.toNat c with | some p => .ports [p] | none => .discard 8)
    | .resend => (match s.chooseNormal u (s.repairBuffer h) 4 c with | some p => .ports [p] | none => .discard 8)
    | _ => (match s.chooseEscape u c with | some p => .ports [p] | none => .wait)

/-- A route by one fixed port, where it is usable. -/
def State.byPort (s : State) (u : UnitId) (p : Nat) : Route := if s.usable u p then .ports [p] else .discard 8

/-- The up ports of a unit. -/
def upPorts : UnitId → List Nat
  | .landing _ => [1]
  | .stair _ => (List.range 8).map (· + 16)
  | .gallery _ => (List.range 32).map (· + 128)
  | .special _ => [0, 1, 2, 3]
  | _ => []

/-- The down ports of a unit towards a landing: none above its subtree (04 R99). -/
def downPorts (u : UnitId) (l : Nat) : List Nat :=
  match u with
  | .stair n => if l / 16 = n then [l % 16] else []
  | .gallery g => if l / 256 = g then (List.range 8).map (fun k => 8 * (l / 16 % 16) + k) else []
  | .hall _ => (List.range 8).map (fun k => 8 * (l / 256) + k)
  | _ => []

/-- The free credit of a pavilion's link layer for a normal-lane channel: buffer `vc + 1` of 08 R218. -/
def Pavilion.vcCredit (v : Pavilion) (vc : Nat) : Nat :=
  v.peerSize.get 0 (vc + 1) - (v.sent.get 0 (vc + 1) + 4096 - v.ret.get 0 (vc + 1)) % 4096

/-- The route at a hall of a packet for another chip (04 R104, R105, R107). DESIGN CHOICE: where both directions of an axis are
productive, a credit tie between two opposite pavilions of one sibling goes to the lower pavilion (log entry 117). -/
def State.hallRoute (s : State) (n : Nat) (inp : Nat) (w : Way) (h : Header) : Route :=
  let u := UnitId.hall n
  let dst := chipOf h.dst
  let entered := if 64 ≤ inp ∧ inp < 72 then some n else none
  if w = .normal then
    let dirs := (s.openAxes dst).flatMap (fun a =>
      (productive (s.axisSize a) (s.coord s.chipNo a) (s.coord dst a)).map (fun d => (a, d)))
    let c := (facings.filter (fun f => f.pav / 4 == n && s.pavUp f.pav && dirs.contains (f.axis, f.pos) &&
      [0, 1].any (fun k => s.usable u (pavPort f.pav k)))).map (·.pav)
    match argMax (fun p => (s.pav p).vcCredit (vcOf h)) c with
    | some p => (match s.chooseNormal u (vcOf h) 4 [pavPort p 0, pavPort p 1] with
        | some q => .ports [q]
        | none => .discard 8)
    | none =>
      if (s.escapePav (s.escapeOk dst) dst none).isSome then
        s.chosen u .normal h ((List.range 8).map (fun k => 8 * (dst % s.galleries) + k))
      else .discard 8
  else
    match s.escapePav (s.escapeOk dst) dst entered with
    | none => .discard 8
    | some p =>
      let k := s.hopClass dst (facing p).axis
      if p / 4 = n then .ports [pavPort p k]
      else
        let x := crossLink s.galleries (2 * (facing p).axis + k)
        s.byPort u (8 * x.1 + x.2)

/-- Whether the build has the unit that a level and an instance name (11 R291, 14 R370). -/
def State.unitHere (s : State) (level inst : Nat) : Bool :=
  let g := s.build.galleries
  match level with
  | 0 => decide (inst < 256 * g)
  | 1 => decide (inst < 16 * g)
  | 2 => decide (inst < g)
  | 3 => decide (inst < 4)
  | 4 => s.build.pavilions && decide (inst < 16)
  | 5 => decide (2048 ≤ inst ∧ inst < 2052 + g) || inst == 2060
  | 6 => inst == 0
  | _ => false

/-- Whether an endpoint address can be sent to: a chip number below 1,024 and an endpoint that the build has (01 R21, 14
R370). -/
def State.endpointHere (s : State) (a : BitVec 24) : Bool :=
  decide (chipOf a < 1024) && (s.unitHere 0 (localOf a) || s.unitHere 5 (localOf a))

/-- The eight hall links of a gallery to a hall. -/
def hallLinks (h : Nat) : List Nat := (List.range 8).map (fun k => 128 + 8 * h + k)

/-- The route at a gallery of a packet for another chip that came down from a hall: a crossover (04 R104, R105, R107). One that
came by the escape lane, or as a resend, goes up the same-numbered link; one that enters the back stair here takes the escape
choices of R100. -/
def State.crossoverUp (s : State) (g inp : Nat) (w : Way) (h : Header) : Route :=
  let dst := chipOf h.dst
  match s.escapePav (s.escapeOk dst) dst none with
  | none => .discard 8
  | some p =>
    if w = .escape ∨ w = .resend then s.byPort (.gallery g) (128 + 8 * (p / 4) + (inp - 128) % 8)
    else s.chosen (.gallery g) w h (hallLinks (p / 4))

/-- The route of a dynamic header or a resend at a unit (04 R99 to R107). A multicast packet passes a pavilion, which holds no
replication entries (07 R199), from its hall to the line and from the line to its hall. `climb` says what the collective climb asks of a
REDUCE_CONTRIB (07 R384, R185): one whose cross-chip node is another hall crosses over as R104 describes. -/
def State.route (s : State) (u : UnitId) (inp : Nat) (w : Way) (climb : Climb) (h : Header) : Route :=
  let own := chipOf h.dst == s.chipNo
  let l := localOf h.dst
  let here := match epOf u with | some e => own && e == l && inp != 4095 | none => false
  if here then .take
  else if h.mcast = 1#1 then (match u with
    | .pavilion _ => .ports [if inp != 2 then 2 else if w == .normal && (s.outPort u 1).credit (vcOf h) > (s.outPort u 0).credit (vcOf h)
        then 1 else 0]
    | _ => if (epOf u).isSome then .ports ((upPorts u).take 1) else .discard 10)
  else if !s.endpointHere h.dst || (!own && !s.chipPresent (chipOf h.dst)) then .discard 9
  else match u with
  | .landing _ => .ports [1]
  | .special _ => s.chosen u w h (if own then upPorts u else [h.plane.toNat])
  | .stair _ =>
    let d := if own && climb == .none && l < 2048 then downPorts u l else []
    if d.isEmpty then s.chosen u w h (upPorts u) else s.chosen u w h d
  | .gallery g =>
    let d := if own && climb == .none && l < 2048 then downPorts u l else []
    if !d.isEmpty then s.chosen u w h d
    else if !own && 128 ≤ inp && inp < 160 then s.crossoverUp g inp w h
    else match climb with
      | .over n => s.chosen u w h (hallLinks n)
      | _ => s.chosen u w h
          (if own && w != .resend && !(0x20 ≤ h.command.toNat && h.command.toNat ≤ 0x26) then upPorts (.gallery g)
           else hallLinks h.plane.toNat)
  | .hall n =>
    if !own then s.hallRoute n inp w h
    else match climb with
      | .over m => if m = n then s.chosen u w h (downPorts u l) else
          s.chosen u w h ((List.range 8).map (fun k => 8 * (chipOf h.dst % s.galleries) + k))
      | _ => if l < 2048 then s.chosen u w h (downPorts u l) else s.byPort u (72 + (l - 2048))
  | .pavilion _ => if inp = 2 || own then .ports [if w = .normal then
      (if (s.outPort u 1).credit (vcOf h) > (s.outPort u 0).credit (vcOf h) then 1 else 0)
      else s.arrivalClass (chipOf h.dst) u.inst] else .ports [2]
  | .chip => .discard 9

/-- The ports of the copies of a multicast header (07 R199, R200): those of its entry but the port of arrival, each
replaced by another usable link to the same neighbour where its own is not usable; with the ports dropped. -/
def State.mcastPorts (s : State) (u : UnitId) (inp : Nat) (h : Header) : Option (List Nat × List Nat) :=
  match s.replication u (h.dst.toNat % 2 ^ 20) h.part.toNat with
  | none => none
  | some m =>
    let want := (maskPorts m (portCount u)).filter (· != inp)
    let got := want.map (fun p => if s.usable u p then (p, some p) else (p, s.altPort u p))
    some (got.filterMap (·.2), (got.filter (fun x => x.2.isNone)).map (·.1))

end Sys2Proof.Machine
end

