-- ==== Sys2Proof/Machine/Group.lean ====
section
/-!
DEFINITION. Groups and descriptors of collectives (07 R176 to R178), ranks, the selection function (07 R187, R188), the
on-die top node and the cross-chip nodes (07 R384, R189), the parts of HALVING and RING (07 R190, R191).
-/
namespace Sys2Proof.Machine

/-! ## The descriptor (07 R178) -/

/-- The 512 bits of a handle's descriptor in force. -/
def State.desc (s : State) (h : Nat) : Nat :=
  (List.range 8).foldl (fun a i => a + s.word 0x210001 0 h i * 2 ^ (64 * i)) 0

/-- The partition that owns a handle; 0xFFFF none. -/
def State.handleOwner (s : State) (h : Nat) : Nat := s.word 0x210002 0 h 0

/-- Whether a handle holds a descriptor: it is owned and its descriptor is not all zeros (log entry 11). -/
def State.holdsDesc (s : State) (h : Nat) : Bool := s.handleOwner h != 0xFFFF && s.desc h != 0

/-- Operation. -/
def dOp (d : Nat) : Nat := bitsAt d 496 4
/-- Format. -/
def dFmt (d : Nat) : Fmt := fmtOf (bitsAt d 492 4)
/-- Integer wrap. -/
def dWrap (d : Nat) : Bool := d.testBit 491
/-- Dynamic size. -/
def dDyn (d : Nat) : Bool := d.testBit 490
/-- Element count. -/
def dCount (d : Nat) : Nat := bitsAt d 464 24
/-- Input address. -/
def dIn (d : Nat) : Nat := bitsAt d 440 24
/-- Result address. -/
def dOut (d : Nat) : Nat := bitsAt d 416 24
/-- Work address. -/
def dWork (d : Nat) : Nat := bitsAt d 392 24
/-- Member group. -/
def dMemGroup (d : Nat) : Nat := bitsAt d 372 20
/-- Chip group. -/
def dChipGroup (d : Nat) : Nat := bitsAt d 352 20
/-- Root group. -/
def dRootGroup (d : Nat) : Nat := bitsAt d 332 20
/-- Landing base. -/
def dBase (d : Nat) : Nat := bitsAt d 321 11
/-- Landing count. -/
def dNum (d : Nat) : Nat := bitsAt d 310 11 + 1
/-- Stride exponent. -/
def dExp (d : Nat) : Nat := bitsAt d 306 4
/-- Axis count. -/
def dAxisCount (d : Nat) : Nat := bitsAt d 303 3
/-- Declared axes in declared order. -/
def dAxes (d : Nat) : List Nat := (List.range (Nat.min 4 (dAxisCount d))).map (fun i => bitsAt d (301 - 2 * i) 2)
/-- Start coordinate on an axis. -/
def dStart (d a : Nat) : Nat := bitsAt d (291 - 8 * a) 4
/-- Extent on an axis. -/
def dExtent (d a : Nat) : Nat := bitsAt d (287 - 8 * a) 4 + 1
/-- Chunks in flight of the descriptor; 0 from the thresholds. -/
def dChunks (d : Nat) : Nat := bitsAt d 256 7

/-- Bytes of a member element. -/
def dElem (d : Nat) : Nat := elemBytes (dOp d) (dFmt d)

/-- The member set (07 R176). -/
def members (d : Nat) : List Nat := (List.range (dNum d)).map (fun i => dBase d + i * 2 ^ dExp d)

/-- The place of a landing in the member set. -/
def memberIndex (d l : Nat) : Option Nat := (List.range (dNum d)).find? (fun i => dBase d + i * 2 ^ dExp d == l)

/-- The chip root: the lowest-numbered member landing (07 R177). -/
def chipRoot (d : Nat) : Nat := dBase d

/-- Position of a chip on an axis of the group (07 R177). -/
def State.posOf (s : State) (d c a : Nat) : Nat := (s.coord c a + s.axisSize a - dStart d a % s.axisSize a) % s.axisSize a

/-- Whether a chip lies in the torus block of a descriptor (07 R176). -/
def State.inBlock (s : State) (d c : Nat) : Bool :=
  (List.range 4).all (fun a => if (dAxes d).contains a then s.posOf d c a < dExtent d a
    else s.coord c a == dStart d a % s.axisSize a)

/-- The chips of the group that are present. -/
def State.groupChips (s : State) (d : Nat) : List Nat :=
  (List.range 1024).filter (fun c => s.chipPresent c && s.inBlock d c)

/-- The number of chips of the group (07 R188). -/
def chipCount (d : Nat) : Nat := (dAxes d).foldl (fun n a => n * dExtent d a) 1

/-- Index of a chip in the group (07 R177). -/
def State.chipIndex (s : State) (d c : Nat) : Nat := (dAxes d).foldl (fun n a => n * dExtent d a + s.posOf d c a) 0

/-- The global address of the member of a rank (07 R177). -/
def State.rankAddr (s : State) (d r : Nat) : BitVec 24 :=
  BitVec.ofNat 24 (((s.groupChips d).find? (fun c => s.chipIndex d c == r / dNum d)).getD s.chipNo * 4096 +
    dBase d + r % dNum d * 2 ^ dExp d)

/-- Positions of a chip index, per declared axis in declared order. -/
def indexPositions (d idx : Nat) : List (Nat × Nat) :=
  ((dAxes d).reverse.foldl (fun (x : Nat × List (Nat × Nat)) a =>
    (x.1 / dExtent d a, (a, x.1 % dExtent d a) :: x.2)) (idx, [])).2

/-- Rank of a member landing of this chip (07 R177). -/
def State.rankOf (s : State) (d l : Nat) : Nat :=
  s.chipIndex d s.chipNo * dNum d + (memberIndex d l).getD 0

/-- The chip at a position on one axis, this chip's on the others. -/
def State.chipAt (s : State) (d a q : Nat) : Option Nat :=
  (s.groupChips d).find? (fun c => s.posOf d c a == q && (dAxes d).all (fun b => b == a || s.posOf d c b == s.posOf d s.chipNo b))

/-! ## Selection (07 R187, R188) -/

/-- The thresholds of a handle. -/
structure Thresholds where
  ring : Nat
  rounded : Nat
  chunks : Nat
  mask : Nat
  minimum : Nat
deriving DecidableEq, Repr

/-- Thresholds from the 512 bits of a plan image. -/
def thresholdsOf (v : BitVec 512) : Thresholds :=
  { ring := bitsAt v.toNat 480 32, rounded := bitsAt v.toNat 448 32, chunks := bitsAt v.toNat 440 8
    mask := bitsAt v.toNat 437 3, minimum := bitsAt v.toNat 432 5 }

/-- The thresholds object 0x2101:01 as the 64 bytes of 07 R187. -/
def State.liveThresholds (s : State) : BitVec 512 :=
  BitVec.ofNat 512 (s.word 0x210101 0 0 0 * 2 ^ 480 + s.word 0x210101 0 1 0 * 2 ^ 448 + s.word 0x210101 0 2 0 * 2 ^ 440 +
    s.word 0x210101 0 3 0 * 2 ^ 437 + s.word 0x210101 0 4 0 * 2 ^ 432)

/-- The thresholds that apply to a handle: those of its plan image, or the object 0x2101:01 as it was in force when the launch
under way began (07 R187). -/
def State.thresholds (s : State) (h : Nat) : Thresholds :=
  thresholdsOf (((s.coll h).thr.orElse (fun _ => (s.coll h).inForce)).getD s.liveThresholds)

/-- What select returns (07 R188). Cross: 0 NONE, 1 HALVING, 2 RING, 3 GATHER_FOLD. Form: 0 ELEMENT, 1 EXACT, 2 ROUNDED. -/
structure Selection where
  cross : Nat
  form : Nat
  axes : List Nat
  plane : Nat
  chunks : Nat
deriving DecidableEq, Repr

/-- Halls of the sibling-0 pavilions (07 R188). -/
def hallOfAxis (a : Nat) : Nat := if a = 2 then 1 else if a = 3 then 3 else 0

/-- Bytes of a member's vector of `n` elements, rounded up to 64 (07 R178). -/
def vectorBytes (d n : Nat) : Nat := 64 * ((n * dElem d + 63) / 64)

/-- The selection function (07 R188). -/
def select (d : Nat) (t : Thresholds) (settledRounded : Bool) (n : Nat) : Selection :=
  let c := chipCount d
  let sz := vectorBytes d n
  let lse := dOp d = 9
  let cross := if c = 1 then 0 else if lse then 3 else if sz < t.ring then 1 else 2
  let form := if lse then 0 else if dOp d ≠ 0 then 0 else if c = 1 then 1
    else if 3 ≤ (dFmt d).code ∧ t.rounded ≤ sz then 2 else if settledRounded then 2 else 1
  let axes := (dAxes d).reverse
  { cross := cross, form := form, axes := axes
    plane := if 1 < c then hallOfAxis (axes.headD 0) else bitsAt d 500 12 % 4
    chunks := if dChunks d ≠ 0 then dChunks d else t.chunks }

/-- The selection of a handle for a launch count. -/
def State.selection (s : State) (h n : Nat) : Selection :=
  select (s.desc h) (s.thresholds h) ((s.coll h).settled == 1) n

/-! ## Nodes (07 R182, R384, R189) -/

/-- The members below a switch. -/
def membersBelow (d : Nat) (u : UnitId) : List Nat :=
  (members d).filter (fun l => match u with
    | .stair n => l / 16 == n
    | .gallery g => l / 256 == g
    | .hall _ => true
    | .landing _ => true
    | _ => false)

/-- The level of the on-die top node T: 1 stair, 2 gallery, 3 hall (07 R384). -/
def topLevel (d : Nat) : Nat :=
  let a := dBase d
  let b := dBase d + (dNum d - 1) * 2 ^ dExp d
  if a / 16 = b / 16 then 1 else if a / 256 = b / 256 then 2 else 3

/-- The on-die top node T of a handle (07 R384). -/
def State.topNode (s : State) (h : Nat) : UnitId :=
  let d := s.desc h
  match topLevel d with
  | 1 => .stair (dBase d / 16)
  | 2 => .gallery (dBase d / 256)
  | _ => .hall (s.selection h (dCount d)).plane

/-- Whether a switch holds a reservation for a handle and partition that its ALU state lets it use (06 R169, R172). -/
def State.reserved (s : State) (u : UnitId) (h part : Nat) : Bool :=
  (s.sw u).alu == 0 && (s.sw u).resvs.any (fun r => r.handle == h && r.part == part)

/-- Whether a hall holds the standing cross-chip reservation of a handle (07 R193). -/
def State.crossReserved (s : State) (u : UnitId) (h : Nat) : Bool :=
  (s.sw u).alu == 0 && (s.sw u).resvs.any (fun r => r.handle == h && r.cross)

/-- The chip's cross-chip node for an axis: the hall, or the chip root landing (07 R189). -/
def State.crossNode (s : State) (h a : Nat) : UnitId :=
  if s.crossReserved (.hall (hallOfAxis a)) h then .hall (hallOfAxis a) else .landing (chipRoot (s.desc h))

/-- The unit at which a chip's on-die reduction completes (07 R186). -/
def State.completingNode (s : State) (h part : Nat) : UnitId :=
  if s.reserved (s.topNode h) h part then s.topNode h else .landing (chipRoot (s.desc h))

/-- The members that a packet covers on this chip, as places in the member set (06 R161). -/
def coverOf (d : Nat) (m : Bool) (maker i : Nat) : List Nat :=
  if !m then [i]
  else
    let l := dBase d + i * 2 ^ dExp d
    (List.range (dNum d)).filter (fun j =>
      let x := dBase d + j * 2 ^ dExp d
      if maker = 1 then x / 16 == l / 16 else if maker = 2 then x / 256 == l / 256 else true)

/-- Maker of a contribution: inline byte 3 [2:0] (02 R50). -/
def makerOf (h : Header) : Nat := bitsAt h.inl.toNat 24 3
/-- Launch count of a contribution: inline bytes 0 to 2 (02 R50). -/
def launchOf (h : Header) : Nat := bitsAt h.inl.toNat 0 24
/-- Lowest rank that a packet covers (02 R50). -/
def lowRank (h : Header) : Nat := bitsAt h.aux.toNat 0 24
/-- Whether a packet carries a partial (06 R145). -/
def isPartial (h : Header) : Bool := h.aux.toNat.testBit 31

/-- Whether a REDUCE_CONTRIB covers every member of its chip (07 R384). -/
def wholeChip (d : Nat) (h : Header) : Bool :=
  isPartial h && makerOf h != 5 && (coverOf d true (makerOf h) (lowRank h % dNum d)).length == dNum d

/-- Handle of a collective field (02 R48). -/
def collHandle (h : Header) : Nat := bitsAt h.coll.toNat 9 12

/-- The lowest rank that a partial of stage `i` covers when `q` is its lowest position on that stage's axis: position 0 on the axes
before, this chip's own on those after (07 R189 to R191). -/
def State.stageLow (s : State) (d : Nat) (axes : List Nat) (i q : Nat) : Nat :=
  (dAxes d).foldl (fun n a => n * dExtent d a +
    (if (axes.take i).contains a then 0 else if axes.getD i 4 = a then q else s.posOf d s.chipNo a)) 0 * dNum d

/-- The level at which a REDUCE_CONTRIB for this chip turns down (07 R384). -/
def State.turnLevel (s : State) (h : Header) : Nat :=
  let d := s.desc (collHandle h)
  if makerOf h = 5 ∨ (1 < chipCount d ∧ wholeChip d h) then 3 else topLevel d

/-- The stage of the cross-chip algorithm that a partial of another chip belongs to: the last axis, in the order of the
selection, on which the chip of its lowest rank stands elsewhere (07 R189 to R191; log entry 118). -/
def State.stageOfLow (s : State) (h : Header) : Nat :=
  let d := s.desc (collHandle h)
  let ps := indexPositions d (lowRank h / dNum d)
  let axes := (s.selection (collHandle h) (launchOf h)).axes
  ((List.range axes.length).reverse.find? (fun i =>
    let a := axes.getD i 0
    ps.any (fun x => x.1 == a && x.2 != s.posOf d s.chipNo a))).getD 0

/-- The stage of RING's all-gather that brings a result of another chip: the axis on which that chip stands elsewhere (07 R191). -/
def State.gatherStage (s : State) (h : Header) : Nat :=
  let d := s.desc (collHandle h)
  let axes := (s.selection (collHandle h) (launchOf h)).axes
  ((List.range axes.length).find? (fun i =>
    s.posOf d (chipOf h.src) (axes.getD i 0) != s.posOf d s.chipNo (axes.getD i 0))).getD 0

/-- The hall that is the cross-chip node of a partial: that of its stage for one that another chip has sent, that of its plane
hint for one of the whole chip (07 R384, R185, R189); none for other contributions, and where the node is the chip root landing. -/
def State.overHall (s : State) (h : Header) : Option Nat :=
  let k := collHandle h
  let at_ (n : Nat) : Option Nat := if s.crossReserved (.hall n) k then some n else none
  if makerOf h = 5 then at_ (hallOfAxis ((s.selection k (launchOf h)).axes.getD (s.stageOfLow h) 0))
  else if 1 < chipCount (s.desc k) ∧ wholeChip (s.desc k) h then at_ h.plane.toNat
  else none

/-- Whether an input port of a unit faces the level above it. -/
def fromAbove (u : UnitId) (inp : Nat) : Bool :=
  match u with
  | .stair _ => decide (16 ≤ inp ∧ inp < 4095)
  | .gallery _ => decide (128 ≤ inp ∧ inp < 4095)
  | _ => false

/-- What the climb of a REDUCE_CONTRIB for this chip asks at a unit that it entered by port `inp` (07 R384, R185): the way over
to its cross-chip node; the up route, while it has not come down from its turn point and the unit is below the level at which it
turns down; or nothing. -/
def State.climbing (s : State) (u : UnitId) (inp : Nat) (h : Header) : Climb :=
  if h.command.toNat ≠ 0x20 ∨ h.mcast = 1#1 ∨ chipOf h.dst ≠ s.chipNo then .none
  else
    let rise : Climb := if !fromAbove u inp && u.level < s.turnLevel h then .up else .none
    match u, s.overHall h with
    | .hall _, some m => .over m
    | .gallery _, some m => if fromAbove u inp then .over m else rise
    | _, _ => rise

/-! ## Pieces of the cross-chip stages (07 R190, R191) -/

/-- Consecutive block numbers as runs (first, length) of at most `k`. -/
def runs (k : Nat) (bs : List Nat) : List (Nat × Nat) :=
  (bs.foldl (fun (acc : List (Nat × Nat)) b => match acc with
    | (f, n) :: r => if f + n = b ∧ n < k then (f, n + 1) :: r else (b, 1) :: (f, n) :: r
    | [] => [(b, 1)]) []).reverse

/-- The halves of a range of blocks (07 R191). -/
def halfOf (range : List Nat) (plus : Bool) : List Nat :=
  if plus then range.take (range.length / 2) else range.drop (range.length / 2)

/-- Part `j` of a half, of `n` (07 R191). -/
def partOfHalf (half : List Nat) (n j : Nat) : List Nat :=
  (half.take ((j + 1) * half.length / n)).drop (j * half.length / n)

/-- The blocks that a chip at position `q` holds after the reduce-scatter of an axis (07 R191). -/
def ringHeld (range : List Nat) (n q : Nat) : List Nat :=
  partOfHalf (halfOf range true) n ((q + 1) % n) ++ partOfHalf (halfOf range false) n ((q + n - 1) % n)

/-- The range of blocks that this chip's node works on at stage `i` of RING. -/
def State.ringRange (s : State) (d : Nat) (axes : List Nat) (blocks i : Nat) : List Nat :=
  (axes.take i).foldl (fun r a => ringHeld r (dExtent d a) (s.posOf d s.chipNo a)) (List.range blocks)

/-- The half and part of a block in a range: whether it is of the + half, and its part. -/
def ringPart (range : List Nat) (n b : Nat) : Bool × Nat :=
  let plus := (halfOf range true).contains b
  (plus, ((List.range n).find? (fun j => (partOfHalf (halfOf range plus) n j).contains b)).getD 0)

/-- Positions from `a` upward to `b` on a cycle of `n`, as a bit mask. -/
def cycleMask (n a b : Nat) : Nat :=
  (List.range ((b + n - a) % n + 1)).foldl (fun m i => m ||| 2 ^ ((a + i) % n)) 0

/-- Trailing zeros of a position, at most 8. -/
def trailing (q : Nat) : Nat := ((List.range 8).find? (fun i => q % 2 ^ (i + 1) ≠ 0)).getD 8

/-- What a stage of HALVING or RING does with a block at a position (07 R190, R191): the positions that must have been
combined, and the position that the result goes to next, none for the stage's owner. -/
def stagePlan (cross : Nat) (range : List Nat) (n q b : Nat) : Nat × Option Nat :=
  if cross = 1 then
    (if q = 0 then (2 ^ n - 1, none)
     else (cycleMask n q (Nat.min (q + 2 ^ trailing q) n - 1), some (q - 2 ^ trailing q)))
  else
    let r := ringPart range n b
    if r.1 then (cycleMask n r.2 q, if (q + 1) % n = r.2 then none else some ((q + 1) % n))
    else (cycleMask n q r.2, if (q + n - 1) % n = r.2 then none else some ((q + n - 1) % n))

/-- The pieces of a stage that hold its coverage: (first block, blocks) runs of at most `k` blocks, aligned to the chunks of
07 R184 for HALVING, to the parts for RING. -/
def stagePieces (cross : Nat) (range : List Nat) (n k : Nat) : List (Nat × Nat) :=
  if cross = 1 then
    let m := range.length
    (List.range ((m + 63) / 64)).flatMap (fun i => runs k ((range.take (64 * i + 64)).drop (64 * i)))
  else
    [true, false].flatMap (fun plus => (List.range n).flatMap (fun j => runs k (partOfHalf (halfOf range plus) n j)))

end Sys2Proof.Machine
end

