-- ==== Sys2Proof/Machine/Packet.lean ====
section
/-!
DEFINITION. Packets at a unit: the command table (02 R49), the receipt checks of a header (02 R54), the packets that
a unit makes in answer or of its own accord (02 R45, R51; 09 R263), admission (10 R270), and the packets that a unit
holds.
-/
namespace Sys2Proof.Machine

/-- A row of the command table (02 R49): whether the scheduled class may carry it, its VCs, the least and greatest
length, and the permitted multicast bits. -/
structure CmdRow where
  code : Nat
  sched : Bool
  vcs : List Nat
  lo : Nat
  hi : Nat
  m : List Nat
deriving DecidableEq, Repr

/-- Commands 0x01 to 0x12. -/
def cmdRowsA : List CmdRow :=
  [ ⟨0x01, true, [1, 5], 1, 64, [0]⟩, ⟨0x02, true, [1], 0, 0, [0]⟩, ⟨0x03, false, [1], 0, 0, [0]⟩
  , ⟨0x04, false, [2], 1, 64, [0]⟩, ⟨0x05, false, [2], 0, 0, [0]⟩, ⟨0x06, false, [2], 0, 0, [0]⟩
  , ⟨0x07, true, [1], 0, 0, [0]⟩, ⟨0x08, true, [1, 5], 1, 64, [0]⟩, ⟨0x10, true, [5], 1, 64, [1]⟩
  , ⟨0x11, true, [5], 1, 64, [1]⟩, ⟨0x12, false, [2], 0, 0, [0]⟩ ]

/-- Commands 0x20 to 0x43. A REDUCE_CONTRIB is multicast by GATHER_FOLD only (07 R192, log entry 12). -/
def cmdRowsB : List CmdRow :=
  [ ⟨0x20, true, [3], 1, 64, [0, 1]⟩, ⟨0x21, true, [3], 1, 64, [0, 1]⟩, ⟨0x22, false, [3], 0, 64, [0, 1]⟩
  , ⟨0x23, false, [3], 0, 0, [0]⟩, ⟨0x24, false, [2], 0, 0, [0]⟩, ⟨0x25, false, [2], 0, 0, [0]⟩
  , ⟨0x26, false, [3], 0, 0, [0]⟩, ⟨0x30, false, [4], 0, 64, [0]⟩, ⟨0x31, false, [4], 0, 64, [0]⟩
  , ⟨0x32, false, [4], 0, 0, [0]⟩, ⟨0x33, false, [4], 1, 64, [0]⟩, ⟨0x34, false, [4], 0, 0, [0]⟩
  , ⟨0x35, false, [2], 0, 0, [0]⟩, ⟨0x40, false, [4], 0, 0, [0]⟩, ⟨0x41, false, [4], 0, 0, [0]⟩
  , ⟨0x42, false, [1, 2, 3, 4, 5], 0, 0, [0]⟩, ⟨0x43, false, [4], 0, 0, [0]⟩ ]

/-- The command table (02 R49). -/
def cmdRows : List CmdRow := cmdRowsA ++ cmdRowsB

/-- The row of a command code. -/
def cmdRow (c : Nat) : Option CmdRow := cmdRows.find? (fun r => r.code == c)

/-- Whether an operation and a format are a valid pair (06 R144). -/
def validPair (op fmt : Nat) : Bool :=
  (op == 0 && fmt < 8) || ((op == 1 || op == 2) && fmt < 8) || ((op == 3 || op == 4 || op == 5) && fmt < 3) ||
    (op == 6 && fmt == 2) || ((op == 7 || op == 8) && fmt < 8) || (op == 9 && fmt == 7)

/-- Operation of a collective field (02 R48). -/
def collOp (h : Header) : Nat := bitsAt h.coll.toNat 28 4
/-- Format of a collective field. -/
def collFormat (h : Header) : Nat := bitsAt h.coll.toNat 24 4
/-- Partial form of a collective field. -/
def collForm (h : Header) : Nat := bitsAt h.coll.toNat 22 2
/-- Integer-wrap bit of a collective field. -/
def collWrap (h : Header) : Bool := h.coll.toNat.testBit 21
/-- The first check of 02 R54, 1 to 7, that a header fails; none when it passes them. -/
def headerFault (h : Header) : Option Nat :=
  if h.version ≠ 1#2 then some 1
  else match cmdRow h.command.toNat with
    | none => some 2
    | some r =>
      if h.cls = 1#1 ∧ !r.sched then some 3
      else if h.cls = 0#1 ∧ !r.vcs.contains h.vc.toNat then some 4
      else if h.length.toNat < r.lo ∨ r.hi < h.length.toNat ∨ !r.m.contains h.mcast.toNat ∨
          (h.command.toNat = 0x20 ∧ h.mcast = 1#1 ∧ collOp h ≠ 9) then some 5
      else if 512 ≤ h.part.toNat ∧ h.part.toNat ≠ 1023 then some 6
      else if 0x20 ≤ h.command.toNat ∧ h.command.toNat ≤ 0x2F ∧
          (!validPair (collOp h) (collFormat h) ∨ collForm h = 3) then some 7
      else none

/-- The checks of 02 R54 that a switch or pavilion makes on its way: 1 to 6. -/
def hopFault (h : Header) : Option Nat := (headerFault h).filter (· != 7)

/-- Whether a request that a fence or a domain going down refuses draws an ERROR_RESP (10 R270, R279). -/
def drawsError (h : Header) : Bool :=
  [0x01, 0x02, 0x03, 0x07, 0x08, 0x30].contains h.command.toNat

/-- Whether a count exchange is the one that chip roots multicast to each other (07 R183). -/
def State.toRootGroup (s : State) (h : Header) : Bool :=
  h.command.toNat == 0x22 && h.mcast == 1#1 && h.dst.toNat % 2 ^ 20 == dRootGroup (s.desc (collHandle h))

/-- Whether 02 R382 answers a command, so that a destination that cannot apply it returns an ERROR_RESP (02 R52, R381). -/
def State.callsAnswer (s : State) (h : Header) : Bool :=
  [0x01, 0x02, 0x03, 0x07, 0x08, 0x10, 0x11, 0x23, 0x30, 0x40].contains h.command.toNat ||
    (h.command.toNat == 0x22 && h.mcast == 0#1) || s.toRootGroup h

/-! ## Made packets -/

/-- The header of a packet that a unit makes in answer to another (02 R46, R49, R51; 09 R263). -/
def answerHeader (cmd vc : Nat) (h : Header) (src : BitVec 24) (aux : BitVec 32) (inl : BitVec 256) : Header :=
  { version := 1, cls := 0, vc := BitVec.ofNat 3 vc, command := BitVec.ofNat 8 cmd, mcast := 0, tag := h.tag
    part := h.part, src := src, dst := h.src, plane := h.plane, length := 0, stream := h.stream, seq := h.seq
    addr := 0, depSlot := 0, coll := 0, aux := aux, stamp := 0, rsv := 0, inl := inl }

/-- A header of a unit's own accord (09 R263). -/
def State.ownHeader (s : State) (cmd vc : Nat) (part : Nat) (src dst : BitVec 24) (aux : BitVec 32) (inl : BitVec 256) : Header :=
  { version := 1, cls := 0, vc := BitVec.ofNat 3 vc, command := BitVec.ofNat 8 cmd, mcast := 0
    tag := BitVec.ofNat 4 s.ctl.epoch.toNat, part := BitVec.ofNat 10 part, src := src, dst := dst, plane := 0
    length := 0, stream := 0, seq := 0, addr := 0, depSlot := 0, coll := 0, aux := aux, stamp := 0, rsv := 0, inl := inl }

/-- Put a packet into the hold of a unit under a new number. -/
def State.hold (s : State) (u : UnitId) (x : Held) : State :=
  s.onNode u (fun n => { n with held := n.held ++ [{ x with id := n.nextId }], nextId := n.nextId + 1 })

/-- Change a held packet. -/
def State.onHeld (s : State) (u : UnitId) (id : Nat) (f : Held → Held) : State :=
  s.onNode u (fun n => { n with held := n.held.map (fun x => if x.id = id then f x else x) })

/-- The copies of a packet on some ports. -/
def copies (ps : List Nat) : List HeldOut := ps.map (fun p => { port := p, sent := 0 })

/-- A packet that finds no way from the unit that made it is discarded, counted and reported (00 R10; 04, "Packets meeting a
router under change"). -/
def State.dropMade (s : State) (u : UnitId) (cause : Nat) (h : Header) : State :=
  let s := s.event u 0 0x07 h.part.toNat (vcOf h) 0 1
  if cause = 7 then s.traceDrop u 0 7 h
  else if cause = 9 then s.malformed u 0 h
  else (s.traceDrop u 0 8 h).raise u 2 0x008 h.part.toNat (ctxPacket 0 h)

/-- A packet that a switch or pavilion makes: it is held with no input and routed at once; a service packet bound for another
chip travels on the back stair from its source (02 R51; 04 R116). -/
def State.makeAt (s : State) (u : UnitId) (h : Header) (data : List Payload) (resend : Bool := false) : State :=
  let lane : Lane := if h.part = 1023#10 ∧ chipOf h.dst ≠ s.chipNo ∧ h.mcast = 0#1 then .escape else .normal
  let put (outs : List HeldOut) : State :=
    s.hold u { id := 0, inp := 4095, lane := lane, hdr := h, buf := h.vc.toNat, rel := s.now u
               units := unitsOf h data resend, freed := 0, closed := true, outs := outs }
  match s.route u 4095 (wayOf lane h.vc.toNat) (s.climbing u 4095 h) h with
  | .ports ps => put (copies ps)
  | .wait => put []
  | .take => s
  | .discard c => s.dropMade u c h

/-- The port that an endpoint's packets come by: a landing's stair link, or the hall link 0 of a special endpoint. -/
def epPort (e : Nat) : Nat := if e < 2048 then 1 else 0

/-- A READ_RESP or SERVICE_RESP that leaves gives back the place of its request in the read-service queue (04 R109). -/
def State.readServed (s : State) (e : Nat) (h : Header) : State :=
  if h.command = 0x04#8 ∨ h.command = 0x31#8 then
    match (s.ep e).reads.find? (fun p => p.hdr.src == h.dst && p.hdr.stream == h.stream && p.hdr.seq == h.seq) with
    | some p => s.onEp e (fun x => { x with reads := x.reads.erase p })
    | none => s
  else s

/-- Queue a packet at an endpoint's output. One to an address that no endpoint has is discarded and counted (01 R21). -/
def State.queueTx (s : State) (e : Nat) (kind : TxKind) (h : Header) (data : List Payload) (entry : Nat) : State :=
  if h.mcast = 0#1 ∧ !s.endpointHere h.dst then (s.readServed e h).malformed (epUnit e) (epPort e) h
  else s.onEp e (fun x => { x with tx := x.tx ++ [{ kind := kind, hdr := h, data := data, entry := entry, since := s.now (epUnit e) }] })

/-- Send a packet from a unit: an endpoint queues it as an answer, a switch or pavilion holds it. -/
def State.makeFrom (s : State) (u : UnitId) (h : Header) (data : List Payload) : State :=
  match epOf u with
  | some e => s.queueTx e .answer h data 64
  | none => s.makeAt u h data

/-- ACK, NACK and ERROR_RESP of an endpoint go through its answer queue of 128; past that the answer is shed and
counted, at a special endpoint as a discard (04 R109). -/
def State.answer (s : State) (e : Nat) (h : Header) : State :=
  if ((s.ep e).tx.filter (fun x => x.kind == .answer && [5, 6, 0x35].contains x.hdr.command.toNat)).length < 128 then
    s.queueTx e .answer h [] 64
  else if e < 2048 then s.bump 0x102004 (8192 + e) 0 0 0 16 1
  else s.event (epUnit e) (epPort e) 0x07 h.part.toNat (vcOf h) 0 1

/-- The inline payload of an ACK or NACK: the time stamp of the packet answered (02 R50). -/
def stampInline (h : Header) : BitVec 256 := h.stamp.setWidth 256

/-- Answer with ACK (02 R60). -/
def State.ack (s : State) (e : Nat) (h : Header) (status : Nat) : State :=
  s.answer e (answerHeader 5 2 h (s.addrOf e) (BitVec.ofNat 32 status) (stampInline h))

/-- Answer with NACK (02 R60). -/
def State.nack (s : State) (e : Nat) (h : Header) (reason : Nat) : State :=
  s.answer e (answerHeader 6 2 h (s.addrOf e) (BitVec.ofNat 32 reason) (stampInline h))

/-- The header bits [511:256] of a failed request (02 R50). -/
def upperHeader (h : Header) : BitVec 256 := (packHeader h).extractLsb' 256 256

/-- Answer a failed request with ERROR_RESP (02 R51). An endpoint is its source itself; a switch or pavilion writes
the request's destination. -/
def State.error (s : State) (u : UnitId) (h : Header) (code : Nat) : State :=
  let a := answerHeader 0x35 2 h h.dst (BitVec.ofNat 32 code) (upperHeader h)
  match epOf u with
  | some e => s.answer e { a with src := s.addrOf e }
  | none => s.makeAt u a []

/-! ## Admission (10 R270, R271; 01 R34) -/

/-- Whether a unit holds the stop bit of a partition (10 R271). -/
def State.stopped (s : State) (u : UnitId) (part : Nat) : Bool := (s.node u).stop.contains part

/-- Whether landing `l` admits a header: its map entry, its fence and the stop bit, in both banks during a tag window
for a header of the previous tag (10 R270, 09 R264). -/
def State.admits (s : State) (u : UnitId) (l : Nat) (h : Header) : Bool :=
  let p := h.part.toNat
  p == 1023 || (!s.stopped u p && (let ok (x : State) := x.partOf l == p && !x.fenced l
    ok s && (!s.oldTag h || match s.bank h with | some x => ok x | none => false)))

/-- Whether a pavilion enables a partition (01 R34). -/
def State.pavEnables (s : State) (p part : Nat) : Bool :=
  part == 1023 || (s.word 0x281101 (5 * 8192 + p) 0 (part / 64)).testBit (part % 64)

/-- What the unit that refuses a header under 10 R270 does beside discarding it. -/
def State.refuseAdmission (s : State) (u : UnitId) (port : Nat) (h : Header) : State :=
  let s := (s.event u port 0x07 h.part.toNat (vcOf h) 0 1).traceDrop u port 3 h
  if drawsError h ∧ h.cls = 0#1 ∧ !s.stopped u h.part.toNat then s.error u h 0x02 else s

/-- A header that a unit cannot send on: a discard with the cause of `Route`, or an answer 0x01 where a domain is
going down or asleep (04, 10 R279). -/
def State.refuseRoute (s : State) (u : UnitId) (port cause : Nat) (h : Header) : State :=
  let s := s.event u port 0x07 h.part.toNat (vcOf h) 0 1
  if cause = 7 then
    let s := s.traceDrop u port 7 h
    if drawsError h then (s.bump 0x802004 (instOf u) 0 0 16 16 1).error u h 0x01 else s
  else if cause = 9 then s.malformed u port h
  else (s.traceDrop u port 8 h).raise u 2 0x008 h.part.toNat (ctxPacket port h)

end Sys2Proof.Machine
end

