-- ==== Sys2Proof/Machine/Fabric.lean ====
section
/-!
DEFINITION. The fabric of 01: what a unit does at a slot boundary (R380: releases, presence decisions, departures),
arrivals of units and of credit words, fabric-time loads, the service tree, and the governors.
-/
namespace Sys2Proof.Machine

/-! ## Slot tables and lanes -/

/-- Whether a port carries an entry of a partition at half rate (03 R81). -/
def State.portHalf (s : State) (u : UnitId) (port : Nat) : Bool :=
  s.dict.any (fun kv => keyId kv.1 == 0x182003 && keyInst kv.1 == instOf u && keyRow kv.1 / 4096 == port && keyWord kv.1 == 1 &&
    kv.2 != 0#64 && [2, 3].contains (s.part (kv.2.toNat - 1)).rate)

/-- The slot-table index that a port reads at fabric time `t`: at half rate none at an odd slot, and at an even one (t >> 1) where
the port carries an entry of the rate group (03 R81). -/
def State.tableIndex (s : State) (u : UnitId) (port t : Nat) : Option Nat :=
  if (s.node u).half then (if t % 2 = 0 then some ((if s.portHalf u port then t / 2 else t) % 4096) else none) else some (t % 4096)

/-- Whether a port has a slot table (03 R65, R66). -/
def hasTable (u : UnitId) (port : Nat) : Bool :=
  match u with
  | .landing _ => port == 1
  | .stair _ | .gallery _ | .hall _ => true
  | _ => false

/-- The active entry of a port at `t`; EMPTY where it has no table. -/
def State.entryAt (s : State) (u : UnitId) (port t : Nat) : Nat :=
  if hasTable u port then (match s.tableIndex u port t with | some i => s.slotEntry u port i | none => 0) else 0

/-- Kind of a slot-table entry: 0 EMPTY, 1 SCHED, 2 REPAIR (03 R66). -/
def entryKind (e : Nat) : Nat := e / 2 ^ 14 % 4

/-- Frame length of a partition; 0 without a plan. -/
def State.frameLen (s : State) (p : Nat) : Nat := if (s.part p).run then (s.part p).frameLen else 0

/-- The frame of a partition in which fabric time `t` lies, hold frames counted (03 R61, R81). -/
def State.frameAt (s : State) (p t : Nat) : Nat :=
  let x := s.part p
  if x.frameLen = 0 then 0
  else x.f1 + (t - x.e1) / (if x.rate = 2 ∨ x.rate = 3 then 2 * x.frameLen else x.frameLen)

/-- The slot within the frame of fabric time `t`, none at an odd slot at half rate (03 R61, R81). -/
def State.slotInFrame (s : State) (p t : Nat) : Option Nat :=
  let x := s.part p
  if x.frameLen = 0 then none
  else if x.rate = 2 ∨ x.rate = 3 then
    (if (t - x.e1) % 2 = 0 then some ((t - x.e1) / 2 % x.frameLen) else none)
  else some (t % x.frameLen)

/-- Whether a frame of a partition is a hold frame (03 R78). -/
def State.isHold (s : State) (p f : Nat) : Bool :=
  let x := s.part p
  (x.holding && f == x.frames) || (f > x.frames && x.holdAt.contains f)

/-- The plan frame number that runs in a frame (03 R61). -/
def State.planFrame (s : State) (p f : Nat) : Nat :=
  let x := s.part p
  f - x.holds - (x.holdAt.filter (fun g => x.frames < g ∧ g < f)).length

/-- Whether the active transmit entry of the cell of slot `t` lists the unit of a hall link (03 R84). -/
def State.cellLists (s : State) (p link t : Nat) : Bool :=
  let i := instOf (.pavilion p)
  let row := t / 16 % 512
  let e := s.word 0x183002 i row 0 + s.word 0x183002 i row 1 * 2 ^ 64
  (List.range (bitsAt e 123 5)).any (fun k => bitsAt e (5 * k + 13) 5 == link * 16 + t % 16)

/-- How far slot `t` lies behind a slot of a partition's frame. -/
def State.slotsSince (s : State) (p i t : Nat) : Option Nat :=
  (s.slotInFrame p t).map (fun k => (k + (s.part p).frameLen - i) % (s.part p).frameLen)

/-- The scheduled receive descriptors of a landing whose arrival slot lies `k` slots before `t`, for a `k` that `ok` admits (05
R130). -/
def State.rxAt (s : State) (l t : Nat) (ok : Nat → Nat → Bool) : List Nat :=
  let p := s.partOf l
  if s.frameLen p = 0 then []
  else ((s.tile l).rxs.map (fun r => r.2.desc.toNat)).filter (fun d =>
    match s.slotsSince p (bitsAt d 181 12) t with
    | some k => ok d k
    | none => false)

/-- Whether an input expects a scheduled unit at `t` (04 R93): a switch by its active entries, a landing by the arrivals that its
receive descriptors place, a pavilion by its transmit cell table. -/
def State.expects (s : State) (u : UnitId) (port t : Nat) : Bool :=
  match u with
  | .landing l => !(s.rxAt l t (fun d k => decide (k ≤ bitsAt d 174 7))).isEmpty
  | .pavilion p => port < 2 && s.cellLists p port t
  | _ => isSwitch u && (outPorts u).any (fun o =>
      let e := s.entryAt u o t
      entryKind e == 1 && e % 256 == port)

/-- Whether the slot of a released unit is a REPAIR slot of its input: the far port's entry at the departure. A pavilion has no
slot table: every slot of its hall links can carry a resend (03 R74; log entry 119). -/
def State.repairSlot (s : State) (u : UnitId) (port dep : Nat) : Bool :=
  match peer u port with
  | some (.pavilion _, _) => true
  | some (v, q) => entryKind (s.entryAt v q dep) == 2
  | none => true

/-- The buffer of a lane of a packet at an on-die input (04 R96, 03 R74): VC0 for the escape lane, the VC of the header,
or the repair half of the next pavilion hop's dateline class. -/
def State.bufferOf (s : State) (lane : Lane) (h : Header) : Nat :=
  match lane with
  | .escape => 0
  | .normal => vcOf h
  | .resend => s.repairBuffer h
  | .sched => 8

/-- The receive buffer of a pavilion that a lane of a packet lies in: VC0 and the repair half of a dateline class, or a VC (08
R218). -/
def linkBuffer (lane : Lane) (vc cls : Nat) : Nat :=
  match lane with
  | .escape => cls
  | .normal => vc + 1
  | .resend => 7 + cls
  | .sched => 9

/-- The sender's credit for a buffer of a pavilion's peer (08 R218). -/
def Pavilion.credit (v : Pavilion) (b : Nat) : Nat :=
  v.peerSize.get 0 b - (v.sent.get 0 b + 4096 - v.ret.get 0 b) % 4096

/-- The dateline class of the hop across a pavilion towards a chip. -/
def State.crossClass (s : State) (dst p : Nat) : Nat := s.hopClass dst (facing p).axis

/-- The buffer at the peer that a lane of a packet takes. -/
def State.peerBuffer (s : State) (p : Nat) (lane : Lane) (h : Header) : Nat :=
  linkBuffer lane (vcOf h) (s.crossClass (chipOf h.dst) p)

/-- Whether a training state sends cell frames (08 R225); in LANE_SYNC only the cells that ask for the retraining. -/
def sendsCells (v : Pavilion) : Bool :=
  match v.st with
  | .exchange | .measure | .check | .upUnmapped | .up | .miscabled => true
  | .laneSync => decide (0 < v.retrainCells)
  | _ => false

/-- The buffer of a lane of a packet at an input: those of a pavilion's line are numbered from 16 (08 R218). -/
def State.inBuffer (s : State) (u : UnitId) (port : Nat) (lane : Lane) (h : Header) : Nat :=
  match u with
  | .pavilion p => if port = 2 then 16 + linkBuffer lane (vcOf h) (s.arrivalClass (chipOf h.dst) p) else s.bufferOf lane h
  | _ => s.bufferOf lane h

/-- Units leave a buffer of an input (04 R96; 08 R218). -/
def State.freeBuf (s : State) (u : UnitId) (port b n : Nat) : State :=
  if b < 8 ∧ port < 4095 ∧ 0 < n then
    s.onIn u port (fun p => { p with freed := p.freed.modify 0 b (fun v => (v + n) % 32) })
  else match u with
    | .pavilion p => if 16 ≤ b ∧ 0 < n then s.onPav p (fun x => { x with freed := x.freed.modify 0 (b - 16) (fun v => (v + n) % 4096) }) else s
    | _ => s

/-- The open packet of a lane at an input. -/
def InPort.laneOpen (p : InPort) : Lane → Option Nat
  | .normal => p.norm
  | .escape => p.esc
  | .resend => p.resend
  | .sched => none

/-- Set the open packet of a lane at an input. -/
def InPort.setLane (p : InPort) (l : Lane) (x : Option Nat) : InPort :=
  match l with
  | .normal => { p with norm := x }
  | .escape => { p with esc := x }
  | .resend => { p with resend := x }
  | .sched => { p with sched := none }

/-- Discard the rest of a packet at an input lane whose buffer is `b`, unless its last unit has come. -/
def State.dropRest (s : State) (u : UnitId) (port : Nat) (lane : Lane) (b : Nat) (last : Bool) : State :=
  let s := s.onIn u port (fun p => p.setLane lane none)
  if last then s else s.onIn u port (fun p => { p with dropping := (lane, b) :: p.dropping.filter (fun x => x.1 != lane) })

/-- The FORCED bit of the context of a fault that a unit damaged under a fault force causes (02 R40). -/
def forcedBit (forced : Bool) : Nat := if forced then ctxForced else 0

/-- A truncation fault: an uncorrectable unit of a packet (02 R59). -/
def State.truncFault (s : State) (u : UnitId) (sub port : Nat) (h : Header) (forced : Bool) : State :=
  s.raise u sub 0x002 h.part.toNat (ctxPacket port h + forcedBit forced)

/-- A discarded packet of a lane: counted, and traced under a cause (13 R331, R339). -/
def State.dropHeader (s : State) (u : UnitId) (port cause : Nat) (h : Header) : State :=
  (s.event u port 0x07 h.part.toNat (vcOf h) 0 1).traceDrop u port cause h

/-- A scheduled unit that nothing claims: discarded, counted and reported (03 R67). -/
def State.unclaimedUnit (s : State) (u : UnitId) (port : Nat) (h : Header) : State :=
  (s.dropHeader u port 5 h).raise u 1 0x005 h.part.toNat (ctxPacket port h)

/-! ## What a switch takes itself -/

/-- Whether a switch takes a REDUCE_CONTRIB for a handle that it holds a reservation for: on die from the ports below it, a
whole-chip partial or a partial of another chip at the hall of a cross-chip reservation (06 R156, 07 R185, R189). A
repeated contribution passes a switch that holds no entries for its chunk (07 R196). -/
def State.takesContrib (s : State) (u : UnitId) (port : Nat) (h : Header) (resend : Bool) : Bool :=
  let k := collHandle h
  let d := s.desc k
  let has := (s.sw u).chunks.any (fun c => c.handle == k && c.first ≤ h.addr.toNat / 64 && h.addr.toNat / 64 < c.first + c.blocks)
  h.mcast == 0#1 && chipOf h.dst == s.chipNo && s.reserved u k h.part.toNat && (!resend || has) &&
    (if makerOf h = 5 || (1 < chipCount d && wholeChip d h) then
       (match u with | .hall n => s.overHall h == some n && port < 72 | _ => false)
     else
       (dOp d != 9 || u == s.topNode k) &&
         (match u with | .stair _ => port < 16 | .gallery _ => port < 128 | .hall _ => port < 64 | _ => false))

/-- Whether a unit takes a packet out of the flow: contributions that meet a reservation (07 R185), all-gather results at a
cross-chip node (07 R191), reservation requests and releases at their apex (07 R182), answers to a multicast record (07
R202), trace packets while the belvedere does not stream (13 R341), drain marks (04 R114). -/
def State.consumes (s : State) (u : UnitId) (port : Nat) (h : Header) (resend : Bool) : Bool :=
  let c := h.command.toNat
  let own := chipOf h.dst == s.chipNo
  if c = 0x42 then true
  else if !isSwitch u then false
  else if c = 0x20 then s.takesContrib u port h resend
  else if c = 0x21 then
    h.mcast == 0#1 && own && (match u with
      | .hall n => 64 ≤ port && port < 72 && s.crossReserved u (collHandle h) &&
          hallOfAxis ((s.selection (collHandle h) (launchOf h)).axes.getD (s.gatherStage h) 0) == n
      | _ => false)
  else if c = 0x23 ∨ c = 0x26 then own && isApex u port (localOf h.dst)
  else if c = 5 ∨ c = 6 then
    match u with
    | .stair _ => port < 16 && (s.sw u).reports.any (fun r =>
        r.2.hdr.src == h.dst && r.2.hdr.stream == h.stream && r.2.hdr.seq == h.seq)
    | _ => false
  else if c = 0x33 then
    !s.streaming && (match u with | .gallery _ => port < 128 | .hall _ => 64 ≤ port && port < 85 | _ => false)
  else false

/-! ## Multicast at a unit (07 R199 to R202) -/

/-- Whether the members answer a multicast packet, so that stairs keep records of it: multicast writes, and the count
exchange to a root group (02 R382, 07 R183). -/
def State.reported (s : State) (h : Header) : Bool :=
  h.command.toNat == 0x10 || h.command.toNat == 0x11 ||
    (h.command.toNat == 0x22 && h.dst.toNat % 2 ^ 20 == dRootGroup (s.desc (collHandle h)))

/-- The chunks left when the result of `n` blocks from `first` of a handle has passed: a chunk goes once all of its blocks' results
have (06 R164). -/
def passResult (k first n : Nat) (cs : List Chunk) : List Chunk :=
  cs.filterMap (fun c =>
    if c.handle == k && c.done && meets c.first c.blocks first n then
      let p := c.passed ++ [(first, n)]
      if uncovered p c.first c.blocks = 0 then none else some { c with passed := p }
    else some c)

/-- A REDUCE_RESULT that passes downward through a switch, or that it sends, frees the entries of its chunk (06 R164). -/
def State.freeChunk (s : State) (u : UnitId) (h : Header) : State :=
  if h.command.toNat = 0x21 ∧ isSwitch u then
    s.onSw u (fun w => { w with chunks := passResult (collHandle h) (h.addr.toNat / 64) h.length.toNat w.chunks })
  else s

/-! ## The rate of the combining store (06 R166) -/

/-- Input units that a switch's store absorbs in a slot at its greatest rate. -/
def storeRate (u : UnitId) : Nat := match u with | .stair _ => 16 | _ => 32

/-- The share of that rate that a data unit of an operation and format takes. -/
def absorbCost (u : UnitId) (op fmt : Nat) : Nat :=
  if op = 9 then storeRate u else if op = 0 ∧ (fmt = 6 ∨ fmt = 7) then 4 else 1

/-- A data unit that a unit has taken in for itself leaves its input buffer: at once, but for a contribution at a switch, which is
held while its inputs arrive faster than the store's rate. -/
def State.absorbUnit (s : State) (u : UnitId) (port b : Nat) (h : Header) : State :=
  if h.command = 0x20#8 ∧ isSwitch u then
    let w := s.sw u
    let c := absorbCost u (collOp h) (collFormat h)
    if w.absorbing.isEmpty ∧ w.spent + c ≤ storeRate u then
      (s.onSw u (fun w => { w with spent := w.spent + c })).freeBuf u port b 1
    else s.onSw u (fun w => { w with absorbing := w.absorbing ++ [{ port := port, buf := b, cost := c, rel := s.now u, hdr := h }] })
  else s.freeBuf u port b 1

/-- The units held for a switch's store that a new slot absorbs, oldest first. -/
def State.absorbSlot (s : State) (u : UnitId) : State :=
  if (s.sw u).absorbing.isEmpty then (if (s.sw u).spent = 0 then s else s.onSw u (fun w => { w with spent := 0 }))
  else
    let r := (s.sw u).absorbing.foldl (fun (x : Nat × List Absorb × List Absorb) a =>
      if x.2.2.isEmpty && x.1 + a.cost ≤ storeRate u then (x.1 + a.cost, x.2.1 ++ [a], x.2.2) else (x.1, x.2.1, x.2.2 ++ [a])) (0, [], [])
    r.2.1.foldl (fun s a => s.freeBuf u a.port a.buf 1) (s.onSw u (fun w => { w with spent := r.1, absorbing := r.2.2 }))

/-- The report timer: half the initiator timeout in force for the source (07 R202, log entry 13). -/
def State.reportTime (s : State) (h : Header) : Nat :=
  (if chipOf h.src = s.chipNo ∧ !(List.range 4).any (fun k => match s.replication (.hall k) (h.dst.toNat % 2 ^ 20) h.part.toNat with
      | some m => (List.range 8).any (fun i => m.testBit (64 + i))
      | none => false) then s.val 0x100101 else s.val 0x100102) / 2

/-- The fenced and the admitting landings among the ports of a stair that deliver to one (07 R201). -/
def State.fencedPorts (s : State) (u : UnitId) (h : Header) (ps : List Nat) : List Nat :=
  ps.filter (fun p => match u with | .stair n => p < 16 && !s.admits u (16 * n + p) h | _ => false)

/-- A report record of a stair for the copies of a packet that it delivers (07 R202); an overflow is counted where every record is
busy. -/
def State.openReport (s : State) (u : UnitId) (h : Header) (lands fenced : List Nat) : State :=
  if !s.reported h || (lands.isEmpty && fenced.isEmpty) then s
  else match (List.range 256).find? (fun i => ((s.sw u).reports.find i).isNone) with
    | some i =>
      let rec_ : ReportRec := { hdr := h, ports := lands, answered := [], delivered := [], fenced := fenced
                                expires := s.now u + s.reportTime h }
      s.onSw u (fun w => { w with reports := w.reports.put i rec_ })
    | none => s.bump 0x220101 (instOf u) 0 0 16 16 1

/-- A scheduled multicast header at a stair: the slot tables replicate it, and its entry serves for the report of the landings that
it names (07 R200, R202). -/
def State.schedReport (s : State) (u : UnitId) (port : Nat) (h : Header) : State :=
  match u with
  | .stair _ =>
    if h.mcast = 0#1 then s
    else match (s.bank h).bind (fun b => b.mcastPorts u port h) with
      | none => s
      | some (ps, _) =>
        let lands := ps.filter (· < 16)
        let fenced := s.fencedPorts u h lands
        s.openReport u h (lands.filter (fun p => !fenced.contains p)) fenced
  | _ => s

/-- Begin the replication of a multicast packet: its copies, the fence check at a stair, a report record at a stair
that delivers, and a report of the drops of a gallery or hall. `bk` is the bank that serves the header. -/
def State.startMcast (s bk : State) (u : UnitId) (port : Nat) (lane : Lane) (h : Header) (units : List Flit) (closed : Bool) : State :=
  let b := s.inBuffer u port lane h
  match bk.mcastPorts u port h with
  | none =>
    let s := (s.event u port 0x07 h.part.toNat (vcOf h) 0 1).raise u 5 0x00A h.part.toNat (ctxPacket port h)
    (s.freeBuf u port b units.length).dropRest u port lane b closed
  | some (ps, lost) =>
    let fenced := s.fencedPorts u h ps
    let go := ps.filter (fun p => !fenced.contains p)
    let s := if fenced.isEmpty then s else s.bump 0x220102 (instOf u) 0 0 16 16 fenced.length
    let s := if lost.isEmpty then s else s.bump 0x220102 (instOf u) 0 0 0 16 lost.length
    let s := match u with
      | .stair _ => s.openReport u h (go.filter (· < 16)) fenced
      | _ =>
        if lost.isEmpty then s
        else
          let asleep := lost.any (fun p => match peer u p with | some (v, _) => s.asleep v | none => false)
          if asleep then s.error u h 0x01
          else
            let mask (l : List Nat) := l.foldl (fun a p => a + 2 ^ p) 0
            s.makeAt u (answerHeader 0x12 2 h (BitVec.ofNat 24 (h.dst.toNat % 2 ^ 20))
              (BitVec.ofNat 32 (u.level * 2 ^ 29 + u.inst * 2 ^ 17))
              (BitVec.ofNat 256 (mask go % 2 ^ 128 + mask lost % 2 ^ 128 * 2 ^ 128))) []
    if go.isEmpty then (s.freeBuf u port b units.length).dropRest u port lane b closed
    else
      let id := (s.node u).nextId
      let s := s.hold u { id := 0, inp := port, lane := lane, hdr := h, buf := b, rel := s.now u, units := units
                          freed := 0, closed := closed, outs := copies go }
      if closed then s else s.onIn u port (fun p => p.setLane lane (some id))

/-! ## Release (R27, 04 R93, 02 R59) -/

/-- Whether a pavilion enables the partition of a header in the current epoch, and in the bank that serves it (01 R34). -/
def State.enabledAt (s : State) (u : UnitId) (h : Header) : Bool :=
  match u with
  | .pavilion p => s.pavEnables p h.part.toNat && (match s.bank h with | some b => b.pavEnables p h.part.toNat | none => true)
  | _ => true

/-- A tenant packet whose partition a pavilion does not enable: discarded, counted, reported (01 R34). -/
def State.notEnabled (s : State) (u : UnitId) (port : Nat) (h : Header) : State :=
  ((s.dropHeader u port 3 h).bump 0x281204 (instOf u) 0 0 16 16 1).raise u 9 0x009 h.part.toNat (ctxPacket port h)

/-- A unit takes a packet in for itself: it is put together until LAST. -/
def State.takeHeader (s : State) (u : UnitId) (port : Nat) (lane : Lane) (h : Header) (f : Flit) : State :=
  if f.last then
    s.onNode u (fun n => { n with rxDone := n.rxDone ++
      [{ hdr := h, data := [], tail := f.tail, trunc := f.trunc, resend := f.resend }] })
  else s.onNode u (fun n => { n with assembling := n.assembling ++
    [{ inp := port, lane := lane, hdr := h, data := [], resend := f.resend }] })

/-- Start a packet whose good header a unit has released on the normal, escape or resend lane. The tables are those of the bank
that serves the header (09 R264). -/
def State.startPacket (s : State) (u : UnitId) (port : Nat) (lane : Lane) (h : Header) (f : Flit) : State :=
  let b := s.inBuffer u port lane h
  let drop (s : State) : State := (s.freeBuf u port b 1).dropRest u port lane b f.last
  match (if (epOf u).isSome then headerFault h else hopFault h) with
  | some _ => drop (s.malformed u port h)
  | none =>
  match s.bankAt u h with
  | none => drop (s.staleAt u port h)
  | some bk =>
  if s.stopped u h.part.toNat then drop (s.dropHeader u port 2 h)
  else if !s.enabledAt u h then drop (s.notEnabled u port h)
  else if (epOf u).isSome || bk.consumes u port h f.resend then (s.freeBuf u port b 1).takeHeader u port lane h f
  else if h.mcast = 1#1 ∧ isSwitch u then (s.freeChunk u h).startMcast bk u port lane h [f] f.last
  else
    let refusedBy : Bool := match u with
      | .stair n => chipOf h.dst == s.chipNo && localOf h.dst / 16 == n && localOf h.dst < 2048 && !s.admits u (localOf h.dst) h
      | _ => false
    if refusedBy then drop (s.refuseAdmission u port h)
    else
      let r := bk.route u port (wayOf lane b) (bk.climbing u port h) h
      match r with
      | .discard c => drop (s.refuseRoute u port c h)
      | _ =>
        let outs := match r with | .ports ps => copies ps | _ => []
        let s := if chipOf h.dst = s.chipNo then s.freeChunk u h else s
        let id := (s.node u).nextId
        let s := s.hold u { id := 0, inp := port, lane := lane, hdr := h, buf := b, rel := s.now u, units := [f]
                            freed := 0, closed := f.last, outs := outs }
        if f.last then s else s.onIn u port (fun p => p.setLane lane (some id))

/-- A data unit of an open packet at a switch or pavilion; a bad one becomes a truncation unit (02 R59). -/
def State.appendUnit (s : State) (u : UnitId) (port : Nat) (lane : Lane) (id : Nat) (f : Flit) (bad forced : Bool) : State :=
  match (s.node u).held.find? (fun x => x.id == id) with
  | none => s.dropRest u port lane 8 f.last
  | some x =>
    let g := if bad then truncationUnit f.resend else f
    let s := s.onHeld u id (fun x => { x with units := x.units ++ [g], closed := g.last })
    if bad then (s.truncFault u 1 port x.hdr forced).dropRest u port lane x.buf f.last
    else if f.last then s.onIn u port (fun p => p.setLane lane none) else s

/-- The packet that a unit puts together ends truncated (02 R59, R60). -/
def State.endAssembling (s : State) (u : UnitId) (port : Nat) (lane : Lane) (a : Assembling) : State :=
  s.onNode u (fun n => { n with
    assembling := n.assembling.filter (fun x => !(x.inp == port && x.lane == lane))
    rxDone := n.rxDone ++ [{ hdr := a.hdr, data := a.data, tail := 0, trunc := true, resend := a.resend }] })

/-- A data unit of a packet that a unit assembles for itself; on LAST the packet waits for its receipt. A bad unit
ends it as a truncated packet (02 R59, R60). -/
def State.assemble (s : State) (u : UnitId) (port : Nat) (lane : Lane) (a : Assembling) (f : Flit) (bad forced : Bool) : State :=
  let b := s.inBuffer u port lane a.hdr
  let s := s.absorbUnit u port b a.hdr
  let same (x : Assembling) : Bool := x.inp == port && x.lane == lane
  if bad then ((s.endAssembling u port lane a).truncFault u 1 port a.hdr forced).dropRest u port lane b f.last
  else if f.trunc then s.endAssembling u port lane a
  else if f.last then
    let p : Packet := { hdr := a.hdr, data := a.data ++ [f.payload], tail := f.tail, trunc := false, resend := a.resend }
    s.onNode u (fun n => { n with assembling := n.assembling.filter (fun x => !same x), rxDone := n.rxDone ++ [p] })
  else s.onNode u (fun n => { n with assembling := n.assembling.map (fun x => if same x then { x with data := x.data ++ [f.payload] } else x) })

/-- A packet still open on an input lane whose next unit can no longer come: it is closed towards its next hop with a truncation
unit (02 R59). A new header on its lane is such a case, as the spec has one open packet on a lane (04 R93; log entry 120). -/
def State.cutOpen (s : State) (u : UnitId) (port : Nat) (lane : Lane) : State :=
  let s := match (s.node u).assembling.find? (fun a => a.inp == port && a.lane == lane) with
    | some a => s.endAssembling u port lane a
    | none => s
  let s := match (s.inPort u port).laneOpen lane with
    | some id => s.onHeld u id (fun x => { x with units := x.units ++ [truncationUnit false], closed := true })
    | none => s
  s.onIn u port (fun p => p.setLane lane none)

/-- A unit of a lane on which the rest of a discarded packet is still to come (02 R59); none where it is no such unit. A header
ends the discarding. -/
def State.dropUnit (s : State) (u : UnitId) (port : Nat) (lane : Lane) (f : Flit) : Option State :=
  match (s.inPort u port).dropping.find? (fun d => d.1 == lane) with
  | some d =>
    if f.first then none
    else
      let s := (s.freeBuf u port d.2 1).event u port 0x07 1023 0 0 1
      some (if f.last then s.onIn u port (fun p => { p with dropping := p.dropping.filter (fun x => x.1 != lane) }) else s)
  | none => none

/-- A header that begins a packet of a lane: what the lane had before it is over. -/
def State.freshLane (s : State) (u : UnitId) (port : Nat) (lane : Lane) : State :=
  (s.onIn u port (fun p => { p with dropping := p.dropping.filter (fun x => x.1 != lane) })).cutOpen u port lane

/-- A released unit of the normal, escape or resend lane (04 R93). -/
def State.takeUnit (s : State) (u : UnitId) (port : Nat) (lane : Lane) (f : Flit) (bad forced : Bool) : State :=
  match s.dropUnit u port lane f with
  | some s => s
  | none =>
    if f.first then
      let s := s.freshLane u port lane
      let h := unpackHeader f.payload
      let b := s.inBuffer u port lane h
      if bad then
        (((s.freeBuf u port b 1).event u port 0x07 1023 0 0 1).truncFault u 1 port h forced).dropRest u port lane b f.last
      else if (h.cls = 1#1) ≠ (lane = .resend) then
        (s.freeBuf u port b 1).malformed u port h |>.dropRest u port lane b f.last
      else s.startPacket u port lane h f
    else
      match (s.node u).assembling.find? (fun a => a.inp == port && a.lane == lane) with
      | some a => s.assemble u port lane a f bad forced
      | none =>
        match (s.inPort u port).laneOpen lane with
        | some id => s.appendUnit u port lane id f bad forced
        | none => (s.event u port 0x07 1023 0 0 1).raise u 1 0x003 1023 (forcedBit forced)

/-- A scheduled unit that a switch has released in this slot. -/
structure Present where
  port : Nat
  unit : Flit
  hdr : Header

/-- The header of the packet that is open at an input lane. -/
def State.openHeader (s : State) (u : UnitId) (port : Nat) (lane : Lane) : Option Header :=
  let n := s.node u
  if lane = .sched then (s.inPort u port).sched
  else match n.assembling.find? (fun a => a.inp == port && a.lane == lane) with
  | some a => some a.hdr
  | none => match (s.inPort u port).laneOpen lane with
    | some id => (n.held.find? (fun x => x.id == id)).map (·.hdr)
    | none => none

/-- Whether a packet, or the rest of one that is discarded, is open on an input lane. -/
def State.laneBusy (s : State) (u : UnitId) (port : Nat) (lane : Lane) : Bool :=
  (s.openHeader u port lane).isSome || (s.inPort u port).dropping.any (fun d => d.1 == lane)

/-- The lane that a unit is attributed to at its release (04 R93): the first row that applies. -/
def State.laneAt (s : State) (u : UnitId) (port : Nat) (a : Aligned) (f : Flit) (t : Nat) : Lane :=
  let sched : Bool := f.first && (unpackHeader f.payload).cls == 1#1
  if a.esc then .escape
  else if s.expects u port t ∧ (sched ∨ s.laneBusy u port .sched) then .sched
  else if s.repairSlot u port (a.release - s.linkLatency u port) ∧ ((sched ∧ f.resend) ∨ s.laneBusy u port .resend) then .resend
  else .normal

/-- The header of the packet that a unit of an alignment buffer belongs to: its own where it is FIRST, that of the open packet of
its lane otherwise. -/
def State.packetOf (s : State) (u : UnitId) (port : Nat) (a : Aligned) (f : Flit) (t : Nat) : Option Header :=
  if f.first then some (unpackHeader f.payload) else s.openHeader u port (s.laneAt u port a f t)

/-- What a unit finds wrong with a scheduled header that it has released: checks 1 to 6 of 02 R54, the class, an address outside
01 R21, the stop bit (10 R271) and, at a pavilion, the partition enables (01 R34). The header is then discarded with its rest. -/
def State.schedFault (s : State) (u : UnitId) (port : Nat) (h : Header) : Option State :=
  if (hopFault h).isSome || h.cls != 1#1 then some (s.malformed u port h)
  else if h.mcast = 0#1 ∧ (!s.endpointHere h.dst ∨ (chipOf h.dst ≠ s.chipNo ∧ !s.chipPresent (chipOf h.dst))) then
    some (s.malformed u port h)
  else if s.stopped u h.part.toNat then some (s.dropHeader u port 2 h)
  else if !s.enabledAt u h then some (s.notEnabled u port h)
  else none

/-- A misrouted scheduled packet: discarded, counted, reported (02 R45). -/
def State.misrouted (s : State) (l : Nat) (h : Header) : State :=
  (s.dropHeader (.landing l) 1 5 h).raise (.landing l) 1 0x006 h.part.toNat (ctxPacket 1 h)

/-- Whether a scheduled header has the source, the stream and the departure slot of a receive descriptor: its s0, or for a resend
a slot of the repair window (02 R45, 03 R70, 05 R130). -/
def State.rxMatches (s : State) (l d : Nat) (h : Header) (resend : Bool) : Bool :=
  let x := s.part (s.partOf l)
  bitsAt d 222 24 == h.src.toNat && bitsAt d 205 17 == h.stream.toNat &&
    (if resend then decide (x.frameLen - x.repair ≤ h.depSlot.toNat ∧ h.depSlot.toNat < x.frameLen)
     else bitsAt d 193 12 == h.depSlot.toNat)

/-- A scheduled header that an endpoint releases (05 R130): attributed to the receive descriptor whose arrival slot it is, and
checked against it. -/
def State.schedArrives (s : State) (u : UnitId) (port : Nat) (h : Header) (f : Flit) (t : Nat) : State :=
  let drop (s : State) : State := s.dropRest u port .sched 8 f.last
  match u with
  | .landing l =>
    match s.rxAt l t (fun _ k => k == 0) with
    | [] => drop (s.unclaimedUnit u port h)
    | d :: _ =>
      if (headerFault h).isSome then drop (s.malformed u port h)
      else if (s.bankAt u h).isNone then drop (s.staleAt u port h)
      else if !s.rxMatches l d h f.resend then drop (s.misrouted l h)
      else (s.onIn u port (fun p => { p with sched := if f.last then none else some h })).takeHeader u port .sched h f
  | _ => drop (s.unclaimedUnit u port h)

/-- A released unit of the scheduled lane (04 R93): an endpoint takes it in; at a switch or pavilion it is present for this slot.
The rest of a packet that fails a check is discarded (02 R54, R59). -/
def State.takeSched (s : State) (u : UnitId) (port : Nat) (f : Flit) (bad forced : Bool) (t : Nat) : State × Option Present :=
  match s.dropUnit u port .sched f with
  | some s => (s, none)
  | none =>
    if f.first then
      let h := unpackHeader f.payload
      let s := s.freshLane u port .sched
      if bad then (((s.event u port 0x07 1023 0 0 1).truncFault u 1 port h forced).dropRest u port .sched 8 f.last, none)
      else match s.schedFault u port h with
        | some s => (s.dropRest u port .sched 8 f.last, none)
        | none =>
          if (epOf u).isSome then (s.schedArrives u port h f t, none)
          else ((s.schedReport u port h).onIn u port (fun p => { p with sched := if f.last then none else some h }),
            some { port := port, unit := f, hdr := h })
    else match (s.inPort u port).sched with
      | none => ((s.event u port 0x07 1023 0 0 1).raise u 1 0x003 1023 (forcedBit forced), none)
      | some h =>
        if s.stopped u h.part.toNat then
          ((s.dropHeader u port 2 h).cutOpen u port .sched |>.dropRest u port .sched 8 f.last, none)
        else if (epOf u).isSome then
          match (s.node u).assembling.find? (fun a => a.inp == port && a.lane == .sched) with
          | some a =>
            let s := s.assemble u port .sched a f bad forced
            (if f.last then s.onIn u port (fun p => { p with sched := none }) else s, none)
          | none => (s.dropRest u port .sched 8 f.last, none)
        else
          let g := if bad then truncationUnit f.resend else f
          let s := if bad then (s.truncFault u 1 port h forced).dropRest u port .sched 8 f.last
            else if f.last then s.onIn u port (fun p => { p with sched := none }) else s
          (s, some { port := port, unit := g, hdr := h })

/-- Count the single errors that a hop corrects in a unit, and report them (02 R59). -/
def State.correctedFault (s : State) (u : UnitId) (sub port n : Nat) (h : Option Header) (forced : Bool) : State :=
  if n = 0 then s
  else
    let s := s.count u port 4 n
    match h with
    | some h => s.raise u sub 0x001 h.part.toNat (ctxPacket port h + forcedBit forced)
    | none => s.raise u sub 0x001 1023 (port % 256 * 2 ^ 39 + forcedBit forced)

/-- Release one unit from an alignment buffer (R380 step 1): decode it, and attribute it under 04 R93. A scheduled unit at a
switch or pavilion is present for this slot only. -/
def State.release (s : State) (u : UnitId) (port : Nat) (a : Aligned) (t : Nat) : State × Option Present :=
  let c := checkUnit a.flit
  let f := c.unit
  let bad := a.bad || c.bad
  let lane := s.laneAt u port a f t
  let s := if bad then s.count u port 4 c.corrected else s.correctedFault u 1 port c.corrected (s.packetOf u port a f t) a.forced
  match lane with
  | .sched => s.takeSched u port f bad a.forced t
  | .normal =>
    let h := unpackHeader f.payload
    if f.first ∧ h.cls = 1#1 ∧ !bad then (s.unclaimedUnit u port h, none) else (s.takeUnit u port .normal f bad a.forced, none)
  | l => (s.takeUnit u port l f bad a.forced, none)

/-! ## Departures (R23, R24; 04 R94, R97) -/

/-- The counters and events of a unit that leaves a port (13 R331 to R334). The busy slots of a pavilion's line go by its cells. -/
def State.countUnit (s : State) (u : UnitId) (o : Nat) (f : Flit) (h : Header) (lane : Lane) : State :=
  let s := if u.level = 4 ∧ o = 2 then s else s.count u o 0 1
  let s := s.count u o 3 (if f.first || f.trunc then 0 else 64)
  let s := s.event u o 0x02 h.part.toNat (vcOf h) 0 1
  let s := if f.first then s.event u o 0x03 h.part.toNat (vcOf h) 0 1 else s
  let s := if f.first && lane == .escape && s.crossPort u o then s.event u o 0x05 h.part.toNat (vcOf h) 0 1 else s
  let s := if f.trunc then s.event u o 0x06 h.part.toNat (vcOf h) 0 1 else s
  if f.resend then s.event u o 0x0A h.part.toNat (vcOf h) 0 1 else s

/-- A unit leaves an output port: it is driven with a hop word of this slot, counted, and charged to its buffer. -/
def State.drive (s : State) (u : UnitId) (o : Nat) (f : Flit) (h : Header) (lane : Lane) (t : Nat) : State :=
  let b := s.bufferOf lane h
  let flips := (s.outPort u o).flips
  let g := match flips with
    | [] => f
    | n :: _ => { f with payload := f.payload ^^^ (if n = 1 then 1#512 else 3#512) }
  let s := s.emit (.unit u o g (hopWord (lane == .escape) (!flips.isEmpty) t))
  let s := s.onOut u o (fun p => { p with flips := p.flips.drop 1
                                          sent := if b < 8 then p.sent.modify 0 b (fun v => (v + 1) % 32) else p.sent })
  s.countUnit u o f h lane

/-- The time fields of a packet that departs from its maker (02 R45): an endpoint also writes the epoch tag, and the
plane of its route for a packet bound for another chip (04 R101). -/
def State.finalHeader (s : State) (u : UnitId) (h : Header) (t : Nat) : Header :=
  let h := { h with stamp := BitVec.ofNat 32 t
                    depSlot := if h.cls = 1#1 then BitVec.ofNat 16 ((s.slotInFrame h.part.toNat t).getD 0) else BitVec.ofNat 16 t }
  match epOf u with
  | none => h
  | some _ => { h with tag := BitVec.ofNat 4 s.ctl.epoch.toNat
                       plane := if chipOf h.dst = s.chipNo ∨ h.cls = 1#1 ∨ h.mcast = 1#1 then h.plane
                         else BitVec.ofNat 2 (s.word 0x101004 0 (chipOf h.dst) 0) }

/-- The initiator timeout towards a chip (04 R111). -/
def State.chipTimeout (s : State) (a : BitVec 24) : Nat :=
  if chipOf a = s.chipNo then s.val 0x100101 else s.val 0x100102

/-- Whether a multicast group leaves the chip: some hall's entry for it names a pavilion port (log entry 13). -/
def State.groupLeaves (s : State) (group part : Nat) : Bool :=
  (List.range 4).any (fun h => match s.replication (.hall h) group part with
    | some m => (List.range 8).any (fun i => m.testBit (64 + i))
    | none => false)

/-- The initiator timeout of a packet (04 R111, 07 R184): the cross-chip one for a contribution or arrival of a group that
spans chips, for another chip, and for a group that leaves the chip. -/
def State.timeoutFor (s : State) (h : Header) : Nat :=
  let c := h.command.toNat
  if (c = 0x20 ∨ c = 0x22) ∧ 1 < chipCount (s.desc (collHandle h)) then s.val 0x100102
  else if h.mcast = 1#1 then (if s.groupLeaves (h.dst.toNat % 2 ^ 20) h.part.toNat then s.val 0x100102 else s.val 0x100101)
  else s.chipTimeout h.dst

/-- Whether a packet is an attempt that awaits an answer (02 R382): answers, results, partials and the go are not. -/
def tracked (h : Header) : Bool :=
  !([4, 5, 6, 0x12, 0x21, 0x31, 0x32, 0x33, 0x35] : List Nat).contains h.command.toNat && !(h.command.toNat == 0x20 && isPartial h) &&
    !(h.command.toNat == 0x22 && h.mcast == 1#1 && h.seq == 0)

/-- An attempt of an entry's packet departs: its deadline starts, its time stamp becomes the attempt's (04 R111). -/
def State.departed (s : State) (u : UnitId) (h : Header) (t : Nat) : State :=
  match epOf u with
  | none => s
  | some e =>
    if !tracked h ∨ h.src ≠ s.addrOf e then s
    else
      let k := h.stream.toNat % 64
      let s := if h.cls = 1#1 then s.onTile e (fun t => { t with resendQ := t.resendQ.filter (fun r => r != (k, h.seq)) }) else s
      s.onEp e (fun x => { x with entries := match x.entries.find k with
        | none => x.entries
        | some en => x.entries.put k { en with outst := en.outst.map (fun o =>
            if o.hdr.seq = h.seq then { o with hdr := h, sent := true, deadline := if h.cls = 1#1 then none else some (t + s.timeoutFor h), failed := false
                                               frame := s.frameAt h.part.toNat t } else o) } })

/-- The next unit of a held packet leaves by one of its ports; the unit and the packet's header with it. -/
def State.passHeld (s : State) (u : UnitId) (o : Nat) (x : Held) (t : Nat) : State × Option (Flit × Header) :=
  match x.outs.find? (fun c => c.port == o) with
  | none => (s, none)
  | some c =>
    let fresh := x.inp == 4095 && x.outs.all (fun c => c.sent == 0)
    let h := if fresh then s.finalHeader u x.hdr t else x.hdr
    let units := if fresh then unitsOf h ((x.units.drop 1).map (·.payload)) ((x.units.head?.map (·.resend)).getD false) else x.units
    match units[c.sent]? with
    | none => (s, none)
    | some f =>
      let s := if fresh then s.departed u h t else s
      let outs := x.outs.map (fun d => if d.port = o then { d with sent := d.sent + 1 } else d)
      let gone := (outs.map (·.sent)).foldl Nat.min units.length
      let s := s.freeBuf u x.inp x.buf (gone - x.freed)
      let s := s.onHeld u x.id (fun y => { y with hdr := h, units := units, outs := outs, freed := gone })
      let opened : Option Nat := if f.last then none else some x.id
      let s := s.onOut u o (fun p => match x.lane with
        | .escape => { p with esc := opened }
        | .resend => { p with resend := opened }
        | .sched => p
        | .normal => { p with norm := opened })
      (if x.closed ∧ gone = units.length then
        s.onNode u (fun n => { n with held := n.held.filter (fun y => y.id != x.id) })
      else s, some (f, h))

/-- Send the next unit of a held packet on one of its ports: it is driven with its hop word. -/
def State.sendHeld (s : State) (u : UnitId) (o : Nat) (x : Held) (t : Nat) : State :=
  match s.passHeld u o x t with
  | (s, some (f, h)) => s.drive u o f h x.lane t
  | (s, none) => s

/-- Credits of a lane of a packet at an output; a VC4 unit other than FAULT_MSG leaves 4 units of the buffer to
FAULT_MSG (11 R296). -/
def State.credit (s : State) (u : UnitId) (o : Nat) (lane : Lane) (h : Header) : Nat :=
  let b := s.bufferOf lane h
  if u.level = 4 ∧ o = 2 then (s.pav u.inst).credit (s.peerBuffer u.inst lane h)
  else
    let c := (s.outPort u o).credit b
    if b = 4 ∧ h.command.toNat ≠ 0x32 then c - 4 else c

/-- The held header that has waited longest for an output on a VC, in lower input order; FAULT_MSG goes first
(04 R97, 11 R296). -/
def State.heldWaiting (s : State) (u : UnitId) (o v : Nat) : Option Held :=
  let c := (s.node u).held.filter (fun x => x.lane == .normal && x.hdr.vc.toNat == v &&
    x.outs.any (fun d => d.port == o && d.sent == 0))
  let key (x : Held) : Nat := (if x.hdr.command.toNat = 0x32 then 0 else 1) * 2 ^ 80 + x.rel * 4096 + x.inp
  c.foldl (fun best x => match best with
    | none => some x
    | some y => if key x < key y then some x else some y) none

/-- Rank of a packet at an endpoint's output: answers, resends, new headers (04 R109, R111). -/
def txRank (k : TxKind) : Nat := match k with | .answer => 0 | .resend => 1 | .fresh => 2

/-- Whether a packet travels on the back stair from its source: one of the service partition for another chip (04 R116). -/
def State.backStairOnly (s : State) (h : Header) : Bool :=
  h.part == 1023#10 && h.mcast == 0#1 && chipOf h.dst != s.chipNo

/-- Whether a drain runs, or its epoch is awaited, that changes the chip map or the axis sizes: the keepers then send no service
packet to another chip (04 R116). -/
def State.mapDrain (s : State) : Bool :=
  decide (1 ≤ s.drain.st ∧ s.drain.st ≤ 3) && decide (s.drain.ts ≤ s.time) && (match s.drain.commit with
    | some a => a.writes.any (fun w => keyId w.key == 0x101001 || keyId w.key == 0x101003)
    | none => false)

/-- Whether an endpoint may inject a packet now: no stop bit, no drain that holds its VC, and the limits of the cap
stage (10 R271, R288; 04 R114). -/
def State.mayInject (s : State) (u : UnitId) (e : Nat) (x : TxPkt) (t : Nat) : Bool :=
  let p := x.hdr.part.toNat; let v := x.hdr.vc.toNat
  !s.stopped u p &&
    !((s.node u).drainStopped && s.drain.parts.contains p && s.drain.vcs.contains v) &&
    !(e < 2048 && v == 5 && s.lim.stage == 1 && t < (s.ep e).lastVc5 + 8) &&
    !(e < 2048 && (v == 1 || v == 3 || v == 5) && s.lim.stage ≥ 2 && t < (s.ep e).lastLimited + 4)

/-- The packet that an endpoint would inject next on a VC at an output. -/
def State.txWaiting (s : State) (u : UnitId) (o v t : Nat) : Option TxPkt :=
  match epOf u with
  | none => none
  | some e =>
    let c := (s.ep e).tx.filter (fun x => x.hdr.cls == 0#1 && x.hdr.vc.toNat == v && s.mayInject u e x t && !s.backStairOnly x.hdr &&
      (match s.route u 4095 .normal .none (s.finalHeader u x.hdr t) with | .ports ps => ps.contains o | _ => false))
    c.foldl (fun best x => match best with
      | none => some x
      | some y => if txRank x.kind < txRank y.kind then some x else some y) none

/-- Remove one packet from an endpoint's output queue. -/
def State.unqueue (s : State) (e : Nat) (x : TxPkt) : State := s.onEp e (fun p => { p with tx := p.tx.erase x })

/-- Inject a packet of an endpoint: it becomes a held packet of the unit and its header departs. -/
def State.inject (s : State) (u : UnitId) (e o : Nat) (x : TxPkt) (lane : Lane) (t : Nat) : State :=
  let s := s.unqueue e x
  let id := (s.node u).nextId
  let s := s.hold u { id := 0, inp := 4095, lane := lane, hdr := x.hdr, buf := 8, rel := x.since
                      units := unitsOf x.hdr x.data (x.kind == .resend), freed := 0, closed := true
                      outs := copies [o] }
  let v := x.hdr.vc.toNat
  let s := s.onEp e (fun p => { p with lastVc5 := if v = 5 then t else p.lastVc5
                                       lastLimited := if v = 1 ∨ v = 3 ∨ v = 5 then t else p.lastLimited })
  let s := s.readServed e x.hdr
  match (s.node u).held.find? (fun y => y.id == id) with
  | some y => s.sendHeld u o y t
  | none => s

/-- The packet whose unit a dynamic slot carries next on the normal lane of output `o`, header first. -/
def State.startVc (s : State) (u : UnitId) (o v t : Nat) : State :=
  match s.heldWaiting u o v with
  | some x => s.sendHeld u o x t
  | none => match epOf u, s.txWaiting u o v t with
    | some e, some x => s.inject u e o x .normal t
    | _, _ => s

/-- The header that would start on a VC at an output. -/
def State.startHeader (s : State) (u : UnitId) (o v t : Nat) : Option Header :=
  match s.heldWaiting u o v with
  | some x => some x.hdr
  | none => (s.txWaiting u o v t).map (·.hdr)

/-- When the VC4 header that has waited longest for an output was released (04 R98). -/
def State.vc4Since (s : State) (u : UnitId) (o t : Nat) : Option Nat :=
  let held := ((s.node u).held.filter (fun x => x.lane == .normal && vcOf x.hdr == 4 &&
    x.outs.any (fun d => d.port == o && d.sent == 0))).map (·.rel)
  let own := (s.txWaiting u o 4 t).toList.map (·.since)
  (held ++ own).foldl (fun b r => match b with
    | none => some r
    | some x => some (min x r)) none

/-- The choice of a VC by deficit (04 R97): the VCs that have a header and a credit, the deficits, the pointer. Where none of them
has a deficit above 0 the weights are added once; where one addition raises none above 0 the slot has no choice (log entry 37). -/
def drr (cands : List Nat) (weights : Nat → Nat) (deficit : FMap Int) (ptr : Nat) : FMap Int × Option Nat :=
  let d := if cands.any (fun v => decide (deficit.get 0 v > 0)) then deficit
    else cands.foldl (fun d v => d.modify 0 v (· + ((weights v : Nat) : Int))) deficit
  let order := (List.range 5).map (fun i => (ptr + 4 + i) % 5 + 1)
  (d, order.find? (fun v => cands.contains v && decide (d.get 0 v > 0)))

/-- One dynamic slot at an output port (04 R97). -/
def State.dynamicSlot (s : State) (u : UnitId) (o t : Nat) : State :=
  let s := s.onOut u o (fun q => { q with deficit := q.deficit.filter (fun x => (s.startHeader u o x.1 t).isSome) })
  let p := s.outPort u o
  let find (id : Option Nat) : Option Held := match id with
    | none => none
    | some i => (s.node u).held.find? (fun x => x.id == i)
  let ready (x : Held) : Bool := (x.outs.any (fun c => c.port == o && c.sent < x.units.length)) && s.credit u o x.lane x.hdr > 0
  let limited (x : Held) : Bool := x.inp == 4095 && s.lim.stage ≥ 2 && (match epOf u with
    | some e => e < 2048 && [1, 3, 5].contains x.hdr.vc.toNat && t < (s.ep e).lastLimited + 4
    | none => false)
  let charge (s : State) (x : Held) : State := match epOf u with
    | some e => if [1, 3, 5].contains x.hdr.vc.toNat then s.onEp e (fun q => { q with lastLimited := t }) else s
    | none => s
  match (find p.esc).filter ready with
  | some x => s.sendHeld u o x t
  | none =>
  match (find p.norm).filter (fun x => ready x && !limited x) with
  | some x => (charge s x).sendHeld u o x t
  | none =>
  let escs := (s.node u).held.filter (fun x => x.lane == .escape && x.outs.any (fun d => d.port == o && d.sent == 0))
  let old := escs.foldl (fun (b : Option Held) x => match b with
    | none => some x
    | some y => if x.rel * 4096 + x.inp < y.rel * 4096 + y.inp then some x else some y) none
  match (if p.esc.isNone then old.filter ready else none) with
  | some x => s.sendHeld u o x t
  | none =>
  if p.norm.isSome then s
  else
    let ok (v : Nat) : Bool := match s.startHeader u o v t with | some h => s.credit u o .normal h > 0 | none => false
    let share := match s.vc4Since u o t with | some r => r + s.val 0x100002 ≤ t && ok 4 | none => false
    let cands := ([1, 2, 3, 4, 5] : List Nat).filter ok
    let q := s.outPort u o
    let pick : FMap Int × Option (Nat × Nat) :=
      if share then (q.deficit, some (4, q.ptr))
      else if cands.isEmpty then (q.deficit, none)
      else
        let r := drr cands (fun v => s.word 0x100001 0 (v - 1) 0) q.deficit q.ptr
        (r.1, r.2.map (fun v => (v, v % 5 + 1)))
    match pick.2 with
    | none => s.onOut u o (fun q => { q with deficit := pick.1 })
    | some (v, ptr) =>
      let len := ((s.startHeader u o v t).map (·.length.toNat)).getD 0
      (s.onOut u o (fun q => { q with deficit := pick.1.modify 0 v (· - ((len + 1 : Nat) : Int)), ptr := ptr })).startVc u o v t

/-- A REPAIR slot of a partition at an output (R23 rule 2, 04 R94); `none` when the slot falls to rule 3. -/
def State.repairAt (s : State) (u : UnitId) (o part t : Nat) : Option State :=
  let p := s.outPort u o
  match p.resend with
  | some id =>
    match (s.node u).held.find? (fun x => x.id == id) with
    | some x => if x.hdr.part.toNat = part ∧ s.credit u o .resend x.hdr > 0 then some (s.sendHeld u o x t) else some s
    | none => some s
  | none =>
    let w := (s.node u).held.filter (fun x => x.lane == .resend && x.hdr.part.toNat == part &&
      x.outs.any (fun d => d.port == o && d.sent == 0))
    match w.find? (fun x => s.credit u o .resend x.hdr > 0), epOf u with
    | some x, _ => some (s.sendHeld u o x t)
    | none, some e =>
      (match (s.ep e).tx.find? (fun x => x.hdr.cls == 1#1 && x.hdr.part.toNat == part) with
      | some x =>
        if s.stopped u part then none
        else if s.credit u o .resend x.hdr > 0 then some (s.inject u e o x .resend t) else some s
      | none => none)
    | none, none => if w.isEmpty then none else some s

/-- A resend at a port that has no slot table, a pavilion's hall link: any slot serves it; while it is open nothing but the back
stair and scheduled units go beside it (03 R74; log entry 119). -/
def State.repairFree (s : State) (u : UnitId) (o t : Nat) : Option State :=
  let p := s.outPort u o
  match p.resend with
  | some id =>
    match (s.node u).held.find? (fun x => x.id == id) with
    | some x => if s.credit u o .resend x.hdr > 0 then some (s.sendHeld u o x t) else some s
    | none => some s
  | none =>
    match (s.node u).held.find? (fun x => x.lane == .resend && x.outs.any (fun d => d.port == o && d.sent == 0) &&
        s.credit u o .resend x.hdr > 0) with
    | some x => some (s.sendHeld u o x t)
    | none => none

/-- A scheduled unit for a SCHED slot of a stair's landing port that the landing does not take in (10 R270). -/
def State.schedRefused (s : State) (u : UnitId) (o inp : Nat) (here : List Present) : Option Present :=
  match u with
  | .stair n => if o < 16 then here.find? (fun x => x.port == inp && !s.admits u (16 * n + o) x.hdr) else none
  | _ => none

/-- A SCHED slot at a switch (R23 rule 1, 03 R67, 04 R94): the unit released from the named input departs; while a
scheduled packet is open whose unit is missing or no longer admitted, a truncation unit does. -/
def State.schedAt (s : State) (u : UnitId) (o inp : Nat) (here : List Present) (t : Nat) : Option State :=
  match (if (s.schedRefused u o inp here).isSome then none else here.find? (fun x => x.port == inp)) with
  | some x =>
    let open? := (s.outPort u o).sched
    if x.unit.first || open?.isSome then
      let s := s.drive u o x.unit x.hdr .sched t
      some (s.onOut u o (fun p => { p with sched := if x.unit.last then none else some x.hdr }))
    else none
  | none =>
    match (s.outPort u o).sched with
    | some h => some ((s.drive u o (truncationUnit false) h .sched t).onOut u o (fun p => { p with sched := none }))
    | none => none

/-- The store-slot records of a partition for an output of a unit (07 R198). -/
def State.storeRecs (s : State) (u : UnitId) (o p : Nat) : List Nat :=
  ((s.part p).storeSlots.map (·.toNat)).filter (fun v =>
    bitsAt v 113 3 == u.level && bitsAt v 101 12 == u.inst && bitsAt v 93 8 == o)

/-- Whether a slot of an output is a store slot of a partial's handle (07 R198). -/
def State.storeSlot (s : State) (u : UnitId) (o t : Nat) (h : Header) : Bool :=
  (s.storeRecs u o h.part.toNat).any (fun v => bitsAt v 116 12 == collHandle h &&
    (match s.slotsSince h.part.toNat (bitsAt v 81 12) t with
     | some k => decide (k ≤ bitsAt v 69 12)
     | none => false))

/-- Whether a partition sends first sendings at `t`: not in a hold frame (03 R78), and not in the closing frames before a stop
(03 R91). -/
def State.sendsFirst (s : State) (p t : Nat) : Bool :=
  !s.isHold p (s.frameAt p t) && (match (s.part p).stopFrom with | some e => decide (t < e) | none => true)

/-- A SCHED slot naming the combining store (03 R67): the next unit of the result that the store holds for the collective of the
slot. -/
def State.storeAt (s : State) (u : UnitId) (o t : Nat) : Option State :=
  match (s.node u).held.find? (fun x => x.lane == .sched && x.inp == 4095 &&
      x.outs.any (fun d => d.port == o && d.sent < x.units.length) && s.storeSlot u o t x.hdr) with
  | some x => if x.outs.all (fun d => d.sent == 0) && !s.sendsFirst x.hdr.part.toNat t then none else some (s.sendHeld u o x t)
  | none => none

/-- A store slot that begins without its result: the chunk in progress of its handle will go on VC3 (03 R67; log entry 121). -/
def State.missStore (s : State) (u : UnitId) (o t : Nat) : State :=
  (s.parts.map (·.1)).foldl (fun s p => (s.storeRecs u o p).foldl (fun s v =>
    if s.slotsSince p (bitsAt v 81 12) t = some 0 ∧ s.sendsFirst p t then
      s.onSw u (fun w => match w.chunks.findIdx? (fun c => c.handle == bitsAt v 116 12 && c.out.isEmpty && !c.late) with
        | some i => { w with chunks := w.chunks.modify i (fun c => { c with late := true }) }
        | none => w)
    else s) s) s

/-- A scheduled stream at the slot of its header: the packet decided on for this frame, if its rows have been read. -/
def TxStream.begin (x : TxStream) : TxStream :=
  if x.ahead then { x with pending := x.aheadBuilt.isSome, built := x.aheadBuilt, sentUnits := 0, ahead := false, aheadBuilt := none }
  else if x.pending && x.sentUnits == 0 && x.built.isNone then { x with pending := false }
  else x

/-- A SCHED slot at a landing's port 1 (03 R69): the next unit of the stream's built packet; a no-show is reclaimed. -/
def State.streamAt (s : State) (l e t : Nat) : Option State :=
  let u := UnitId.landing l
  match (s.tile l).txs.find e with
  | none => none
  | some x0 =>
    let p := s.partOf l
    let head := s.slotInFrame p t == some (bitsAt x0.desc.toNat 206 12)
    let x := if head then x0.begin else x0
    let put (s : State) (x : TxStream) : State := s.onTile l (fun tl => { tl with txs := tl.txs.put e x })
    match x.built with
    | none => none
    | some pk =>
      if !x.pending || (x.sentUnits == 0 && (!head || s.isHold p (s.frameAt p t))) then none
      else if s.stopped u p then
        if x.sentUnits = 0 then none
        else some ((put s { x with pending := false, built := none }).drive u 1 (truncationUnit false) pk.hdr .sched t)
      else
        let h := if x.sentUnits = 0 then s.finalHeader u pk.hdr t else pk.hdr
        match (unitsOf h pk.data false)[x.sentUnits]? with
        | none => none
        | some f =>
          let s := if x.sentUnits = 0 then s.departed u h t else s
          some (put (s.drive u 1 f h .sched t) { x with built := some { pk with hdr := h }, sentUnits := x.sentUnits + 1
                                                        pending := !f.last })

/-- Whether an island's ports send nothing at `t`: an odd slot at half rate, of the island or of the one it sends
into (03 R81). -/
def State.halfBlocked (s : State) (u : UnitId) (o t : Nat) : Bool :=
  t % 2 == 1 && ((s.node u).half || (match peer u o with
    | some (.pavilion _, _) => false
    | some (v, _) => (s.node v).half
    | none => false))

/-- The reason of a stall (13 R332), of the oldest waiting unit of an output after the slot; none when nothing waits. -/
def State.stallReason (s : State) (u : UnitId) (o t : Nat) (sent : Bool) : Option (Nat × Header) :=
  let w := (s.node u).held.filter (fun x => x.outs.any (fun d => d.port == o && (d.sent < x.units.length || !x.closed)))
  let old := w.foldl (fun (b : Option Held) x => match b with
    | none => some x
    | some y => if x.rel < y.rel then some x else some y) none
  let kept := (s.sw u).absorbing.find? (fun a => a.port == o)
  match old, kept with
  | none, none => none
  | none, some a => some (if s.stopped u a.hdr.part.toNat then 0xC else 0xA, a.hdr)
  | some x, k =>
   match k.filter (fun a => a.rel < x.rel) with
   | some a => some (if s.stopped u a.hdr.part.toNat then 0xC else 0xA, a.hdr)
   | none =>
    let next := x.outs.any (fun d => d.port == o && d.sent < x.units.length)
    let r :=
      if s.stopped u x.hdr.part.toNat then 0xC
      else if s.dozing u o && x.outs.any (fun d => d.port == o && d.sent == 0) then 0xB
      else if !next then 0x9
      else if s.credit u o x.lane x.hdr = 0 then (match x.lane with | .resend => 0x6 | .escape => 0 | _ => vcOf x.hdr)
      else if s.halfBlocked u o t || entryKind (s.entryAt u o t) == 1 then 0x7
      else if sent then 0x8 else 0x7
    some (r, x.hdr)

/-- The stalled slot of an output (13 R331, R332). -/
def State.stallSlot (s : State) (u : UnitId) (o t : Nat) (sent : Bool) : State :=
  match s.stallReason u o t sent with
  | none => if (s.outPort u o).stall.isSome then s.onOut u o (fun p => { p with stall := none }) else s
  | some (r, h) =>
    ((s.count u o 1 1).event u o 0x01 h.part.toNat (vcOf h) r 1).onOut u o (fun p => { p with stall := some r })

/-- The slot of a port that no unit crosses in a slot of its own: a landing's tile port, and a pavilion's line between its cells (13
R331, R332; log entry 147). -/
def State.quietPort (s : State) (u : UnitId) (t : Nat) : State :=
  match u with
  | .landing _ => s.count u 0 2 1
  | .pavilion p => (if sendsCells (s.pav p) then s else s.count u 2 2 1).stallSlot u 2 t false
  | _ => s

/-- One output port's slot (R23): its counters of reclaimed, busy, idle and stalled slots (13 R331). -/
def State.portSlot (s : State) (u : UnitId) (here : List Present) (o t : Nat) : State :=
  let n0 := s.outs.length
  let e := s.entryAt u o t
  let k := entryKind e
  let s := match (if k = 1 ∧ !s.halfBlocked u o t then s.schedRefused u o (e % 256) here else none) with
    | some x => s.refuseAdmission u x.port x.hdr
    | none => s
  let s1 :=
    if s.halfBlocked u o t then s
    else if k = 1 then
      let r := match u with
        | .landing l => s.streamAt l (e % 64) t
        | _ => if e % 256 = 254 then s.storeAt u o t else s.schedAt u o (e % 256) here t
      match r with
      | some x => x
      | none => ((if e % 256 = 254 then s.missStore u o t else s).count u o 6 1).dynamicSlot u o t
    else if k = 2 then
      match s.repairAt u o (e % 1024) t with
      | some x => x
      | none => (s.count u o 7 1).dynamicSlot u o t
    else if hasTable u o then (s.count u o 5 1).dynamicSlot u o t
    else match (if u.level = 4 then s.repairFree u o t else none) with
      | some x => x
      | none => s.dynamicSlot u o t
  let sent := n0 < s1.outs.length
  (if sent then s1 else s1.count u o 2 1).stallSlot u o t sent

/-! ## The slot boundary (R380) -/

/-- Whether a unit holds nothing that GOING_DOWN must still deliver: no unit in a buffer, no packet half put together, no
answer or read waiting (R277, R279). -/
def State.unitEmpty (s : State) (u : UnitId) : Bool :=
  let n := s.node u
  n.held.isEmpty && n.assembling.isEmpty && n.rxDone.isEmpty && n.ins.all (fun p => p.2.align.isEmpty) &&
    (match u with
     | .landing l => (s.ep l).tx.isEmpty && (s.ep l).reads.isEmpty && (s.ep l).jobs.isEmpty
     | .pavilion p => (s.pav p).goingDown == 0 && (s.pav p).rxWait.isEmpty
     | _ => true)

/-- Whether a unit's links towards every hall are down (11 R296). -/
def State.hallsCut (s : State) (u : UnitId) : Bool :=
  let up_ (v : UnitId) (lo n : Nat) : Bool := (List.range n).all (fun i => !s.usable v (lo + i))
  match u with
  | .landing l => up_ (.stair (l / 16)) 16 8 || up_ (.gallery (l / 256)) 128 32
  | .stair n => up_ u 16 8 || up_ (.gallery (n / 16)) 128 32
  | .gallery _ => up_ u 128 32
  | .hall _ => up_ u 72 13
  | .pavilion p => up_ u 0 2 || up_ (.hall (p / 4)) 72 13
  | _ => false

/-- A slot in which the unit has something to deliver, and one in which it has a link towards a hall (10 R277; 11 R296). -/
def State.noteSlot (s : State) (u : UnitId) : State :=
  s.onNode u (fun n => { n with
    busyAt := if s.unitEmpty u then n.busyAt else s.time, joinedAt := if s.hallsCut u then n.joinedAt else s.time })

/-- Every unit whose release slot is `t`, input by input in rising port order. -/
def State.releaseAll (s : State) (u : UnitId) (t : Nat) : State × List Present :=
  let s := s.noteSlot u
  (s.node u).ins.foldl (fun (acc : State × List Present) kv =>
    let due := kv.2.align.filter (fun a => a.release == t)
    let s := acc.1.onIn u kv.1 (fun p => { p with align := p.align.filter (fun a => a.release != t) })
    due.foldl (fun (acc : State × List Present) a =>
      let r := acc.1.release u kv.1 a t
      (r.1, match r.2 with | some x => acc.2 ++ [x] | none => acc.2)) (s, acc.2)) (s, [])

/-- A held header that finds no usable output any more is discarded with its rest, counted and reported (04, "Packets meeting a
router under change"). -/
def State.dropHeld (s : State) (u : UnitId) (x : Held) (cause : Nat) : State :=
  let s := s.onNode u (fun n => { n with held := n.held.filter (fun y => y.id != x.id) })
  let s := s.freeBuf u x.inp x.buf (x.units.length - x.freed)
  let s := if x.closed then s else s.dropRest u x.inp x.lane x.buf false
  if x.inp = 4095 then s.dropMade u cause x.hdr else s.refuseRoute u x.inp cause x.hdr

/-- Escape-lane and waiting headers that had no port are routed again at the start of the slot (04 R100). -/
def State.reroute (s : State) (u : UnitId) (t : Nat) : State :=
  (s.node u).held.foldl (fun s (x : Held) =>
    if x.outs.isEmpty then
      let h := if x.inp = 4095 then s.finalHeader u x.hdr t else x.hdr
      match (match s.bankAt u h with
        | some b => State.route b u x.inp (wayOf x.lane x.buf) (b.climbing u x.inp h) h
        | none => .discard 8) with
      | .ports ps => s.onHeld u x.id (fun y => { y with outs := copies ps })
      | .discard c => s.dropHeld u x c
      | _ => s
    else s) s

/-- Service packets of an endpoint for another chip enter the back stair at once; none while a drain changes the ranks (04
R116). -/
def State.liftService (s : State) (u : UnitId) (t : Nat) : State :=
  match epOf u with
  | none => s
  | some e =>
    if s.mapDrain then s
    else ((s.ep e).tx.filter (fun x => s.backStairOnly x.hdr && s.mayInject u e x t)).foldl (fun s x =>
      (s.unqueue e x).hold u { id := 0, inp := 4095, lane := .escape, hdr := x.hdr, buf := 8, rel := x.since
                               units := unitsOf x.hdr x.data (x.kind == .resend), freed := 0, closed := true, outs := [] }) s

/-- A scheduled contribution that the store of a switch claims on arrival (07 R198): put together like any packet that the
switch takes. -/
def State.storeTakes (s : State) (u : UnitId) (x : Present) : State :=
  if x.unit.first then
    s.onNode u (fun n => { n with assembling := n.assembling ++
      [{ inp := x.port, lane := .sched, hdr := x.hdr, data := [], resend := x.unit.resend }] })
  else match (s.node u).assembling.find? (fun a => a.inp == x.port && a.lane == .sched) with
    | some a => s.assemble u x.port .sched a x.unit false false
    | none => s

/-- Scheduled units that no output claimed (03 R67). -/
def State.unclaimed (s : State) (u : UnitId) (here : List Present) (t : Nat) : State :=
  here.foldl (fun s x =>
    if (outPorts u).any (fun o => entryKind (s.entryAt u o t) == 1 && s.entryAt u o t % 256 == x.port) then s
    else if x.hdr.command = 0x20#8 ∧ s.takesContrib u x.port x.hdr false then s.storeTakes u x
    else s.unclaimedUnit u x.port x.hdr) s

/-- Scheduled units that a pavilion has taken for the cell being filled (03 R84): those that its transmit entry of the
cell lists; another one is unclaimed. -/
def State.pavTakes (s : State) (p : Nat) (here : List Present) (t : Nat) : State :=
  here.foldl (fun s x =>
    if s.cellLists p x.port t then
      s.onPav p (fun v => { v with sched := v.sched ++ [{ link := x.port, slot := t % 16, flit := x.unit }] })
    else s.unclaimedUnit (.pavilion p) x.port x.hdr) s

/-- The oldest message of a unit's outbox becomes a FAULT_MSG packet, one at a time (11 R296); a waiting fatal message
takes the place that frees (11 R295). K0 also sends the messages of the chip-level source. DESIGN CHOICE: a packet that no
entry owns bears stream 0 and sequence 0, at a tile landing too (log entry 122). -/
def State.sendFault (s : State) (u : UnitId) : State :=
  let send (s : State) (w : UnitId) : State :=
    let f := s.src w
    match f.outbox with
    | [] => s
    | m :: rest =>
      let waiting := f.slots.find? (fun x => x.2.waiting.isSome)
      let f' : FaultSource := match waiting with
        | some (k, x) => { f with outbox := x.waiting.toList ++ rest, slots := f.slots.put k { x with waiting := none } }
        | none => { f with outbox := rest }
      let gate := s.addrOf 2050
      let src := match epOf u with | some e => s.addrOf e | none => gate
      let h := s.ownHeader 0x32 4 1023 src gate 0 (m.setWidth 256)
      (s.onSrc w (fun _ => f')).makeFrom u h []
  let busy := (s.node u).held.any (fun x => x.inp == 4095 && x.hdr.command.toNat == 0x32) ||
    (match epOf u with | some e => (s.ep e).tx.any (fun x => x.hdr.command.toNat == 0x32) | none => false)
  if busy then s
  else if (s.src u).outbox.isEmpty ∧ u = k0 then send s .chip
  else send s u

/-- Each input of an on-die channel reports freed space on its credit word: the lowest buffer not yet told, else the buffers in
turn (04 R96). -/
def State.sendCredits (s : State) (u : UnitId) (t : Nat) : State :=
  (outPorts u).foldl (fun s o =>
    if (peer u o).isNone || s.halfBlocked u o t then s
    else
      let p := s.inPort u o
      let b := match (List.range 8).find? (fun b => p.freed.get 0 b != p.told.get 0 b) with
        | some b => b
        | none => p.turn
      let s := s.emit (.creditWord u o (creditWordOf b (p.freed.get 0 b)))
      s.onIn u o (fun p => { p with told := p.told.put b (p.freed.get 0 b), turn := if b = p.turn then (p.turn + 1) % 8 else p.turn })) s

/-- The header of a stream's packet of plan frame `pf` (05 R129). -/
def State.streamHeader (s : State) (l e pf : Nat) (x : TxStream) : Header :=
  let d := x.desc.toNat
  let sg := d.testBit 220; let mc := d.testBit 221
  let cmd := if mc then (if sg then 0x11 else 0x10) else (if sg then 0x08 else 0x01)
  let base := s.ownHeader cmd 0 (s.partOf l) (s.addrOf l) (BitVec.ofNat 24 (bitsAt d 222 24))
    (if sg then BitVec.ofNat 32 (bitsAt d 71 8 + bitsAt d 69 2 * 256) else 0) (if sg then BitVec.ofNat 256 (bitsAt d 36 32) else 0)
  { base with
    cls := 1, mcast := if mc then 1 else 0, plane := BitVec.ofNat 2 (bitsAt d 218 2), length := BitVec.ofNat 7 (bitsAt d 199 7)
    stream := BitVec.ofNat 17 (l * 64 + e), seq := x.seq
    addr := BitVec.ofNat 24 (bitsAt d 151 24 + pf % Nat.max 1 (bitsAt d 111 16) * bitsAt d 127 24) }

/-- Whether a stream has ended before plan frame `pf`: its frame count, or the close of the tile (03 R69, 05 R131). -/
def TxStream.endedBy (x : TxStream) (pf : Nat) : Bool :=
  let cnt := bitsAt x.desc.toNat 79 32
  (cnt != 0 && decide (cnt ≤ pf)) ||
    (match x.close with | some c => decide ((c.toNat + 2 ^ 16 - pf % 2 ^ 16) % 2 ^ 16 ≥ 2 ^ 15) | none => false)

/-- The decision of 03 R69 for one stream and plan frame `pf`, which runs as frame `f`: the packet goes only if the stream is open,
the packet ready, and its source range not locked by an earlier packet. A destination outside 01 R21 is not injected but discarded
and counted. -/
def State.decideStream (s : State) (l e f pf ahead : Nat) (x : TxStream) : State :=
  let d := x.desc.toNat
  let n := bitsAt d 199 7
  let base := bitsAt d 175 24 + pf % Nat.max 1 (bitsAt d 111 16) * bitsAt d 127 24
  let ready := decide ((x.ready.toNat + 2 ^ 16 - pf % 2 ^ 16) % 2 ^ 16 < 2 ^ 15)
  let isOpen := match (s.ep l).entries.find e with
    | some en => en.kind == 2 && decide (en.outst.length < 8)
    | none => false
  let locked := (s.ep l).entries.any (fun en => en.2.locks.any (fun r => decide (r.1 < base + 64 * n ∧ base < r.1 + r.2)))
  let hdr := s.streamHeader l e pf x
  let put (s : State) (x : TxStream) : State := s.onTile l (fun tl => { tl with txs := tl.txs.put e x })
  let noShow (s : State) : State := put s { x with noShows := x.noShows + 1 }
  if !(ready && isOpen && !locked && !x.endedBy pf && !x.failed && !x.closed && s.sendsFirst (s.partOf l) ahead) then noShow s
  else if hdr.mcast = 0#1 ∧ (!s.endpointHere hdr.dst ∨ (chipOf hdr.dst ≠ s.chipNo ∧ !s.chipPresent (chipOf hdr.dst))) then
    noShow (s.malformed (.landing l) 1 hdr)
  else
    let s := put s (if x.pending then { x with ahead := true, aheadBuilt := none, seq := x.seq + 1 }
      else { x with pending := true, built := none, sentUnits := 0, seq := x.seq + 1 })
    let s := s.onEp l (fun q => { q with
      jobs := q.jobs ++ [{ use := .stream e, hdr := hdr, base := base, bytes := 64 * n, rows := [], kind := .fresh }]
      entries := match q.entries.find e with
        | some en => q.entries.put e { en with locks := en.locks ++ [(base, 64 * n)], outst := en.outst ++
            [{ hdr := hdr, attempt := 0, deadline := none, left := 0, frame := f, failed := false, localAddr := base
               bytes := 64 * n, stairs := 0, nacked := false, hallDrop := false, closing := false, sent := false }] }
        | none => q.entries })
    ((List.range ((base + 64 * n + 127) / 128 - base / 128)).map (· + base / 128)).foldl (fun s r => s.emit (.tpRowRead l r)) s

/-- The decision of 03 R69, 40 partition slots ahead of each stream's s0: which streams of a landing send in the frame, and the
reads of their rows. No first sending falls in a hold frame. -/
def State.decideStreams (s : State) (l t : Nat) : State :=
  let p := s.partOf l
  if p ≥ 512 || s.frameLen p == 0 || s.stopped (.landing l) p then s
  else
    let ahead := if (s.part p).rate = 2 ∨ (s.part p).rate = 3 then t + 80 else t + 40
    let f := s.frameAt p ahead
    if s.isHold p f then s
    else (s.tile l).txs.foldl (fun s kv =>
      if s.slotInFrame p ahead = some (bitsAt kv.2.desc.toNat 206 12) then s.decideStream l kv.1 f (s.planFrame p f) ahead kv.2 else s) s

/-! ## The marks of a drain (04 R114) -/

/-- Whether a port of a hall or gallery is an end of a crossover link, and for which axis and class (04 R107). -/
def State.crossOf (s : State) (g k : Nat) : Option (Nat × Nat) :=
  ((List.range 8).find? (fun j => s.build.pavilions && crossLink s.galleries j == (g, k))).map (fun j => (j / 2, j % 2))

/-- The inputs of a hall from the pavilions that a packet may have come by before a hop of axis `a` and class `k`, in the
direction of `f`: those of earlier axes, and those of the same axis and way, as far as the dateline lets it (04 R106, R107). -/
def State.markPavs (s : State) (n a k : Nat) (pos? : Option Bool) : List Nat :=
  let c := s.coord s.chipNo a
  let m := s.axisSize a
  (facings.filter (fun f => f.pav / 4 == n)).flatMap (fun f => [0, 1].flatMap (fun i =>
    let first := if f.pos then m - 1 else 0
    let last := if f.pos then 0 else m - 1
    let same := f.axis == a && (match pos? with | some b => f.pos != b | none => true) && decide (i ≤ k) &&
      (i != 0 || c != first) && (i != 1 || c != last || pos?.isNone)
    if decide (f.axis < a) || same then [pavPort f.pav i] else []))

/-- The inputs from which a packet may be routed to an output, in the rank order of the escape lanes, so that the wave of marks
does not wait on itself (04 R107, R114). A pavilion's line has one mark for each dateline class: inputs 2 and 3, outputs 2 and 3
(log entry 123). -/
def State.markInputs (s : State) (u : UnitId) (o : Nat) : List Nat :=
  match u with
  | .stair _ => if o < 16 then outPorts u else List.range 16
  | .gallery g =>
    if o < 128 then outPorts u
    else List.range 128 ++ (if s.isCross g ((o - 128) % 8) then
      ((List.range 4).map (fun h => 128 + 8 * h + (o - 128) % 8)).filter (· != o) else [])
  | .hall n =>
    let below := ((List.range 64).filter (fun i => !s.isCross (i / 8) (i % 8))) ++ (List.range 13).map (· + 72)
    if o < 64 then (match s.crossOf (o / 8) (o % 8) with
      | none => outPorts u
      | some (a, k) => below ++ s.markPavs n a k none)
    else if o < 72 then
      let f := facing (4 * n + (o - 64) / 2)
      let k := (o - 64) % 2
      let x := crossLink s.galleries (2 * f.axis + k)
      below ++ [8 * x.1 + x.2] ++ s.markPavs n f.axis k (some f.pos)
    else outPorts u
  | .pavilion _ => if o < 2 then [2 + o] else [o - 2]
  | _ => []

/-- Whether an input counts as marked for a partition and VC: its mark has come, its link is unusable or leads into a domain
that is not up (04 R114; 10 R281), or it is the line of a drain of one chip. -/
def State.inputMarked (s : State) (u : UnitId) (i key : Nat) : Bool :=
  (s.node u).marks.contains (i, key) ||
    (match u with
     | .pavilion _ => if 2 ≤ i then !s.drain.cross else !s.usable u i
     | _ => !s.usable u i) ||
    (match peer u i with | some q => !(s.domState q.1 == .active || s.domState q.1 == .doze) | none => false)

/-- Whether a unit holds a packet of a partition and VC for an output, other than a mark. -/
def State.holdsFor (s : State) (u : UnitId) (o part vc : Nat) : Bool :=
  (s.node u).held.any (fun x => x.hdr.part.toNat == part && x.hdr.vc.toNat == vc && x.hdr.cls == 0#1 && x.hdr.command != 0x42#8 &&
    (x.outs.isEmpty || x.outs.any (fun c => c.port == o && (!x.closed || c.sent < x.units.length))))

/-- The pairs of partition and VC of the running drain, as mark keys. -/
def State.drainKeys (s : State) : List Nat := s.drain.parts.flatMap (fun p => s.drain.vcs.map (fun v => p * 8 + v))

/-- The header of a mark: its destination names the coordinating head keeper and routes nothing. -/
def State.markHeader (s : State) (u : UnitId) (key : Nat) : Header :=
  s.ownHeader 0x42 (key % 8) 1023 (s.addrOf ((epOf u).getD 2051)) (s.drain.coord.getD (s.addrOf 2051))
    (BitVec.ofNat 32 (key / 8 + s.drain.number % 2 ^ 22 * 2 ^ 10)) 0

/-- Send the marks of a drain that are due at a unit: on every output whose inputs are all marked and for which no unit of the
partition and VC is held. An endpoint marks once it has stopped. -/
def State.sendMarks (s : State) (u : UnitId) : State :=
  if s.drain.st ≠ 2 ∨ s.domState u = .rejoining ∨ ((epOf u).isSome ∧ !(s.node u).drainStopped) then s
  else
    let outs := (match u with | .pavilion _ => if s.drain.cross then [0, 1, 2, 3] else [0, 1] | _ => outPorts u)
    (outs.flatMap (fun o => s.drainKeys.map (fun k => (o, k)))).foldl (fun s x =>
      if (s.node u).marked.contains x ∨ !(s.markInputs u x.1).all (fun i => s.inputMarked u i x.2) ∨
          s.holdsFor u (min x.1 (if u.level = 4 then 2 else x.1)) (x.2 / 8) (x.2 % 8) then s
      else
        let h := s.markHeader u x.2
        let s := s.onNode u (fun n => { n with marked := n.marked ++ [x] })
        s.hold u { id := 0, inp := 4095, lane := .escape, hdr := h, buf := 8, rel := s.now u, units := unitsOf h [] false, freed := 0
                   closed := true, outs := copies [if u.level = 4 then min x.1 2 else x.1] }) s

/-- A scheduled unit that a pavilion's line releases onto hall link `k` (08 R216): its header is checked as at a switch, and a bad
unit ends its packet with a truncation unit (02 R54, R59); whether the link is taken. -/
def State.lineSched (s : State) (p k : Nat) (f : Flit) (bad : Bool) (t : Nat) : State × Bool :=
  let u := UnitId.pavilion p
  let dropOn (s : State) : State :=
    if f.last then s else s.onIn u 2 (fun x => { x with dropping := (.sched, 16 + k) :: x.dropping.filter (· != (.sched, 16 + k)) })
  let undrop (s : State) : State := s.onIn u 2 (fun x => { x with dropping := x.dropping.filter (· != (.sched, 16 + k)) })
  let close (s : State) : State := s.onOut u k (fun o => { o with sched := none })
  if (s.inPort u 2).dropping.contains (.sched, 16 + k) ∧ !f.first then
    let s := s.event u 2 0x07 1023 0 0 1
    (if f.last then undrop s else s, false)
  else if f.first then
    let h := unpackHeader f.payload
    let s := undrop s
    if bad then (dropOn ((s.event u 2 0x07 1023 0 0 1).truncFault u 9 2 h false), false)
    else match s.schedFault u 2 h with
      | some s => (dropOn s, false)
      | none => ((s.onOut u k (fun o => { o with sched := if f.last then none else some h })).drive u k f h .sched t, true)
  else match (s.outPort u k).sched with
    | none => ((s.event u 2 0x07 1023 0 0 1).raise u 9 0x003 1023 0, false)
    | some h =>
      if s.stopped u h.part.toNat then (dropOn ((close (s.dropHeader u 2 2 h)).drive u k (truncationUnit false) h .sched t), true)
      else if bad then (dropOn ((close (s.truncFault u 9 2 h false)).drive u k (truncationUnit f.resend) h .sched t), true)
      else ((if f.last then close s else s).drive u k f h .sched t, true)

/-- The units that a pavilion has received and that are due at a slot (08 R216), their quarters decoded as at any hop (02 R58): a
scheduled unit leaves by its hall link at once, another one enters the unit by its lane. The hall links that scheduled units took
come with it. -/
def State.pavRelease (s : State) (p t : Nat) : State × List Nat :=
  let u := UnitId.pavilion p
  let due := (s.pav p).rxWait.filter (fun w => decide (w.1 ≤ t))
  let s := s.onPav p (fun v => { v with rxWait := v.rxWait.filter (fun w => !decide (w.1 ≤ t)) })
  due.foldl (fun (acc : State × List Nat) w =>
    let k := w.2.1; let lane := w.2.2.1
    let c := checkUnit w.2.2.2.2
    let f := c.unit
    let h : Option Header := if f.first then some (unpackHeader f.payload)
      else if lane = .sched then (acc.1.outPort u k).sched else acc.1.openHeader u 2 lane
    let s := if c.bad then acc.1.count u 2 4 c.corrected else acc.1.correctedFault u 9 2 c.corrected h false
    if lane = .sched then
      let r := s.lineSched p k f c.bad t
      (r.1, if r.2 then acc.2 ++ [k] else acc.2)
    else (s.takeUnit u 2 lane f c.bad false, acc.2)) (s, [])

/-- What a unit does at the start of a slot (R380): the island's counter advances; it releases, decides, and sends. K0's slots also
count in the load values that it has sent, which name the count at the edge (R26; log entry 124). -/
def State.slotBoundary (s : State) (u : UnitId) : State :=
  let t := (s.now u + 1) % 2 ^ 64
  let s := { s with clocks := s.clocks.put u.code (BitVec.ofNat 64 t) }
  let s := if u = k0 then { s with loads := s.loads.map (fun x => (x.1, { x.2 with value := x.2.value + 1 })) } else s
  if !s.running u || s.domState u == .doze then s
  else
    let s := if isSwitch u then s.absorbSlot u else s
    let r := s.releaseAll u t
    let line : State × List Nat := match u with
      | .pavilion p => r.1.pavRelease p t
      | _ => (r.1, [])
    let s := ((((line.1.liftService u t).reroute u t).sendFault u).sendMarks u)
    let s := match u with
      | .landing l => s.decideStreams l t
      | .pavilion p => s.pavTakes p r.2 t
      | .special e => if e = 2060 then s.bvSlot t else if e = 2051 then s.finishChange t else s
      | _ => s
    let s := ((outPorts u).filter (fun o => !line.2.contains o)).foldl (fun s o => s.portSlot u r.2 o t) s
    let s := (if isSwitch u then s.unclaimed u r.2 t else s).quietPort u t
    let s := (s.node u).ins.foldl (fun s kv => if kv.2.align.length = 4 then s.event u kv.1 0x0C 1023 0 0 1 else s) s
    s.sendCredits u t

/-! ## Arrivals -/

/-- UNIT_ARRIVAL (R27; 02 R40): a unit with its hop word reaches an input. It waits for its release slot; one that
comes after it, or meets a full alignment buffer, is late: discarded, counted, and reported under the packet that it belongs to. -/
def State.arrive (s : State) (u : UnitId) (port : Nat) (f : Flit) (hop : BitVec 10) : State :=
  let v := hop.toNat
  if !v.testBit 9 || !s.running u then s
  else
    let t := s.now u
    let a : Aligned := { flit := f, release := hopDeparture hop t + s.linkLatency u port, esc := v.testBit 8, bad := oddOnes 10 v
                         forced := v.testBit 1 }
    if a.release ≤ t ∨ (s.inPort u port).align.length ≥ 4 then
      match s.packetOf u port a f a.release with
      | some h => ((s.event u port 0x0B h.part.toNat (vcOf h) 0 1).dropHeader u port 4 h).raise u 1 0x004 h.part.toNat (ctxPacket port h)
      | none => ((s.event u port 0x0B 1023 0 0 1).event u port 0x07 1023 0 0 1).raise u 1 0x004 1023 (port % 256 * 2 ^ 39)
    else s.onIn u port (fun p => { p with align := p.align ++ [a] })

/-- UNIT_ARRIVAL. -/
def execUnitArrival (u : UnitId) (port : Nat) (f : Flit) (hop : BitVec 10) (s : State) : Host.Outcome State Fault Refusal :=
  up s (fun s => s.arrive u port f hop)

/-- CREDIT_WORD (04 R96): the cumulative count of one buffer, or a word of odd parity, discarded and counted. -/
def State.creditWord (s : State) (u : UnitId) (port : Nat) (w : BitVec 9) : State :=
  if oddOnes 9 w.toNat then
    ((s.count u port 4 1).event u port 0x09 1023 0 0 1).raise u 2 0x007 1023 (ctxLink port 1)
  else s.onOut u port (fun p => { p with ret := p.ret.put (bitsAt w.toNat 6 3) (bitsAt w.toNat 1 5) })

/-- CREDIT_WORD. -/
def execCreditWord (u : UnitId) (port : Nat) (w : BitVec 9) (s : State) : Host.Outcome State Fault Refusal :=
  up s (fun s => s.creditWord u port w)

/-- The domain whose fabric-time load an island takes: 140 for the control domain. -/
def loadKey (u : UnitId) : Nat := (domainOf u).getD 140

/-- The head keeper sends a load value to the islands of a domain (R26). -/
def State.sendLoad (s : State) (k : Nat) (us : List UnitId) (v : Nat) : State :=
  { s with loads := s.loads.put k { value := BitVec.ofNat 64 v, left := us.map UnitId.code } }

/-- Whether an island has a load still to take. -/
def State.loadDue (s : State) (u : UnitId) : Bool := (s.loads.find (loadKey u)).any (fun x => x.left.contains u.code)

/-- FABRIC_TIME_LOAD (R26): the island loads the value that the head keeper has sent it, once. -/
def execFabricTimeLoad (u : UnitId) (s : State) : Host.Outcome State Fault Refusal :=
  up s (fun s => match s.loads.find (loadKey u) with
    | some x =>
      if x.left.contains u.code then
        { s with clocks := s.clocks.put u.code x.value
                 loads := if x.left.all (· == u.code) then s.loads.del (loadKey u)
                   else s.loads.put (loadKey u) { x with left := x.left.filter (· != u.code) } }
      else s
    | none => s)

/-! ## Governors (R28, 03 R83) -/

/-- A governor's request for half rate (R28). -/
def State.governorAsk (s : State) (u : UnitId) (cause : GovCause) : State :=
  s.onGov u (fun g => { g with request := true, cause := some cause, clearSince := none })

/-- GOVERNOR_CONDITION_CLEAR (03 R83): the condition is reported clear, and the 10 ms count starts. -/
def execGovernorConditionClear (u : UnitId) (s : State) : Host.Outcome State Fault Refusal :=
  upWhen s (fun s => (s.gov u).request && (s.gov u).clearSince.isNone)
    (fun s => s.onGov u (fun g => { g with clearSince := some (s.now u) }))

/-- Whether the condition of a governor has been clear for 10 ms (20,000,000 slots) without a break (03 R83). -/
def State.governorClear (s : State) (u : UnitId) : Bool :=
  match (s.gov u).clearSince with
  | some t => t + 20000000 ≤ s.now u
  | none => false

end Sys2Proof.Machine
end

