-- ==== Sys2Proof/Machine/Landing.lean ====
section
/-!
DEFINITION. What an endpoint keeps and does under its packets: the receipt filter (04 R112), scratchpad writes,
semaphores and waits (05 R134, R135), arrival windows (05 R132), locks (05 R128), completions (05 R127), the packets of
an initiator entry (05 R126, 04 R111) and the end of a transaction.
-/
namespace Sys2Proof.Machine

/-! ## The receipt filter (04 R112) -/

/-- What the receipt filter says of a packet. -/
inductive Filtered where
  | apply | duplicate | full
deriving DecidableEq, Repr

/-- Advance the base past every set bit at the bottom of the map. -/
def settleMap : Nat → BitVec 16 → Nat → BitVec 16 × Nat
  | 0, b, m => (b, m)
  | n + 1, b, m => if m % 2 = 1 then settleMap n (b + 1) (m / 2) else (b, m)

/-- A record after the sequence `q` has been applied. -/
def filterMark (r : FilterRec) (q : BitVec 16) (now : Nat) : FilterRec :=
  let d := (q - r.base).toNat
  let b := if 32 ≤ d then q - 31 else r.base
  let m := if 32 ≤ d then r.map.toNat / 2 ^ (d - 31) + 2 ^ 31 else r.map.toNat + 2 ^ d
  let x := settleMap 32 b m
  { r with base := x.1, map := BitVec.ofNat 32 x.2, last := now }

/-- Whether a record marks a sequence as a duplicate. -/
def isDuplicate (r : FilterRec) (q : BitVec 16) : Bool :=
  let d := (q - r.base).toNat
  32768 ≤ d || (d < 32 && r.map.toNat.testBit d)

/-- Whether a record is young: its last use lies within four of its own timeouts. -/
def State.young (s : State) (r : FilterRec) (now : Nat) : Bool := now < r.last + 4 * s.chipTimeout r.src

/-- The oldest record that is not young. -/
def State.evictable (s : State) (rs : List FilterRec) (now : Nat) : Option FilterRec :=
  (rs.filter (fun r => !s.young r now)).foldl (fun (b : Option FilterRec) r => match b with
    | none => some r
    | some y => if r.last < y.last then some r else some y) none

/-- Check a packet against the receipt filter of an endpoint, and record it. -/
def State.filter (s : State) (e : Nat) (h : Header) : Filtered × State :=
  let now := s.now (epUnit e)
  let rs := (s.ep e).filter
  let same (r : FilterRec) : Bool := r.src == h.src && r.stream == h.stream
  match rs.find? same with
  | some r =>
    if isDuplicate r h.seq then
      (.duplicate, s.onEp e (fun x => { x with filter := x.filter.map (fun r => if same r then { r with last := now } else r) }))
    else (.apply, s.onEp e (fun x => { x with filter := x.filter.map (fun r => if same r then filterMark r h.seq now else r) }))
  | none =>
    let new := filterMark { src := h.src, stream := h.stream, base := h.seq, map := 0, last := now } h.seq now
    if rs.length < 1024 then (.apply, s.onEp e (fun x => { x with filter := x.filter ++ [new] }))
    else match s.evictable rs now with
      | some old => (.apply, s.onEp e (fun x => { x with filter := x.filter.erase old ++ [new] }))
      | none => (.full, s)

/-! ## Scratchpad writes (05 R117, R118) -/

/-- The check bits of a row, 8 for each 64-bit word in the tile's own code (05 R118; log entry 125). -/
def rowEcc (row : BitVec 1024) : BitVec 128 :=
  BitVec.ofNat 128 ((List.range 16).foldl (fun a i =>
    a + (Config.tileEcc (row.extractLsb' (64 * i) 64)).toNat * 2 ^ (8 * i)) 0)

/-- One arrival-write row: bytes from offset `off` of row `row`, with the scratchpad ECC of the row as it is written (05 R118,
R137). -/
def tpWriteOf (l row off : Nat) (bs : List Byte) : Output :=
  let data := BitVec.ofNat 1024 (ofBytes bs * 2 ^ (8 * off))
  .tpWrite l row data (BitVec.ofNat 128 ((2 ^ bs.length - 1) * 2 ^ off)) (rowEcc data)

/-- Write at most 64 bytes of a tile's scratchpad: one or two rows of the arrival-write channel. -/
def State.storeBytes (s : State) (l addr : Nat) (bs : List Byte) : State :=
  let k := 128 - addr % 128
  let s := s.emit (tpWriteOf l (addr / 128) (addr % 128) (bs.take k))
  let s := if bs.length ≤ k then s else s.emit (tpWriteOf l (addr / 128 + 1) 0 (bs.drop k))
  s.onTile l (fun t => { t with scratch := padWrite t.scratch addr bs })

/-! ## Semaphores (05 R134, R135) -/

/-- A semaphore's value. -/
def State.sem (s : State) (l : Nat) (k : BitVec 8) : BitVec 32 := (s.tile l).sems.get 0 k.toNat

/-- Set a semaphore. -/
def State.setSem (s : State) (l : Nat) (k : BitVec 8) (v : BitVec 32) : State :=
  s.onTile l (fun t => { t with sems := if v = 0 then t.sems.del k.toNat else t.sems.put k.toNat v })

/-- A semaphore response (05). -/
def semResp (client status : Nat) (v : BitVec 32) : BitVec 40 :=
  BitVec.ofNat 40 (client % 32 * 2 ^ 35 + status % 8 * 2 ^ 32 + v.toNat)

/-- The trace record of a wait that ends (13 R339, type 0x01): outcome 0 satisfied, 1 timed out, 2 cancelled. -/
def State.traceWait (s : State) (l client outcome : Nat) (w : Wait) : State :=
  let now := s.now (epUnit l)
  if now < w.start + s.val 0x382003 then s
  else s.trace (epUnit l) 0x01 (s.epPart l) now
    (w.start % 2 ^ 64 * 2 ^ 88 + w.sem.toNat * 2 ^ 80 + client % 32 * 2 ^ 75 + outcome * 2 ^ 72 + w.operand.toNat * 2 ^ 40 +
      ((s.tile l).semSrc.get 0 w.sem.toNat).toNat * 2 ^ 16)

/-- End a pending wait with a status (05 R134). -/
def State.endWait (s : State) (l client status : Nat) (v : BitVec 32) (w : Wait) : State :=
  let s := s.traceWait l client status w
  (s.onTile l (fun t => { t with waits := t.waits.del client })).tpOut l (.tpSemr l (semResp client status v))

/-- Test the pending waits of a landing in ascending client order, after the operations of a tile cycle (05 R135). Every
command is a tile cycle of its own, and all that it does to the semaphores comes before this test (log entry 126). -/
def State.wakeWaits (s : State) (l : Nat) : State :=
  (List.range 32).foldl (fun s c => match (s.tile l).waits.find c with
    | none => s
    | some w =>
      let x := s.sem l w.sem
      if w.operand.toInt ≤ x.toInt then
        let v := if w.take then x - w.operand else x
        (if w.take then s.setSem l w.sem v else s).endWait l c 0 v w
      else s) s

/-- A fabric operation on a semaphore: 0 ADD, 1 SET (02 R50, 05 R134); its source is kept for the trace. -/
def State.semOp (s : State) (l : Nat) (k : BitVec 8) (op : Nat) (v : BitVec 32) (src : BitVec 24) : State :=
  let s := s.setSem l k (if op = 0 then s.sem l k + v else v)
  s.onTile l (fun t => { t with semSrc := t.semSrc.put k.toNat src })

/-- A local ADD 1: a completion or arrival semaphore (05 R127, R130). The waits are tested when the cycle's operations are done. -/
def State.semBump (s : State) (l : Nat) (k : BitVec 8) : State := s.setSem l k (s.sem l k + 1)

/-! ## Arrival windows (05 R132) -/

/-- The open windows of a landing that meet a range. -/
def State.windowsAt (s : State) (l addr n : Nat) : List (Nat × Window) :=
  (s.tile l).windows.filter (fun w => meets addr n w.2.base w.2.length)

/-- The value of TP_WIN for a window: [32] open, [31:26] window, [25:13] first row, [12:0] last row. -/
def winWord (opening : Bool) (k base len : Nat) : BitVec 33 :=
  BitVec.ofNat 33 ((if opening then 2 ^ 32 else 0) + k % 64 * 2 ^ 26 + base / 128 % 2 ^ 13 * 2 ^ 13 + (base + len - 1) / 128 % 2 ^ 13)

/-- Open a window and publish it. -/
def State.openWin (s : State) (l k : Nat) (w : Window) : State :=
  (s.onTile l (fun t => { t with windows := t.windows.put k w })).tpOut l (.tpWin l (winWord true k w.base w.length))

/-- Send a completion record, or discard and count it for a detached client (05 R121, R127); the host landing queues
its own (14 R359). -/
def State.record (s : State) (l client : Nat) (tag : BitVec 6) (status entry bytes : Nat) : State :=
  let r := completionRecord client tag status entry bytes
  if l = 2048 then { s with host := { s.host with cmpl := s.host.cmpl ++ [(client, r)] } }
  else if (s.tile l).detached.getLsbD (client % 32) then s.bump 0x800503 (8192 + l) 0 0 16 16 1
  else s.tpOut l (.tpCmpl l r)

/-- Close a window, and complete the descriptor that opened it unless a READ did. -/
def State.closeWin (s : State) (l k status : Nat) : State :=
  match (s.tile l).windows.find k with
  | none => s
  | some w =>
    let s := (s.onTile l (fun t => { t with windows := t.windows.del k })).tpOut l (.tpWin l (winWord false k w.base w.length))
    match w.byRead with
    | some _ => s
    | none =>
      let s := s.record l w.client w.tag status 0 w.got
      if w.semEn then s.semBump l w.sem else s

/-- Bytes that have passed check 3 count once into every window they lie in; a window that reaches its expected count
closes (05 R132). -/
def State.countWindows (s : State) (l addr n : Nat) : State :=
  (s.windowsAt l addr n).foldl (fun s kv =>
    let k := kv.1
    let w := kv.2
    let a := Nat.max addr w.base
    let m := Nat.min (addr + n) (w.base + w.length) - a
    let new := uncovered w.ranges a m
    let w' := { w with got := w.got + new, ranges := if new = 0 then w.ranges else w.ranges ++ [(a, m)] }
    let s := s.onTile l (fun t => { t with windows := t.windows.put k w' })
    if w'.expected ≤ w'.got then s.closeWin l k 0 else s) s

/-- A data unit permuted under 05 R136: the lanes of the table, the fill value, and whether a lane was filled. -/
def State.permute (s : State) (l table esize vl : Nat) (fill : BitVec 32) (p : Payload) : Payload × Bool :=
  let w := if esize = 0 then 1 else if esize = 1 then 2 else 4
  let n := 64 / w
  let idx := (List.range n).map (fun j => s.word 0x800203 (8192 + l) (64 * table + j) 0)
  let lane (i : Nat) : Nat := if i < vl then bitsAt p.toNat (8 * w * i) (8 * w) else fill.toNat % 2 ^ (8 * w)
  (BitVec.ofNat 512 ((idx.map lane).zipIdx.foldl (fun a x => a + x.1 * 2 ^ (8 * w * x.2)) 0), idx.any (fun i => vl ≤ i))

/-- One data unit written at an address: permuted where a window says so (05 R136); whether a lane was filled. -/
def State.writeUnit (s : State) (l addr : Nat) (p : Payload) : State × Bool :=
  match (s.windowsAt l addr 64).find? (fun w => w.2.permute) with
  | some (k, w) =>
    let r := s.permute l w.table w.esize w.vl w.fill p
    let s := s.storeBytes l addr (payloadBytes r.1)
    (if r.2 then s.onTile l (fun t => { t with windows := t.windows.put k { w with filled := true } }) else s, r.2)
  | none => (s.storeBytes l addr (payloadBytes p), false)

/-- The data units of a packet written from an address upward; a packet that fills lanes is one FILLED event (log
entry 8). -/
def State.writeUnits (s : State) (l addr : Nat) (ps : List Payload) : State :=
  let r := ps.zipIdx.foldl (fun (x : State × Bool) p =>
    let y := x.1.writeUnit l (addr + 64 * p.2) p.1
    (y.1, x.2 || y.2)) (s, false)
  if r.2 then r.1.bump 0x800204 (8192 + l) 0 0 16 16 1 else r.1

/-- The data unit at which the copies of the permute network disagree, where the landing permutes that unit as it writes the packet from
`a` upward: `always` for a receive descriptor that sets permute enable, else by its window (05 R136, R137). -/
def State.permuteMiss (s : State) (l a : Nat) (always : Bool) (p : Packet) : Option Nat :=
  match p.permBad with
  | some k => if k < p.data.length ∧ (always = true ∨ (s.windowsAt l (a + 64 * k) 64).any (fun w => w.2.permute)) then some k else none
  | none => none

/-- A permute mismatch: counted and reported (05 R137). -/
def State.permuteFault (s : State) (l : Nat) (h : Header) : State :=
  (s.bump 0x800204 (8192 + l) 0 0 0 16 1).raise (.landing l) 8 0x023 h.part.toNat (ctxPacket 0 h)

/-- Whether a range meets a locked source range of a landing (05 R128). -/
def State.lockedAt (s : State) (l addr n : Nat) : Bool :=
  (s.ep l).entries.any (fun en => en.2.locks.any (fun r => meets addr n r.1 r.2))

/-- Counts of an arrival: undeclared in no window, or overlapping a lock (05 R128, R133). -/
def State.countArrival (s : State) (l addr n : Nat) : State :=
  let s := if (s.windowsAt l addr n).isEmpty then s.bump 0x800202 (8192 + l) 0 0 0 16 1 else s
  if s.lockedAt l addr n then s.bump 0x800202 (8192 + l) 0 0 16 16 1 else s

/-- Data that are not applied, from `a` upward: the units before a permute mismatch `miss` are written, and all of it is counted (05
R133, R137). -/
def State.dataLost (s : State) (l a : Nat) (p : Packet) (miss : Option Nat) : State :=
  let s := s.countArrival l a (64 * p.data.length)
  match miss with
  | some k => (s.writeUnits l a (p.data.take k)).permuteFault l p.hdr
  | none => s.writeUnits l a p.data

/-- Whether a range is being scrubbed (05 R138). -/
def State.scrubbing (s : State) (l addr n : Nat) : Bool :=
  match (s.tile l).scrub with
  | some x => meets addr n x.base (64 * x.lines)
  | none => false

/-! ## The packets of an entry (05 R126, 04 R111) -/

/-- The entry of a landing. -/
def State.entry (s : State) (e k : Nat) : Entry := (s.ep e).entries.get {} k

/-- Change an entry that is in use. -/
def State.onEntry (s : State) (e k : Nat) (f : Entry → Entry) : State :=
  s.onEp e (fun x => match x.entries.find k with
    | some en => { x with entries := x.entries.put k (f en) }
    | none => x)

/-- The command of packet `i` of a descriptor. -/
def packetCommand (op i total : Nat) : Nat :=
  let last := i + 1 = total
  match op with
  | 1 => 0x01
  | 2 => 0x02
  | 3 => 0x03
  | 4 => 0x07
  | 5 => if last then 0x08 else 0x01
  | 6 => 0x10
  | _ => if last then 0x11 else 0x10

/-- Data units of packet `i` of a transfer. -/
def packetUnits (d : Desc) (i : Nat) : Nat := Nat.min 64 (d.length.toNat - 64 * i)

/-- Whether a command carries a semaphore operation. -/
def bearsSignal (c : Nat) : Bool := c == 0x07 || c == 0x08 || c == 0x11

/-- The stream number of an endpoint's entry (02 R46). -/
def streamOf (e k : Nat) : Nat := if e < 2048 then e * 64 + k else k

/-- The header of packet `i` of a descriptor, without its time fields. -/
def State.packetHeader (s : State) (e k : Nat) (en : Entry) (d : Desc) (i : Nat) (seq : BitVec 16) (inl : BitVec 256) : Header :=
  let c := packetCommand en.opcode i en.total
  let mc := c == 0x10 || c == 0x11
  let data := c == 0x01 || c == 0x08 || mc
  let units := packetUnits d i
  let base := s.ownHeader c (if d.vc5 then 5 else 1) (s.epPart e) (s.addrOf e) d.dest 0 0
  let aux : Nat := if c = 0x02 then d.length.toNat
    else if c = 0x03 then units
    else if bearsSignal c then d.rsem.toNat + d.rop.toNat * 256 else 0
  let inline : BitVec 256 := if c = 0x02 then inl
    else if c = 0x03 then BitVec.ofNat 256 (d.localAddr.toNat + 4096 * i)
    else if bearsSignal c then BitVec.ofNat 256 d.operand.toNat else 0
  { base with
    mcast := if mc then 1 else 0
    length := BitVec.ofNat 7 (if data then units else 0)
    stream := BitVec.ofNat 17 (streamOf e k)
    seq := seq
    addr := if c = 0x07 then 0 else d.remote + BitVec.ofNat 24 (4096 * i)
    aux := BitVec.ofNat 32 aux
    inl := inline }

/-- The local bytes that packet `i` reads: none for a READ or a SIGNAL. -/
def sourceBytes (op : Nat) (d : Desc) (i : Nat) : Nat :=
  match op with
  | 2 => d.length.toNat
  | 3 | 4 => 0
  | _ => 64 * packetUnits d i

/-- Rows of a range. -/
def rowsOf (base n : Nat) : List Nat := (List.range ((base + n + 127) / 128 - base / 128)).map (· + base / 128)

/-- An outbound request of the host landing on HL_ORQ under the lowest free tag; while 64 are outstanding it waits (14
R360). The address is an offset in the host window. -/
def State.hostRequest (s : State) (x : HostAsk) : State :=
  match (List.range 64).find? (fun t => (s.host.outReqs.find t).isNone) with
  | none => { s with host := { s.host with asks := s.host.asks ++ [x] } }
  | some t =>
    ({ s with host := { s.host with outReqs := s.host.outReqs.put t x.req } }).emit
      (.hlReq (BitVec.ofNat 128 ((if x.read then 1 else 2) * 2 ^ 124 + t * 2 ^ 116 + x.req.beats % 128 * 2 ^ 109 +
        (s.val 0x044001 + x.addr) % 2 ^ 64)) x.data)

/-- Start a source read: the rows are asked for on TP_SRA, or the bytes of the host window on HL_ORQ for the host
landing (02 R58, 05 R117, 14 R360). -/
def State.startRead (s : State) (e : Nat) (j : ReadJob) : State :=
  let s := s.onEp e (fun x => { x with jobs := x.jobs ++ [j] })
  if e = 2048 then
    s.hostRequest { req := { use := 5, beats := (j.base % 64 + j.bytes + 63) / 64, hdr := some j.hdr }
                    read := true, addr := j.base / 64 * 64, data := [] }
  else (rowsOf j.base j.bytes).foldl (fun s r => s.emit (.tpRowRead e r)) s

/-- The next sequence number of an entry's dynamic stream (05 R123). -/
def State.takeSeq (s : State) (e k : Nat) : BitVec 16 × State :=
  let q := (s.ep e).seqs.get 0 k
  (q, s.onEp e (fun x => { x with seqs := x.seqs.put k (q + 1) }))

/-- A packet of an entry that has just been made. -/
def newOutst (h : Header) (localAddr bytes : Nat) : Outst :=
  { hdr := h, attempt := 0, deadline := none, left := 0, frame := 0, failed := false, localAddr := localAddr, bytes := bytes
    stairs := 0, nacked := false, hallDrop := false, closing := false, sent := false }

/-- Whether packet `i` may go now: fewer than 8 await an answer, and the last packet of a signal-bearing transfer goes
only when every earlier one has been acknowledged (05 R126). -/
def maySendNext (en : Entry) : Bool :=
  en.next < en.total && en.outst.length < 8 && !en.waits &&
    !((en.opcode == 5 || en.opcode == 7) && en.next + 1 == en.total && !en.outst.isEmpty)

/-- Make the next packet of an entry: its source range is locked and read, or its header is queued at once. -/
def State.sendNext (s : State) (e k : Nat) : State :=
  let en := s.entry e k
  match en.desc with
  | none => s
  | some d =>
    if !maySendNext en then s
    else
      let i := en.next
      let r := s.takeSeq e k
      let h := s.packetHeader e k en d i r.1 0
      let n := sourceBytes en.opcode d i
      let a := d.localAddr.toNat + 4096 * i
      let bytes := if en.opcode = 3 then 64 * packetUnits d i else n
      let s := r.2.onEntry e k (fun en => { en with
        next := i + 1
        outst := en.outst ++ [newOutst h a bytes]
        locks := if n = 0 then en.locks else en.locks ++ [(a, n)] })
      if n = 0 then s.queueTx e .fresh h [] k
      else s.startRead e { use := .entry k, hdr := h, base := a, bytes := n, rows := [], kind := .fresh }

/-- Make packets until eight of the entry await an answer. -/
def State.pump (s : State) (e k : Nat) : State := (List.range 8).foldl (fun s _ => s.sendNext e k) s

/-- Whether a descriptor of a client older than `order` has not completed: one with an entry, an OPEN_WINDOW whose window is open, or a
local one that waits itself (05 R124, R127). -/
def State.olderOpen (s : State) (e client order : Nat) : Bool :=
  (s.ep e).entries.any (fun x => x.2.kind == 1 && x.2.client == client && x.2.order < order) ||
  (decide (e < 2048) && ((s.tile e).windows.any (fun w => w.2.byRead.isNone && w.2.client == client && w.2.order < order) ||
    (s.tile e).locals.any (fun x => x.client == client && x.order < order)))

/-- A descriptor completes at once with a status: its record, and its completion semaphore in any case (05 R127). -/
def State.refuseDesc (s : State) (e client : Nat) (d : Desc) (status : Nat) : State :=
  let s := s.record e client d.tag status 0 0
  if d.semEn then s.semBump e d.sem else s

/-- The window of an OPEN_WINDOW (05 R124, R132). -/
def openedWindow (client order : Nat) (d : Desc) : Window :=
  let x := d.specific.toNat
  { base := d.localAddr.toNat, length := 64 * d.length.toNat, expected := bitsAt x 72 24, got := 0, ranges := []
    client := client, order := order, tag := d.tag, semEn := d.semEn, sem := d.sem, byRead := none, permute := x.testBit 68
    table := bitsAt x 69 3, esize := bitsAt x 66 2, vl := bitsAt x 59 7, fill := BitVec.ofNat 32 (bitsAt x 27 32)
    filled := false }

/-- What a local opcode does at its landing (05 R125, R132, R139). -/
def State.localAct (s : State) (e client op : Nat) (d : Desc) (order : Nat) : State :=
  let x := d.specific.toNat
  match op with
  | 8 =>
    let k := bitsAt x 96 6
    if ((s.tile e).windows.find k).isSome ∨ !(s.windowsAt e d.localAddr.toNat (64 * d.length.toNat)).isEmpty then
      s.refuseDesc e client d 0x80
    else s.openWin e k (openedWindow client order d)
  | 9 =>
    match (s.tile e).windows.find (bitsAt x 96 6) with
    | none => s.refuseDesc e client d 0x81
    | some w => if w.byRead.isSome then s.refuseDesc e client d 0x85
      else (s.closeWin e (bitsAt x 96 6) 0x84).refuseDesc e client d 0
  | 10 =>
    let k := bitsAt x 100 2
    let cfg := bitsAt x 36 64
    ((s.setWord (0x800401 + k) (8192 + e) 0 0 cfg).onTile e (fun t => { t with
      taps := t.taps.put k { cfg := BitVec.ofNat 64 cfg } })).refuseDesc e client d 0
  | _ =>
    let k := bitsAt x 100 2
    let cfg := ((s.tile e).taps.get {} k).cfg &&& 0x7FFFFFFFFFFFFFFF#64
    ((s.setWord (0x800401 + k) (8192 + e) 0 0 cfg.toNat).onTile e (fun t => { t with
      taps := t.taps.modify {} k (fun y => { y with cfg := cfg }) })).refuseDesc e client d 0

/-- The local descriptors whose after bit has been met act, oldest first (05 R124); `n` passes, as one may close a window that another
waits for. -/
def State.runLocals (s : State) (e : Nat) : Nat → State
  | 0 => s
  | n + 1 =>
    match (s.tile e).locals.find? (fun x => !s.olderOpen e x.client x.order) with
    | some x => ((s.onTile e (fun t => { t with locals := t.locals.erase x })).localAct e x.client x.opcode x.desc x.order).runLocals e n
    | none => s

/-- Descriptors whose after bit has been met start (05 R124). A COLLECTIVE that waits is left to its launch. -/
def State.startWaiting (s : State) (e : Nat) : State :=
  if e < 2048 ∧ (s.tile e).aborted then s
  else
    let s := if e < 2048 then s.runLocals e (s.tile e).locals.length else s
    (s.ep e).entries.foldl (fun s kv =>
    let en := s.entry e kv.1
    if en.kind = 1 ∧ en.waits ∧ en.opcode ≠ 12 ∧ !s.olderOpen e en.client en.order then
      (s.onEntry e kv.1 (fun en => { en with waits := false })).pump e kv.1
    else s) s

/-- The end of what a packet or a tile does at an endpoint: the waits of a landing are tested, then the descriptors that waited start (05
R124, R135). -/
def State.settleTile (s : State) (e : Nat) : State := (s.wakeWaits e).startWaiting e

/-! ## The end of a collective's launch at a member (07 R182, R194, R195) -/

/-- The collective field of a handle in a form (02 R48). -/
def collField (d h form : Nat) : BitVec 32 :=
  BitVec.ofNat 32 (dOp d * 2 ^ 28 + (dFmt d).code * 2 ^ 24 + form * 2 ^ 22 + (if dWrap d then 2 ^ 21 else 0) + h * 2 ^ 9)

/-- The roles of a member in a launch: the switches that it requests reservations for (07 R182). -/
def State.roles (s : State) (h l n : Nat) : List UnitId :=
  let d := s.desc h
  let t := s.thresholds h
  let ms := members d
  let sel := s.selection h n
  let low (u : UnitId) : Bool := (membersBelow d u).head? == some l
  let st := UnitId.stair (l / 16)
  let ga := UnitId.gallery (l / 256)
  let ha := UnitId.hall sel.plane
  let kids (f : Nat → Nat) (u : UnitId) : Nat := ((membersBelow d u).map f).dedup.length
  let a := if t.mask.testBit 0 && low st && t.minimum ≤ kids id st then [st] else []
  let b := if t.mask.testBit 1 && low ga && t.minimum ≤ kids (· / 16) ga then [ga] else []
  let c := if t.mask.testBit 2 && ms.head? == some l && t.minimum ≤ kids (· / 256) ha then [ha] else []
  a ++ b ++ c

/-- Store entries of one chunk of 64 units per 06 R167, the coverage map included. -/
def entriesPerChunk (d form units below : Nat) : Nat :=
  let f := dFmt d
  let per64 := if dOp d = 0 then (if form = 2 then 16 * roundedUnits f else 16 * exactUnits f) else if dOp d = 9 then 16 * below else 16
  (per64 * units + 63) / 64 + (below + 2047) / 2048

/-- Store entries of a request for the chunks in flight, the shorter last chunk of the vector in proportion (06 R167). -/
def State.entriesFor (s : State) (h n form below : Nat) : Nat :=
  let d := s.desc h
  let blocks := vectorBytes d n / 64
  let k := Nat.min (s.selection h n).chunks ((blocks + 63) / 64)
  (List.range k).foldl (fun a i => a + entriesPerChunk d form (Nat.min 64 (blocks - 64 * i)) below) 0

/-- The next place of a member after a unit's own in landing order, on the same level (07 R182). -/
def apexTarget (d : Nat) (u : UnitId) : Option Nat :=
  match u with
  | .stair n => (members d).find? (fun l => l / 16 == n && chipRootOf (.stair n) d < l)
  | .gallery g => ((membersBelow d u).find? (fun l => chipRootOf u d / 16 < l / 16 && l / 256 == g))
  | .hall _ => (members d).find? (fun l => chipRoot d / 256 < l / 256)
  | _ => none
where
  /-- The lowest member below a switch. -/
  chipRootOf (u : UnitId) (d : Nat) : Nat := (membersBelow d u).headD 0

/-- A reservation packet of a handle (07 R182, R194). -/
def State.resvHeader (s : State) (h cmd form plane entries : Nat) (src dst : BitVec 24) (stream : BitVec 17) (seq : BitVec 16) (part : Nat) : Header :=
  { s.ownHeader cmd 3 part src dst (BitVec.ofNat 32 entries) 0 with
    plane := BitVec.ofNat 2 plane, stream := stream, seq := seq, coll := collField (s.desc h) h form }

/-- A member of this chip ends its launch of a handle: the collective state, and the row of collective counters (07 R195, 13 R338).
`ran` says that its go had come: the end of an earlier run leaves the state of a new launch alone. -/
def State.memberDone (s : State) (h status : Nat) (ran : Bool) : State :=
  let d := s.desc h
  let c := s.coll h
  let t := s.now (.landing (chipRoot d))
  let all := c.finished + 1 = dNum d
  let s := s.onColl h (fun c => { c with
    finished := c.finished + 1
    st := if ran && c.st == 1 then 1 else if status ≠ 0 then 4 else if all ∧ c.st = 2 then 3 else c.st
    inForce := if all then none else c.inForce })
  let s := if status ≠ 0 ∧ c.st ≠ 4 then s.bump 0x385001 0 h 1 0 64 1 else s
  if all then s.bump 0x385001 0 h 3 0 64 (t - c.goAt) else s

/-- A COLLECTIVE descriptor ends, well or with an error: its member's own reservations are returned to their apexes, and its launch
is over (07 R194, R195). -/
def State.endLaunch (s : State) (l k h status : Nat) : State :=
  match (s.tile l).launches.find h with
  | none => s
  | some x =>
    if x.entry ≠ k then s
    else
      let d := s.desc h
      let form := if dOp d = 0 then 1 else 0
      let s := (s.roles h l (dCount d)).foldl (fun s u => match apexTarget d u with
        | none => s
        | some t =>
          let r := s.takeSeq l k
          r.2.queueTx l .fresh (s.resvHeader h 0x26 form (s.selection h (dCount d)).plane
            (s.entriesFor h (dCount d) form (membersBelow d u).length) (s.addrOf l) (s.addrOf t) (BitVec.ofNat 17 (streamOf l k)) r.1
            (s.epPart l)) [] 64) s
      (s.memberDone h status x.go.isSome).onTile l (fun t => { t with launches := t.launches.del h })

/-- A dynamic transaction ends: its packets, jobs and locks go, its window closes with its status, its client gets the
completion record and the completion semaphore (05 R127, R128, R132). -/
def State.endEntry (s : State) (e k status : Nat) : State :=
  let en := s.entry e k
  match en.desc with
  | none => s.onEp e (fun x => { x with entries := x.entries.del k })
  | some d =>
    let claimed := decide (e < 2048) && ((s.tile e).txs.find k).isSome
    let s := s.onEp e (fun x => { x with
      entries := if claimed then x.entries.put k { kind := 2 } else x.entries.del k
      tx := x.tx.filter (fun t => t.entry != k)
      jobs := x.jobs.filter (fun j => j.use != JobUse.entry k) })
    let s := match en.window with
      | some w => if (((s.tile e).windows.find w).bind (·.byRead)) = some k then s.closeWin e w status else s
      | none => s
    let s := if status = 6 ∧ e < 2048 then s.bump 0x102002 (8192 + e) 0 0 0 32 1 else s
    let s := s.record e en.client d.tag status k en.bytes
    let s := if d.semEn then s.semBump e d.sem else s
    let s := if en.opcode = 12 then s.endLaunch e k en.handle status else s
    s.settleTile e

/-- A packet of an entry is answered: its lock is released, and the entry goes on or completes (04 R111). -/
def State.packetDone (s : State) (e k : Nat) (o : Outst) : State :=
  let s := s.onEntry e k (fun en => { en with
    outst := en.outst.filter (fun x => x.hdr.seq != o.hdr.seq)
    locks := en.locks.erase (o.localAddr, o.bytes)
    bytes := en.bytes + o.bytes })
  let en := s.entry e k
  if en.outst.isEmpty ∧ en.next = en.total then s.endEntry e k 0 else s.pump e k

/-- Send a packet of an entry again: it is read again from its range (02 R60, 04 R111). One that carries no data, a READ_REQ, a
SIGNAL, a count exchange or a chunk of identity elements only, is queued at once. -/
def State.resend (s : State) (e k : Nat) (o : Outst) : State :=
  let s := s.onEntry e k (fun en => { en with outst := en.outst.map (fun x =>
    if x.hdr.seq = o.hdr.seq then { x with attempt := x.attempt + 1, deadline := none, nacked := false, stairs := 0, hallDrop := false, sent := false } else x) })
  let c := o.hdr.command.toNat
  let s := if c = 0x20 then s.bump 0x385001 0 (collHandle o.hdr) 2 0 64 1 else s
  if c = 0x03 ∨ c = 0x07 ∨ o.bytes = 0 then s.queueTx e .resend o.hdr [] k
  else s.startRead e { use := .entry k, hdr := o.hdr, base := o.localAddr, bytes := o.bytes, rows := [], kind := .resend }

/-- A NACK or an expiry of a dynamic packet: a resend while the attempt count is below 3, else status 0x06 (04 R111). -/
def State.retry (s : State) (e k : Nat) (o : Outst) : State :=
  if o.attempt < 3 then s.resend e k o else s.endEntry e k 6

/-- The open packet of an endpoint that an answer names by stream and sequence: its entry and the packet. -/
def State.openPacket (s : State) (e : Nat) (h : Header) : Option (Nat × Outst) :=
  let k := h.stream.toNat % 64
  if h.stream.toNat ≠ streamOf e k then none
  else ((s.entry e k).outst.find? (fun o => o.hdr.seq == h.seq)).map (fun o => (k, o))

/-! ## Receipt (02 R54, R58, R60, R382) -/

/-- The first check a whole packet fails at its destination, as a NACK reason: truncated 2, length 3, CRC 1 (log entry
9). -/
def checkThree (p : Packet) : Option Nat :=
  if p.trunc then some 2
  else if p.data.length ≠ p.hdr.length.toNat then some 3
  else if crc32c (packHeader p.hdr :: p.data) ≠ p.tail then some 1
  else none

/-- Whether R382 answers a failed packet with a NACK: of the count exchanges only the one between chip roots. -/
def State.drawsNack (s : State) (h : Header) : Bool :=
  [0x01, 0x02, 0x03, 0x07, 0x08, 0x10, 0x11, 0x30].contains h.command.toNat || s.toRootGroup h

/-- An operand or code that its command reserves (02 R50, R51), which 00 R10 discards. -/
def reservedOperand (h : Header) : Bool :=
  match h.command.toNat with
  | 2 => h.aux.toNat % 64 == 0 || 32 < h.aux.toNat % 64
  | 3 => h.aux.toNat % 128 == 0 || 64 < h.aux.toNat % 128
  | 4 => h.aux.toNat % 256 != 0
  | 5 => 1 < h.aux.toNat % 256
  | 6 => h.aux.toNat % 256 == 0 || 3 < h.aux.toNat % 256
  | 7 | 8 | 0x11 => h.aux.toNat.testBit 9
  | 0x20 | 0x21 => 5 < makerOf h
  | 0x35 => h.aux.toNat % 256 == 0 || 0x0A < h.aux.toNat % 256
  | _ => false

/-- Take a packet out of those that wait at a unit. -/
def State.takeRx (s : State) (u : UnitId) (p : Packet) : State :=
  s.onNode u (fun n => { n with rxDone := n.rxDone.erase { p with permBad := none } })

/-- Discard a packet and count it at the port it came by (02 R60). -/
def State.discard (s : State) (u : UnitId) (port : Nat) (h : Header) : State :=
  s.event u port 0x07 h.part.toNat (vcOf h) 0 1

/-- A packet that the filter has no record to spare for: discarded without an answer, and the loss counted (04 R112). -/
def State.filterFull (s : State) (e : Nat) (h : Header) : State :=
  (if e < 2048 then s.bump 0x102004 (8192 + e) 0 0 16 16 1 else s).discard (epUnit e) (epPort e) h

/-- A packet that fails at its destination for NACK reason `r`: counted, `g` on what it leaves behind, and the NACK where R382 has one. -/
def State.failReceipt (s : State) (u : UnitId) (port : Nat) (p : Packet) (r : Nat) (g : State → State) : State :=
  let s := if r = 2 then (s.event u port 0x06 p.hdr.part.toNat (vcOf p.hdr) 0 1).traceDrop u port 6 p.hdr else s.discard u port p.hdr
  let s := g s
  if s.drawsNack p.hdr then (match epOf u with | some e => s.nack e p.hdr r | none => s) else s

/-- Receive a packet at a unit: header checks, stale check, check 3, reserved operands; `f` acts on a packet that passes, `g` on
one that fails check 3. -/
def State.receiveOr (s : State) (u : UnitId) (port : Nat) (p : Packet) (g f : State → State) : State :=
  let s := s.takeRx u p
  if (headerFault p.hdr).isSome then s.malformed u port p.hdr
  else if (s.bankAt u p.hdr).isNone then
    s.staleAt u port p.hdr
  else match checkThree p with
    | none => if reservedOperand p.hdr then s.malformed u port p.hdr else f s
    | some r => s.failReceipt u port p r g

/-- Receive a packet whose failure leaves nothing behind. -/
def State.receive (s : State) (u : UnitId) (port : Nat) (p : Packet) (f : State → State) : State := s.receiveOr u port p id f

/-- The commands that an endpoint serves (02 R54 check 10, R381). -/
def serves (e : Nat) (c : Nat) : Bool :=
  if e < 2048 then [1, 2, 3, 4, 5, 6, 7, 8, 0x10, 0x11, 0x12, 0x20, 0x21, 0x22, 0x24, 0x25, 0x35, 0x40].contains c
  else if e = 2048 then [1, 2, 3, 4, 5, 6, 7, 8, 0x31, 0x35].contains c
  else if e = 2049 then [1, 2, 3, 0x30].contains c
  else if e = 2050 then c == 0x32
  else if e ≤ 2059 then [0x30, 0x31, 0x34, 0x35, 0x41, 0x43].contains c
  else c == 0x33

/-- Whether the endpoint permits the command to the packet's partition (01 R33, 02 R49, R381). -/
def permits (e : Nat) (h : Header) : Bool :=
  let c := h.command.toNat
  if e = 2049 ∨ (0x30 ≤ c ∧ c ≤ 0x34) ∨ (0x40 ≤ c ∧ c ≤ 0x43) then h.part.toNat == 1023 else true

/-- The last byte that a command touches plus one, from its address (02 R52). -/
def touched (h : Header) : Nat :=
  match h.command.toNat with
  | 2 => h.aux.toNat % 64
  | 3 => 64 * (h.aux.toNat % 128)
  | _ => 64 * h.length.toNat

/-- Whether the address field of a command is one of 02 R52's. -/
def bearsAddress (c : Nat) : Bool := [1, 2, 3, 4, 8, 0x10, 0x11, 0x20, 0x21].contains c

/-- Greatest address plus one of what a header's address means at an endpoint (02 R52): a byte of its space, or of the members'
vector; none where the rule gives no range. -/
def addressSpace (e : Nat) (h : Header) : Option Nat :=
  if h.command = 0x20#8 ∨ h.command = 0x21#8 then some 0x1000000
  else if e < 2048 then some 0xC0000
  else if e = 2048 then some 0x1000000
  else if e = 2049 then some 0x200000
  else none

/-- Check 9 of 02 R54: the ERROR_RESP code of an invalid address. DESIGN CHOICE: where an address is both misaligned and out of
range, of which the spec gives no order, 0x04 is returned (log entry 127). -/
def addressFault (e : Nat) (h : Header) : Option Nat :=
  if !bearsAddress h.command.toNat then none
  else match addressSpace e h with
    | none => none
    | some n =>
      if 0 < h.length.toNat ∧ h.addr.toNat % 64 ≠ 0 then some 4
      else if n < h.addr.toNat + touched h then some 3
      else none

/-- Checks 9 and 10 of 02 R54 at an endpoint; `f` acts on a packet that passes them. A command that R382 does not answer and that
the endpoint does not serve is discarded and counted (R381). -/
def State.takeIn (s : State) (e : Nat) (h : Header) (f : State → State) : State :=
  let u := epUnit e
  let refuse (s : State) (code : Nat) : State := if s.callsAnswer h then s.error u h code else s.discard u (epPort e) h
  match addressFault e h with
  | some c => s.error u h c
  | none =>
    if !serves e h.command.toNat then refuse s 0x09
    else if !permits e h then refuse s 0x07
    else f s

/-! ## Tensor taps (05 R139 to R141) -/

/-- Format of a tap. -/
def tapFmt (c : BitVec 64) : Nat := bitsAt c.toNat 58 4

/-- Whether a value of a format lies below another in the order of the taps (05 R140). -/
def numBelow (f : Fmt) (x y : Nat) : Bool :=
  match decodeNum f x, decodeNum f y with
  | .nan, _ | _, .nan => false
  | .fin s a, .fin t b => if f.isInt then a < b else numKey 0 (.fin s a) < numKey 0 (.fin t b)
  | a, b => numKey 0 a < numKey 0 b

/-- One element enters a tap (05 R140). -/
def tapElem (f : Fmt) (t : Tap) (v : Nat) : Tap :=
  if t.overflow then t
  else
    let t := { t with count := t.count + 1, overflow := t.count + 1 == 2 ^ 40 }
    match decodeNum f v with
    | .nan => { t with nans := t.nans + 1 }
    | n =>
      let below (o : Option (BitVec 32)) : Bool := match o with | none => true | some x => numBelow f v x.toNat
      let above (o : Option (BitVec 32)) : Bool := match o with | none => true | some x => numBelow f x.toNat v
      let t := { t with min := if below t.min then some (BitVec.ofNat 32 v) else t.min
                        max := if above t.max then some (BitVec.ofNat 32 v) else t.max }
      match n with
      | .fin _ a => { t with zeros := t.zeros + (if a = 0 then 1 else 0), sum := t.sum + a }
      | _ => { t with infs := t.infs + 1 }

/-- The bytes of one packet enter a tap: whole elements into the statistics, every byte into the digest (05 R140, R141). A packet in
which OVERFLOW comes enters the digest whole, which freezes from the next packet on; ORDER does not freeze (log entry 149). -/
def tapPacket (t : Tap) (seq : BitVec 16) (bs : List Byte) : Tap :=
  let f := fmtOf (tapFmt t.cfg)
  let frozen := t.overflow
  let t' := (splitVals f.bytes (bs.length / f.bytes) bs).foldl (tapElem f) t
  let order := match t.last with
    | some q => t.cfg.getLsbD 62 && seq != q + 1
    | none => false
  { t' with digest := if frozen then t.digest else crc64 bs t.digest, last := some seq, order := t.order || order }

/-- Put a packet's bytes through the taps of a landing that watch its stream (05 R139): `rx` on receipt from `src`. -/
def State.tapBytes (s : State) (l : Nat) (rx : Bool) (src : BitVec 24) (stream : BitVec 17) (seq : BitVec 16) (bs : List Byte) : State :=
  (List.range 4).foldl (fun s k =>
    let t := (s.tile l).taps.get {} k
    let c := t.cfg.toNat
    if c.testBit 63 ∧ c.testBit 62 = rx ∧ bitsAt c 41 17 = stream.toNat ∧ (rx = false ∨ bitsAt c 17 24 = src.toNat) then
      s.onTile l (fun x => { x with taps := x.taps.put k (tapPacket t seq bs) })
    else s) s

end Sys2Proof.Machine
end

