-- ==== Sys2Proof/Machine/Combine.lean ====
section
/-!
DEFINITION. Combining nodes (06 R161 to R173, 07 R185 to R192): what a switch or a chip root does with a contribution, the
partials and results that it sends, the stages between chips, and the all-gather of RING.
-/
namespace Sys2Proof.Machine

/-! ## Chunks of a node -/

/-- The chunks that a node holds for a handle: a switch's own, or those of the handle at the chip root. -/
def State.chunksAt (s : State) (u : UnitId) (h : Nat) : List Chunk :=
  match u with
  | .landing _ => (s.coll h).chunks
  | _ => (s.sw u).chunks.filter (fun c => c.handle == h)

/-- Put a chunk in place of the one of the same handle, stage and first block. -/
def State.putChunk (s : State) (u : UnitId) (c : Chunk) : State :=
  let f (cs : List Chunk) : List Chunk :=
    cs.filter (fun x => !(x.handle == c.handle && x.stage == c.stage && x.first == c.first)) ++ [c]
  match u with
  | .landing _ => s.onColl c.handle (fun x => { x with chunks := f x.chunks })
  | _ => s.onSw u (fun w => { w with chunks := f w.chunks })

/-- Remove a chunk of a node. -/
def State.dropChunk (s : State) (u : UnitId) (c : Chunk) : State :=
  let f (cs : List Chunk) : List Chunk := cs.filter (fun x => !(x.handle == c.handle && x.stage == c.stage && x.first == c.first))
  match u with
  | .landing _ => s.onColl c.handle (fun x => { x with chunks := f x.chunks })
  | _ => s.onSw u (fun w => { w with chunks := f w.chunks })

/-- The scale at which a node keeps the sums of a handle: 149 once carries may enter (06 R159). -/
def State.sumScale (s : State) (h n : Nat) : Nat := if (s.selection h n).form = 2 then 149 else (dFmt (s.desc h)).scale

/-- Elements of a block. -/
def blockElems (d : Nat) : Nat := 64 / dElem d

/-- An empty chunk. -/
def newChunk (h stage first blocks low : Nat) (rounded : Bool) : Chunk :=
  { handle := h, stage := stage, first := first, blocks := blocks, cover := List.replicate blocks 0, accs := [], pairs := []
    low := low, rounded := rounded, out := [], late := false, done := false, passed := [], ownAt := none }

/-- The input of a node: its first block, its accumulators, the coverage it brings, its lowest rank, its pairs for LSE, and
the header that brought it. -/
structure Input where
  first : Nat
  blocks : Nat
  accs : List Acc
  mask : Nat
  low : Nat
  hdr : Header

/-- Whether an input overlaps what a chunk already covers (06 R163). -/
def overlaps (c : Chunk) (i : Input) : Bool :=
  (List.range c.blocks).any (fun k =>
    i.first ≤ c.first + k && c.first + k < i.first + i.blocks && (c.cover.getD k 0 &&& i.mask) != 0)

/-- Take an input into a chunk, block by block. -/
def absorb (op : Nat) (f : Fmt) (epb : Nat) (c : Chunk) (i : Input) : Chunk :=
  let w := accWidth f c.rounded
  let zero : Acc := if op = 0 then .sum 0 0 else .val 0
  let old := if c.accs.isEmpty then List.replicate (c.blocks * epb) zero else c.accs
  let covered (k : Nat) : Bool := i.first ≤ c.first + k && c.first + k < i.first + i.blocks
  { c with
    cover := c.cover.zipIdx.map (fun x => if covered x.2 then x.1 ||| i.mask else x.1)
    accs := old.zipIdx.map (fun x =>
      let k := x.2 / epb
      if covered k then
        let y := i.accs.getD ((c.first + k - i.first) * epb + x.2 % epb) zero
        if c.cover.getD k 0 = 0 then y else accJoin op f w x.1 y
      else x.1)
    pairs := if op = 9 then c.pairs ++ [(i.low, i.accs.map (fun a => match a with | .val v => v | .sum _ _ => 0))] else c.pairs
    low := Nat.min c.low i.low }

/-- Whether every block of a chunk is covered by a mask. -/
def complete (c : Chunk) (full : Nat → Nat) : Bool :=
  c.cover.zipIdx.all (fun x => x.1 &&& full (c.first + x.2) == full (c.first + x.2))

/-- The fold of a chunk of LSE pairs in ascending rank (06 R156). -/
def foldPairs (c : Chunk) : List (Nat × Nat) :=
  let byRank := c.pairs.foldl (fun (acc : FMap (List Nat)) p => acc.put p.1 p.2) []
  let n := ((byRank.map (fun p => p.2.length)).foldl Nat.max 0)
  (List.range n).map (fun k => lseFold (byRank.map (fun p => let v := p.2.getD k 0; (v % 2 ^ 32, v / 2 ^ 32 % 2 ^ 32))))

/-! ## Packets of a node (06 R145, R147, R162; 02 R51) -/

/-- The global address of a member of this chip. -/
def State.memberAddr (s : State) (d i : Nat) : BitVec 24 := s.addrOf (dBase d + i % dNum d * 2 ^ dExp d)

/-- A packet that a node makes for a handle on behalf of the contribution `by_`. -/
def State.nodeHeader (s : State) (h cmd form n maker low first : Nat) (many : Bool) (mc : Bool) (src dst : BitVec 24) (plane : Nat)
    (by_ : Header) : Header :=
  { version := 1, cls := 0, vc := 3, command := BitVec.ofNat 8 cmd, mcast := if mc then 1 else 0, tag := by_.tag, part := by_.part
    src := src, dst := dst, plane := BitVec.ofNat 2 plane, length := 0, stream := by_.stream, seq := by_.seq
    addr := BitVec.ofNat 24 (64 * first), depSlot := 0, coll := collField (s.desc h) h form
    aux := BitVec.ofNat 32 ((if many then 2 ^ 31 else 0) + low % 2 ^ 24), stamp := 0, rsv := 0
    inl := BitVec.ofNat 256 (n % 2 ^ 24 + maker * 2 ^ 24) }

/-- The packets of a run of blocks in a form: at most the longest packet of 06 R147 each. -/
def packetsOf (op : Nat) (f : Fmt) (epb form first : Nat) (accs : List Acc) (hdr : Nat → Header) : List Packet :=
  let most := longestPacket f form / unitsPerBlock f form
  let n := accs.length / epb
  (runs most ((List.range n).map (· + first))).map (fun r =>
    let xs := (accs.drop ((r.1 - first) * epb)).take (r.2 * epb)
    let us := accUnits op f form xs
    let h := { hdr r.1 with length := BitVec.ofNat 7 us.length }
    { hdr := h, data := us, tail := 0, trunc := false, resend := false })

/-- The port by which the store slots of a switch carry a partial on, where its plan gives it any (07 R198). -/
def State.storePort (s : State) (u : UnitId) (h : Header) : Option Nat :=
  (((s.part h.part.toNat).storeSlots.map (·.toNat)).find? (fun v =>
    bitsAt v 113 3 == u.level && bitsAt v 101 12 == u.inst && bitsAt v 116 12 == collHandle h)).map (fun v => bitsAt v 93 8)

/-- Send packets from a node: a landing queues them; a switch holds them, a partial for its store slots in class 1 unless it is
`late`, repeats always on VC3 (03 R67, 07 R198). A result that a switch sends frees its chunk (06 R164). -/
def State.sendNode (s : State) (u : UnitId) (ps : List Packet) (late : Bool := false) : State :=
  ps.foldl (fun s p => match u with
    | .landing l => s.queueTx l (if p.resend then .resend else .fresh) p.hdr p.data 64
    | _ =>
      let s := s.freeChunk u p.hdr
      if p.hdr.mcast = 1#1 then s.startMcast ((s.bank p.hdr).getD s) u 4095 .normal p.hdr (unitsOf p.hdr p.data p.resend) true
      else match (if p.resend ∨ late ∨ p.hdr.command ≠ 0x20#8 then none else s.storePort u p.hdr) with
        | some o =>
          let h := { p.hdr with cls := 1 }
          s.hold u { id := 0, inp := 4095, lane := .sched, hdr := h, buf := 8, rel := s.now u, units := unitsOf h p.data false
                     freed := 0, closed := true, outs := copies [o] }
        | none => s.makeAt u p.hdr p.data p.resend) s

/-- What a node repeats for a duplicate of a chunk's input: the output that it has sent for those blocks, at the first stage that has
one where the node has carried its partial on in place (06 R163, 07 R189). -/
def State.repeats (s : State) (u : UnitId) (c : Chunk) : List Packet :=
  let cs := (s.chunksAt u c.handle).filter (fun x => c.stage ≤ x.stage && meets x.first x.blocks c.first c.blocks && !x.out.isEmpty)
  let k := (cs.map (·.stage)).foldl Nat.min 6
  ((cs.filter (fun x => x.stage == k)).flatMap (·.out)).map (fun p => { p with resend := true })

/-- A duplicate contribution: counted, and answered by the node's output again if that has been sent (06 R163). -/
def State.duplicate (s : State) (u : UnitId) (c : Chunk) : State :=
  let s := match u with
    | .landing l => s.bump 0x200104 (8192 + l) 0 0 0 16 1
    | _ => s.bump 0x200103 (instOf u) 0 0 0 16 1
  s.sendNode u (s.repeats u c)

/-- The accumulators at the scale of the EXACT image (06 R146). -/
def atScale (scale : Nat) (f : Fmt) (xs : List Acc) : List Acc :=
  xs.map (fun x => match x with
    | .sum a fl => .sum (a / ((2 ^ (scale - f.scale) : Nat) : Int)) fl
    | y => y)

/-- The level that a node of the chip stamps on a partial (02 R50). -/
def makerLevel : UnitId → Nat
  | .stair _ => 1
  | .gallery _ => 2
  | .hall _ => 3
  | _ => 4

/-! ## Results (06 R175, 07 R186) -/

/-- OR result flags into the row of a handle (06 R175). -/
def State.noteFlags (s : State) (h n : Nat) (fl : Flags) : State :=
  let b := fl.byte ((s.selection h n).form == 2) false ((s.coll h).settled == 1)
  s.setWord 0x201001 0 h 0 (s.word 0x201001 0 h 0 ||| b)

/-- A chunk has been combined at a node: at a root landing it is counted, and the handle's ROOT flag set, whichever node completes
the reduction (06 R169, R175). -/
def State.noteRoot (s : State) (u : UnitId) (h : Nat) : State :=
  match u with
  | .landing l =>
    (s.bump 0x200104 (8192 + l) 0 0 16 16 1).setWord 0x201001 0 h 0 (s.word 0x201001 0 h 0 ||| ({} : Flags).byte false true false)
  | _ => s

/-- The result values of a chunk as data units and flags: `f` is the format, `scale` that of the sums. The flags are those of
the first `live` elements: padding past the vector's last element is no result element (06 R175). -/
def resultUnits (op : Nat) (f : Fmt) (scale : Nat) (wrap : Bool) (live : Nat) (xs : List Acc) : List Payload × Flags :=
  let rs := xs.map (accResult op f scale wrap)
  (valUnits (elemBytes op f) (rs.map (·.1)), (rs.take live).foldl (fun a r => a.or r.2) {})

/-- A result packet, of the whole group and so of lowest rank 0, with the level of the node that makes it (06 R145). It reaches the
members of this chip by the chip group, those of every chip by the member group. -/
def State.resultPacket (s : State) (u : UnitId) (h n first : Nat) (group : Nat) (us : List Payload) (by_ : Header) : Packet :=
  let d := s.desc h
  let many := decide (1 < dNum d * chipCount d)
  let hdr := s.nodeHeader h 0x21 0 n (if many then makerLevel u else 0) 0 first many true
    (s.addrOf (chipRoot d)) (BitVec.ofNat 24 group) (s.selection h n).plane by_
  { hdr := { hdr with length := BitVec.ofNat 7 us.length }, data := us, tail := 0, trunc := false, resend := false }

/-- Bytes of a member's launch that a range of its result covers, added to what it has (07 R195). -/
def addDone (done : List (Nat × Nat)) (a n : Nat) : List (Nat × Nat) := if uncovered done a n = 0 then done else done ++ [(a, n)]

/-- Whether a range of bytes is acknowledged. -/
def isDone (done : List (Nat × Nat)) (a n : Nat) : Bool := uncovered done a n == 0

/-- The launch of a member ends well: its descriptor completes with the bytes of its result (07 R195). -/
def State.finishLaunch (s : State) (h l : Nat) : State :=
  match (s.tile l).launches.find h with
  | none => s
  | some x => (s.onEntry l x.entry (fun en => { en with bytes := x.go.getD 0 * dElem (s.desc h) })).endEntry l x.entry 0

/-- The chip root keeps a result in the retained part of its work range; its own combining state of those blocks goes (06 R164, 07
R186). -/
def State.retain (s : State) (h d l off : Nat) (data : List Payload) : State :=
  let s := data.zipIdx.foldl (fun s p => s.storeBytes l (dWork d + off + 64 * p.2) (payloadBytes p.1)) s
  s.onColl h (fun c => { c with
    retained := c.retained.filter (fun x => x.1 != off) ++ [(off, data)]
    chunks := passResult h (off / 64) data.length c.chunks })

/-- The chunks of a member's launch that a result acknowledges (07 R195): their contributions end, and the descriptor completes when
every chunk is covered. -/
def State.chunksAcked (s : State) (h l off n : Nat) : State :=
  match (s.tile l).launches.find h with
  | none => s
  | some x =>
    let done := addDone x.done off n
    let s := s.onTile l (fun t => { t with launches := t.launches.put h { x with done := done } })
    let acked := (s.entry l x.entry).outst.filter (fun o => o.hdr.command == 0x20#8 && isDone done o.hdr.addr.toNat (64 * o.hdr.length.toNat))
    let s := acked.foldl (fun s o => s.onEntry l x.entry (fun en => { en with
      outst := en.outst.filter (fun y => y.hdr.seq != o.hdr.seq), locks := en.locks.erase (o.localAddr, o.bytes) })) s
    match x.go with
    | some m => if isDone done 0 (vectorBytes (s.desc h) m) then s.finishLaunch h l else s
    | none => s

/-- A result at a member: written at the result address of its descriptor `d` as any arrival is, retained at the chip root, and
counted for its chunks (05 R128, R132, R133; 07 R186, R195). -/
def State.memberResult (s : State) (h d l : Nat) (hdr : Header) (data : List Payload) : State :=
  let off := hdr.addr.toNat
  let n := 64 * data.length
  let a := dOut d + off
  let s := ((s.countArrival l a n).writeUnits l a data).countWindows l a n
  let s := if l = chipRoot d then s.retain h d l off data else s
  (s.chunksAcked h l off n).settleTile l

/-- Send a result to the members of this chip or of every chip; a landing never receives its own multicast, so a chip root
that sends takes the result itself (07 R186, R200). -/
def State.sendResult (s : State) (u : UnitId) (h n first group : Nat) (us : List Payload) (by_ : Header) : State :=
  let p := s.resultPacket u h n first group us by_
  let s := s.sendNode u [p]
  match u with
  | .landing l => s.memberResult h (s.desc h) l p.hdr us
  | _ => s

/-! ## Stages between chips (07 R189 to R192) -/

/-- The address of the chip root of the chip at position `q` of an axis. -/
def State.rootAt (s : State) (d a q : Nat) : Option (BitVec 24) :=
  (s.chipAt d a q).map (fun c => BitVec.ofNat 24 (c * 4096 + chipRoot d))

/-- All-gather: pass result blocks along an axis, as the owner (`from_` none) or onward (07 R191). -/
def State.gatherOn (s : State) (u : UnitId) (h n first : Nat) (us : List Payload) (i : Nat) (received : Bool) (by_ : Header) : State :=
  let d := s.desc h
  let sel := s.selection h n
  let a := sel.axes.getD i 0
  let m := dExtent d a
  let q := s.posOf d s.chipNo a
  let range := s.ringRange d sel.axes (vectorBytes d n / 64) i
  let r := ringPart range m first
  let tgt := if r.1 then (q + 1) % m else (q + m - 1) % m
  let owner := if r.1 then (r.2 + m - 1) % m else (r.2 + 1) % m
  if received ∧ tgt = owner then s
  else match s.rootAt d a tgt with
    | none => s
    | some dst =>
      let hdr := s.nodeHeader h 0x21 0 n (makerLevel u) 0 first true false (s.addrOf (chipRoot d)) dst (hallOfAxis a) by_
      s.sendNode u [{ hdr := { hdr with length := BitVec.ofNat 7 us.length }, data := us, tail := 0, trunc := false, resend := false }]

/-- A RING node has a result part: it multicasts it to its chip group and passes it on (07 R191). `k` is the stage that
brought it: the number of axes for a part completed here. -/
def State.haveResult (s : State) (u : UnitId) (h n first : Nat) (us : List Payload) (k : Nat) (by_ : Header) : State :=
  let d := s.desc h
  let s := s.sendResult u h n first (dChipGroup d) us by_
  let s := if k < (s.selection h n).axes.length then s.gatherOn u h n first us k true by_ else s
  (List.range k).reverse.foldl (fun s i => s.gatherOn u h n first us i false by_) s

/-- A chunk is complete at the last stage: round or select, note the flags, and send the result (07 R186, R190, R191). -/
def State.finishChunk (s : State) (u : UnitId) (h n : Nat) (c : Chunk) (by_ : Header) : State :=
  let d := s.desc h
  let sel := s.selection h n
  let r := resultUnits (dOp d) (dFmt d) (if sel.form = 2 ∧ 0 < c.stage then 149 else (dFmt d).scale) (dWrap d)
    (n - c.first * blockElems d) c.accs
  let s := s.noteFlags h n r.2
  if sel.cross = 2 then s.haveResult u h n c.first r.1 sel.axes.length by_
  else s.sendResult u h n c.first (if sel.cross = 0 then dChipGroup d else dMemGroup d) r.1 by_

/-- The source of a partial: the address of the lowest-ranked member that it covers where a switch makes it (06 R162), the chip
root's own where that does. -/
def State.partialSource (s : State) (u : UnitId) (d low : Nat) : BitVec 24 :=
  match u with
  | .landing l => s.addrOf l
  | _ => s.rankAddr d low

/-- The cross-chip half of a straggler record: the lowest rank of the last partial of another chip and the slots that the node waited
for it since its own partial (07 R197, log entry 14). -/
def State.noteCross (s : State) (u : UnitId) (k low : Nat) (ownAt : Option Nat) : State :=
  s.setWord 0x210301 0 k 1 (low % 2 ^ 24 * 2 ^ 32 + (match ownAt with | some t => (s.now u - t) % 2 ^ 32 | none => 0))

/-- Enter accumulators into stage `i + 1` at a node: each piece that they meet takes its share, duplicates apart; a piece
that is complete is sent to the next chip, passed to the next axis, or finished. `fuel` bounds the axes. -/
def State.enterStage (s : State) (fuel : Nat) (u : UnitId) (h n i : Nat) (x : Input) : State :=
  match fuel with
  | 0 => s
  | fuel + 1 =>
    let d := s.desc h
    let sel := s.selection h n
    match sel.axes[i]? with
    | none => s
    | some a =>
      let f := dFmt d
      let op := dOp d
      let m := dExtent d a
      let q := s.posOf d s.chipNo a
      let range := if sel.cross = 1 then List.range (vectorBytes d n / 64) else s.ringRange d sel.axes (vectorBytes d n / 64) i
      let pieces := (stagePieces sel.cross range m (longestPacket f sel.form / unitsPerBlock f sel.form)).filter (fun p =>
        meets p.1 p.2 x.first x.blocks)
      pieces.foldl (fun s p =>
        let old := ((s.chunksAt u h).find? (fun c => c.stage == i + 1 && c.first == p.1)).getD
          (newChunk h (i + 1) p.1 p.2 x.low (sel.form == 2))
        if overlaps old x then s.duplicate u old
        else
          let own := x.mask.testBit q
          let s := if own then s else s.noteCross u h x.low old.ownAt
          let c := absorb op f (blockElems d) old x
          let c := if own then { c with ownAt := some (s.now u) } else c
          let plan := stagePlan sel.cross range m q p.1
          if !complete c (fun b => (stagePlan sel.cross range m q b).1) then s.putChunk u c
          else
            let c := { c with done := true }
            let s := (s.noteRoot u h).putChunk u c
            let send (s : State) (form maker : Nat) (accs : List Acc) (dst : BitVec 24) (plane : Nat) : State :=
              let ps := packetsOf op f (blockElems d) form c.first accs (fun b =>
                s.nodeHeader h 0x20 form n maker c.low b true false (s.partialSource u d c.low) dst plane x.hdr)
              (s.putChunk u { c with out := ps }).sendNode u ps c.late
            match plan.2 with
            | some tgt =>
              match s.rootAt d a tgt with
              | none => s
              | some dst => send s sel.form 5 (if sel.form = 1 then atScale f.scale f c.accs else c.accs) dst (hallOfAxis a)
            | none =>
              if i + 1 < sel.axes.length then
                let b := sel.axes.getD (i + 1) 0
                if s.crossNode h b = u then
                  s.enterStage fuel u h n (i + 1) { first := c.first, blocks := c.blocks, accs := c.accs
                                                    mask := 2 ^ (s.posOf d s.chipNo b), low := c.low, hdr := x.hdr }
                else
                  let form := if op = 0 then 1 else 0
                  send s form (makerLevel u) (if form = 1 ∧ sel.form = 2 then atScale 149 f c.accs else c.accs) (s.addrOf (chipRoot d))
                    (hallOfAxis b)
              else s.finishChunk u h n c x.hdr) s

/-- A partial that the chip root makes is no packet that it receives: a multicast never returns to its source (07 R200). -/
def rootOf (u : UnitId) : Option Nat := match u with | .landing l => some l | _ => none

/-- The input of an on-die chunk. -/
def State.inputOf (s : State) (p : Packet) (mask : Nat) (scale : Nat) : Input :=
  let h := p.hdr
  let d := s.desc (collHandle h)
  let f := dFmt d
  let form := collForm h
  { first := h.addr.toNat / 64, blocks := p.data.length / unitsPerBlock f form
    accs := inputAccs (dOp d) f scale form (makerOf h == 0) (lowRank h) p.data, mask := mask, low := lowRank h, hdr := h }

/-- The partials of every chip at a chip root (07 R192): each is kept in the work range behind the retained result and the combining
state (07 R178; log entry 128), and all are folded in ascending rank when the last has come. -/
def State.takeFold (s : State) (l : Nat) (p : Packet) : State :=
  let h := p.hdr
  let k := collHandle h
  let d := s.desc k
  let n := launchOf h
  let u := UnitId.landing l
  let idx := lowRank h / dNum d
  let x := s.inputOf p (2 ^ idx) 149
  let old := ((s.chunksAt u k).find? (fun c => c.stage == 5 && c.first == x.first)).getD (newChunk k 5 x.first x.blocks x.low false)
  if overlaps old x then s.duplicate u old
  else
    let own := idx = s.chipIndex d s.chipNo
    let s := if own then s else s.noteCross u k x.low old.ownAt
    let size := vectorBytes d (dCount d)
    let base := dWork d + size + 4096 * (s.selection k n).chunks + idx * size + h.addr.toNat
    let s := p.data.zipIdx.foldl (fun s q => s.storeBytes l (base + 64 * q.2) (payloadBytes q.1)) s
    let c := absorb 9 (dFmt d) (blockElems d) old x
    let c := if own then { c with ownAt := some (s.now u) } else c
    if complete c (fun _ => 2 ^ chipCount d - 1) then
      let ps := foldPairs c
      let s := ((s.noteRoot u k).noteFlags k n (ps.foldl (fun a q => a.or (lseFlags q)) {})).putChunk u { c with done := true }
      s.sendResult u k n c.first (dChipGroup d) (valUnits 8 (ps.map (fun q => q.1 + q.2 * 2 ^ 32))) h
    else s.putChunk u c

/-- A chip partial of a complete on-die chunk moves on: a result for a group of one chip, the fold's partial for LSE, which a
folding chip root also takes itself, the first cross-chip node otherwise (06 R156; 07 R186, R192). -/
def State.chipPartial (s : State) (u : UnitId) (h n : Nat) (c : Chunk) (by_ : Header) : State :=
  let d := s.desc h
  let sel := s.selection h n
  let f := dFmt d
  let op := dOp d
  if op = 9 then
    let ps := foldPairs c
    let us := valUnits 8 (ps.map (fun p => p.1 + p.2 * 2 ^ 32))
    if sel.cross = 0 then
      (s.noteFlags h n (ps.foldl (fun a p => a.or (lseFlags p)) {})).sendResult u h n c.first (dChipGroup d) us by_
    else
      let hdr := s.nodeHeader h 0x20 0 n (makerLevel u) c.low c.first true true (s.addrOf (chipRoot d))
        (BitVec.ofNat 24 (dRootGroup d)) sel.plane by_
      let p : Packet := { hdr := { hdr with length := BitVec.ofNat 7 us.length }, data := us, tail := 0, trunc := false, resend := false }
      let s := (s.putChunk u { c with out := [p] }).sendNode u [p]
      match rootOf u with
      | some l => s.takeFold l p
      | none => s
  else if sel.cross = 0 then s.finishChunk u h n c by_
  else
    let a := sel.axes.headD 0
    let accs := if sel.form = 2 then c.accs.map (fun x => match x with
      | .sum v fl => .sum (v * ((2 ^ (149 - f.scale) : Nat) : Int)) fl
      | y => y) else c.accs
    if s.crossNode h a = u then
      s.enterStage 5 u h n 0
        { first := c.first, blocks := c.blocks, accs := accs, mask := 2 ^ (s.posOf d s.chipNo a), low := c.low, hdr := by_ }
    else
      let form := if op = 0 then 1 else 0
      let ps := packetsOf op f (blockElems d) form c.first c.accs (fun b =>
        s.nodeHeader h 0x20 form n (makerLevel u) c.low b true false (s.partialSource u d c.low) (s.addrOf (chipRoot d))
          (hallOfAxis a) by_)
      (s.putChunk u { c with out := ps }).sendNode u ps c.late

/-- An on-die chunk is complete: below the completing node it becomes a partial on its way to the chip root (06 R161). -/
def State.chunkDone (s : State) (u : UnitId) (h n part : Nat) (c : Chunk) (by_ : Header) : State :=
  let d := s.desc h
  let f := dFmt d
  let c := { c with done := true }
  let s := (s.noteRoot u h).putChunk u c
  if u = s.completingNode h part then s.chipPartial u h n c by_
  else
    let form := if dOp d = 0 then 1 else 0
    let ps := packetsOf (dOp d) f (blockElems d) form c.first c.accs (fun b =>
      s.nodeHeader h 0x20 form n (makerLevel u) c.low b true false (s.partialSource u d c.low) (s.addrOf (chipRoot d))
        (s.selection h n).plane by_)
    (s.putChunk u { c with out := ps }).sendNode u ps c.late

/-! ## Contributions at a node (06 R161 to R165, R172) -/

/-- The cross-chip stages at which a node takes a partial of its own chip: those whose node it is and whose predecessor's it is not
(07 R189). -/
def State.ownStages (s : State) (u : UnitId) (k n : Nat) : List Nat :=
  let axes := (s.selection k n).axes
  (List.range axes.length).filter (fun i => s.crossNode k (axes.getD i 0) = u ∧ (i = 0 ∨ s.crossNode k (axes.getD (i - 1) 0) ≠ u))

/-- The stage of the cross-chip algorithm that a partial belongs to at a node (07 R189): for one of another chip that of its lowest
rank; for a partial of this chip, the first stage of this node that starts from its lowest rank and has not its own part yet (log
entry 118). -/
def State.stageOf (s : State) (u : UnitId) (p : Packet) : Nat :=
  let h := p.hdr
  let k := collHandle h
  let d := s.desc k
  let n := launchOf h
  let axes := (s.selection k n).axes
  if makerOf h = 5 then s.stageOfLow h
  else
    let b := h.addr.toNat / 64
    let has (i : Nat) : Bool := (s.chunksAt u k).any (fun c => c.stage == i + 1 && c.first ≤ b && b < c.first + c.blocks &&
      (c.cover.getD (b - c.first) 0).testBit (s.posOf d s.chipNo (axes.getD i 0)))
    let cands := (s.ownStages u k n).filter (fun i => lowRank h == s.stageLow d axes i (s.posOf d s.chipNo (axes.getD i 0)))
    (cands.find? (fun i => !has i)).getD (cands.headD 0)

/-- The positions of its stage's axis that a partial covers (07 R190, R191). -/
def State.stageMask (s : State) (k n i : Nat) (h : Header) : Nat :=
  let d := s.desc k
  let sel := s.selection k n
  let a := sel.axes.getD i 0
  let m := dExtent d a
  let q := s.posOf d s.chipNo a
  let low := (((indexPositions d (lowRank h / dNum d)).find? (fun x => x.1 == a)).map (·.2)).getD 0
  if makerOf h ≠ 5 then 2 ^ q
  else if sel.cross = 1 then cycleMask m low (Nat.min (low + 2 ^ trailing low) m - 1)
  else
    let r := ringPart (s.ringRange d sel.axes (vectorBytes d n / 64) i) m (h.addr.toNat / 64)
    if r.1 then cycleMask m r.2 ((q + m - 1) % m) else cycleMask m ((q + 1) % m) r.2

/-- The lowest set position of a mask. -/
def lowestBit (m n : Nat) : Nat := ((List.range n).find? (fun i => m.testBit i)).getD 0

/-- Whether the algorithm sends this chip's node the chip blocks that a partial of another chip covers (06 R165; 07 R190, R191). -/
def State.stepSends (s : State) (k : Nat) (h : Header) (blocks : Nat) : Bool :=
  let d := s.desc k
  let n := launchOf h
  let sel := s.selection k n
  let i := s.stageOfLow h
  let a := sel.axes.getD i 0
  let m := dExtent d a
  let q := s.posOf d s.chipNo a
  let mask := s.stageMask k n i h
  let b := h.addr.toNat / 64
  let low := lowestBit mask m
  lowRank h == s.stageLow d sel.axes i low && !mask.testBit q &&
    (if sel.cross = 1 then
       (sel.axes.take i).all (fun x => s.posOf d s.chipNo x == 0) && 2 ^ trailing (low - q) == low - q && (low - q) * 2 ≤ 2 ^ trailing q
     else
       let range := s.ringRange d sel.axes (vectorBytes d n / 64) i
       (List.range blocks).all (fun j => range.contains (b + j) && ringPart range m (b + j) == ringPart range m b) &&
         (ringPart range m b).2 != q)

/-- Whether a contribution matches what a node combines for the handle (06 R165). An old-tag header meets the descriptor of its own
bank: one that its epoch has changed or removed has taken its entries along (06 R164; 01 R32). An EXACT packet of no whole number of
blocks, of which the spec is silent, counts for its whole blocks: DESIGN CHOICE (log entry 129). -/
def State.suits (s : State) (u : UnitId) (p : Packet) : Bool :=
  let h := p.hdr
  let k := collHandle h
  let d := s.desc k
  let n := launchOf h
  let sel := s.selection k n
  let mine := lowRank h / dNum d == s.chipIndex d s.chipNo
  let form := collForm h
  let blocks := p.data.length / unitsPerBlock (dFmt d) form
  let okForm := if dOp d ≠ 0 ∨ !isPartial h then form == 0 else if makerOf h = 5 then form == sel.form else form == 1
  (match s.bank h with | some b => b.desc k == d && b.handleOwner k == s.handleOwner k | none => false) &&
    s.holdsDesc k && s.handleOwner k == h.part.toNat && collOp h == dOp d && collFormat h == (dFmt d).code && collWrap h == dWrap d &&
    okForm && isPartial h == (makerOf h != 0) && n ≤ dCount d && lowRank h / dNum d < chipCount d &&
    h.addr.toNat + 64 * blocks ≤ vectorBytes d n &&
    (match u with | .landing l => l == chipRoot d | _ => true) &&
    (if h.mcast = 1#1 then sel.cross == 3 && isPartial h && lowRank h % dNum d == 0
     else if makerOf h = 5 then (sel.cross == 1 || sel.cross == 2) && s.stepSends k h blocks
     else if 1 < chipCount d ∧ wholeChip d h ∧ u ≠ s.completingNode k h.part.toNat then
       (s.ownStages u k n).any (fun i => lowRank h == s.stageLow d sel.axes i (s.posOf d s.chipNo (sel.axes.getD i 0)))
     else mine && (match u with
       | .landing _ => true
       | _ => (coverOf d (isPartial h) (makerOf h) (lowRank h % dNum d)).all (fun i =>
           (membersBelow d u).contains (dBase d + i * 2 ^ dExp d))))

/-- Discard a contribution that does not match (06 R165). -/
def State.mismatch (s : State) (u : UnitId) (p : Packet) : State :=
  let s := match u with
    | .landing l => s.bump 0x200104 (8192 + l) 0 0 0 16 1
    | _ => s.bump 0x200103 (instOf u) 0 0 16 16 1
  s.raise u 3 0x043 p.hdr.part.toNat (ctxColl (collHandle p.hdr) p.hdr.addr.toNat)

/-- A failure of the node's checks (06 R172): 1 repeated and passed, 2 failed again, 3 uncorrectable store data, 4 a
corrected store word; 5 and 6 are 1 and 2 made by a force (11 R305). A repeat that fails discards the contribution and keeps the old
value (06 R170); uncorrectable store data takes the chunk's entry. -/
def State.aluFault (s : State) (u : UnitId) (p : Packet) (k : Nat) : State :=
  let ctx := ctxColl (collHandle p.hdr) p.hdr.addr.toNat + (if 5 ≤ k then ctxForced else 0)
  let k := if 5 ≤ k then k - 4 else k
  let part := p.hdr.part.toNat
  let isSw := isSwitch u
  match k with
  | 0 => s
  | 1 => (if isSw then s.bump 0x200102 (instOf u) 0 0 0 16 1 else s).raise u 3 0x040 part ctx
  | 4 => s.raise u 4 0x042 part ctx
  | _ =>
    let s := if isSw then
        (s.bump 0x200102 (instOf u) 0 0 (if k = 2 then 16 else 24) 8 1).onSw u (fun w => { w with
          alu := 1
          chunks := if k = 2 then w.chunks else w.chunks.filter (fun c => !(c.handle == collHandle p.hdr && c.first ≤ p.hdr.addr.toNat / 64 && p.hdr.addr.toNat / 64 < c.first + c.blocks)) })
      else s
    s.raise u (if k = 2 then 3 else 4) 0x041 part ctx

/-- The chip root ends a collective: ERROR_RESP to its members' open entries (07 R206). -/
def State.endCollective (s : State) (h code : Nat) : State :=
  let d := s.desc h
  let root := chipRoot d
  let s := s.onColl h (fun c => { c with st := 4, ended := true, chunks := [] })
  (members d).foldl (fun s l => match (s.tile l).launches.find h with
    | none => s
    | some x =>
      let hdr : Header := { s.ownHeader 0x35 2 (s.epPart l) (s.addrOf root) (s.addrOf l) (BitVec.ofNat 32 code) 0 with
        stream := BitVec.ofNat 17 (streamOf l x.entry)
        seq := (((s.entry l x.entry).outst.head?).map (fun o => o.hdr.seq)).getD 0
        inl := (((s.entry l x.entry).outst.head?).map (fun o => upperHeader o.hdr)).getD 0 }
      if l = root then
        s.endEntry l x.entry code
      else s.queueTx root .answer hdr [] 64) s

/-- A contribution at a node that combines it on die: duplicates are counted and answered by the output again (06 R163),
others are absorbed; a complete chunk moves on. -/
def State.takeOnDie (s : State) (u : UnitId) (p : Packet) : State :=
  let h := p.hdr
  let k := collHandle h
  let d := s.desc k
  let n := launchOf h
  let cover := coverOf d (isPartial h) (makerOf h) (lowRank h % dNum d)
  let mask := cover.foldl (fun m i => m ||| 2 ^ i) 0
  let x := s.inputOf p mask (dFmt d).scale
  let first := x.first / 64 * 64
  let total := vectorBytes d n / 64
  let below := match u with
    | .landing _ => List.range (dNum d)
    | _ => (List.range (dNum d)).filter (fun i => (membersBelow d u).contains (dBase d + i * 2 ^ dExp d))
  let full := below.foldl (fun m i => m ||| 2 ^ i) 0
  let old := ((s.chunksAt u k).find? (fun c => c.stage == 0 && c.first == first)).getD
    (newChunk k 0 first (Nat.min 64 (total - first)) x.low false)
  if overlaps old x then s.duplicate u old
  else
    let c := absorb (dOp d) (dFmt d) (blockElems d) old x
    if complete c (fun _ => full) then s.chunkDone u k n h.part.toNat c h else s.putChunk u c

/-- A repeated contribution at the chip root that its retained result covers: its source gets the result again, alone (07 R196). -/
def State.answerRetained (s : State) (l : Nat) (p : Packet) : Option State :=
  let h := p.hdr
  let k := collHandle h
  let d := s.desc k
  let n := 64 * (p.data.length / unitsPerBlock (dFmt d) (collForm h))
  let rs := (s.coll k).retained.filter (fun r => meets r.1 (64 * r.2.length) h.addr.toNat n)
  if !p.resend || !isDone (rs.map (fun r => (r.1, 64 * r.2.length))) h.addr.toNat n then none
  else
    let many := decide (1 < dNum d * chipCount d)
    some (rs.foldl (fun s r =>
      let hdr := s.nodeHeader k 0x21 0 (launchOf h) (if many then 4 else 0) 0 (r.1 / 64) many false (s.addrOf l) h.src h.plane.toNat h
      s.queueTx l .resend { hdr with length := BitVec.ofNat 7 r.2.length } r.2 64) s)

/-- A contribution of a collective that its chip root has ended: discarded and counted (07 R206). -/
def State.afterEnd (s : State) (u : UnitId) (port : Nat) (h : Header) : State :=
  match u with
  | .landing l => s.bump 0x200104 (8192 + l) 0 0 0 16 1
  | _ => s.discard u port h

/-- What a node does with a contribution that its checks have passed. -/
def State.combine (s : State) (u : UnitId) (port : Nat) (p : Packet) (alu : Nat) : State :=
  let h := p.hdr
  let k := collHandle h
  if (s.coll k).ended then s.afterEnd u port h
  else if !s.suits u p then s.mismatch u p
  else
    let s := s.aluFault u p alu
    if alu = 2 ∨ alu = 3 ∨ alu = 6 then (match u with | .landing _ => s.endCollective k 6 | _ => s)
    else
      let d := s.desc k
      match (match u with | .landing l => s.answerRetained l p | _ => none) with
      | some t => t
      | none =>
        if h.mcast = 1#1 then (match u with | .landing l => s.takeFold l p | _ => s)
        else if makerOf h = 5 ∨ (1 < chipCount d ∧ wholeChip d h ∧ u ≠ s.completingNode k h.part.toNat) then
          let i := s.stageOf u p
          s.enterStage 5 u k (launchOf h) i (s.inputOf p (s.stageMask k (launchOf h) i h) (s.sumScale k (launchOf h)))
        else s.takeOnDie u p

end Sys2Proof.Machine
end

