-- ==== Sys2Proof/Machine/Collective.lean ====
section
/-!
DEFINITION. The launch of a collective at its members and chip root (07 R181 to R184), reservations at a switch (06 R168,
07 R182, R193, R194), and the commands of both: REDUCE_CONTRIB, REDUCE_RESULT, COUNT_EXCH, RESERVE_REQ, RESERVE_GRANT,
RESERVE_REFUSE, RESERVE_RELEASE, SETTLE_CROSS_CHIP_FORM.
-/
namespace Sys2Proof.Machine

/-! ## The launch (07 R181 to R184) -/

/-- Track a packet of a launch and queue it (04 R111). -/
def State.sendTracked (s : State) (l k : Nat) (h : Header) : State :=
  (s.onEntry l k (fun en => { en with outst := en.outst ++ [newOutst h 0 0] })).queueTx l .fresh h [] k

/-- The elements of a contribution chunk that a member generates: its bytes from its own count on (07 R183). -/
def identityBytes (d n : Nat) : List Byte :=
  (List.range n).flatMap (fun _ => bytesOf (dElem d) (identityOf (dOp d) (dFmt d)))

/-- The header of a member's contribution at block `first` of `units` units (07 R184). -/
def State.contribHeader (s : State) (h l k n first units : Nat) (seq : BitVec 16) : Header :=
  let d := s.desc h
  { s.ownHeader 0x20 3 (s.epPart l) (s.addrOf l) (s.addrOf (chipRoot d)) (BitVec.ofNat 32 (s.rankOf d l)) (BitVec.ofNat 256 n) with
    plane := BitVec.ofNat 2 (s.selection h n).plane, stream := BitVec.ofNat 17 (streamOf l k), seq := seq
    addr := BitVec.ofNat 24 (64 * first), coll := collField d h 0, length := BitVec.ofNat 7 units }

/-- Bytes of a chunk that are read from the member's vector: none past its own count (07 R183). -/
def chunkBytes (d own first units : Nat) : Nat := Nat.min (64 * units) (own * dElem d - 64 * first)

/-- Send the next contribution chunk of a launch, if fewer than the chunks in flight are open (07 R184). -/
def State.sendChunk (s : State) (h l : Nat) : State :=
  match (s.tile l).launches.find h with
  | none => s
  | some x =>
    match x.go with
    | none => s
    | some n =>
      let d := s.desc h
      let blocks := vectorBytes d n / 64
      let en := s.entry l x.entry
      let inFlight := (en.outst.filter (fun o => o.hdr.command == 0x20#8)).length
      let first := 64 * x.next
      if blocks ≤ first ∨ (s.selection h n).chunks ≤ inFlight ∨ 8 ≤ inFlight then s
      else
        let units := Nat.min 64 (blocks - first)
        let r := s.takeSeq l x.entry
        let hdr := s.contribHeader h l x.entry n first units r.1
        let bytes := chunkBytes d x.count first units
        let a := dIn d + 64 * first
        let s := r.2.onTile l (fun t => { t with launches := t.launches.put h { x with next := x.next + 1 } })
        let s := s.onEntry l x.entry (fun en => { en with
          outst := en.outst ++ [newOutst hdr a bytes], locks := if bytes = 0 then en.locks else en.locks ++ [(a, bytes)] })
        if bytes = 0 then
          s.queueTx l .fresh hdr (payloadsOf units (identityBytes d (64 * units / dElem d))) x.entry
        else s.startRead l { use := .entry x.entry, hdr := hdr, base := a, bytes := bytes, rows := [], kind := .fresh }

/-- Send contribution chunks until the chunks in flight are open. -/
def State.sendChunks (s : State) (h l : Nat) : State := (List.range 8).foldl (fun s _ => s.sendChunk h l) s

/-- The go reaches a member: the launch count is fixed, its arrival is answered, and its contributions start (07 R183). The count
exchange of a chip root with the others stays open until its reports have come. -/
def State.memberGo (s : State) (h l n : Nat) : State :=
  match (s.tile l).launches.find h with
  | none => s
  | some x =>
    if x.go.isSome then s
    else
      let s := s.onTile l (fun t => { t with launches := t.launches.put h { x with go := some n } })
      let s := s.onEntry l x.entry (fun en => { en with outst := en.outst.filter (fun o => o.hdr.command != 0x22#8 || o.hdr.mcast != 0#1) })
      if vectorBytes (s.desc h) n = 0 then
        (s.onTile l (fun t => { t with launches := t.launches.put h { x with go := some n, count := n } })).finishLaunch h l
      else s.sendChunks h l

/-- The inline count of a COUNT_EXCH. -/
def exchCount (h : Header) : Nat := bitsAt h.inl.toNat 0 64

/-- A COUNT_EXCH header of a landing (02 R50, 07 R183). -/
def State.exchHeader (s : State) (h l rank n : Nat) (dst : BitVec 24) (mc : Bool) (stream : BitVec 17) (seq : BitVec 16) : Header :=
  { s.ownHeader 0x22 3 (s.epPart l) (s.addrOf l) dst (BitVec.ofNat 32 rank) (BitVec.ofNat 256 n) with
    mcast := if mc then 1 else 0, stream := stream, seq := seq, coll := collField (s.desc h) h 0
    plane := BitVec.ofNat 2 (s.selection h n).plane }

/-- The chip root sends the go to its chip group and takes it itself (07 R183 step 4, 13 R338, R339): with the stream of its launch
entry and that stream's next sequence (07 R181). What partials of other chips have brought for this launch stays. -/
def State.sendGo (s : State) (h n : Nat) : State :=
  let d := s.desc h
  let root := chipRoot d
  let t := s.now (.landing root)
  let s := s.onColl h (fun c => { c with st := 2, go := some n, goAt := t, count := n, finished := 0, retained := [], rootCounts := []
                                         chunks := c.chunks.filter (fun x => x.stage != 0 && !x.done) })
  let s := s.bump 0x385001 0 h 0 0 64 1
  let s := s.trace (.landing root) 0x02 (s.handleOwner h) t (h * 2 ^ 140 + 1 * 2 ^ 136 + (s.rankOf d root) * 2 ^ 104)
  let s := match (s.tile root).launches.find h with
    | none => s
    | some x =>
      if dNum d = 1 then s
      else
        let r := s.takeSeq root x.entry
        r.2.queueTx root .fresh (r.2.exchHeader h root (s.rankOf d root) n (BitVec.ofNat 24 (dChipGroup d)) true
          (BitVec.ofNat 17 (streamOf root x.entry)) r.1) [] 64
  s.memberGo h root n

/-- The largest of a list. -/
def maxOf (l : List Nat) : Nat := l.foldl Nat.max 0

/-- The chip root holds every arrival of its chip: the count goes to the other chip roots, or the go leaves (07 R183). -/
def State.arrivalsComplete (s : State) (h : Nat) : State :=
  let d := s.desc h
  let root := chipRoot d
  let n := maxOf ((s.coll h).arrivals.map (·.count))
  if dDyn d ∧ 1 < chipCount d then
    let s := s.onColl h (fun c => { c with rootCounts := c.rootCounts.filter (fun r => r.1 != s.rankOf d root) ++ [(s.rankOf d root, n)] })
    let s := match (s.tile root).launches.find h with
      | none => s
      | some x =>
        let r := s.takeSeq root x.entry
        r.2.sendTracked root x.entry (s.exchHeader h root (s.rankOf d root) n (BitVec.ofNat 24 (dRootGroup d)) true
          (BitVec.ofNat 17 (streamOf root x.entry)) r.1)
    if (s.coll h).rootCounts.length = chipCount d then s.sendGo h (maxOf ((s.coll h).rootCounts.map (·.2))) else s
  else s.sendGo h n

/-- An arrival at the chip root (07 R183, R197). -/
def State.takeArrival (s : State) (h rank n : Nat) (hdr : Header) : State :=
  let d := s.desc h
  let c := s.coll h
  let t := s.now (.landing (chipRoot d))
  let fresh := c.st != 1
  let before := if fresh then [] else c.arrivals
  let arr := before.filter (fun a => a.rank != rank) ++ [{ rank := rank, count := n, hdr := hdr }]
  let s := s.onColl h (fun c => { c with st := 1, arrivals := arr, firstAt := if before.isEmpty then t else c.firstAt
                                         go := none, ended := if fresh then false else c.ended
                                         chunks := if fresh && c.st == 4 then [] else c.chunks })
  let s := s.setWord 0x210301 0 h 0 (rank * 2 ^ 32 + (t - (s.coll h).firstAt) % 2 ^ 32)
  if arr.length = dNum d then s.arrivalsComplete h else s

/-- A member's own reservations have been answered: its arrival goes to the chip root, the chip root's own to itself. -/
def State.sendArrival (s : State) (h l : Nat) : State :=
  match (s.tile l).launches.find h with
  | none => s
  | some x =>
    if x.arrivalSent ∨ !x.asked.isEmpty then s
    else
      let d := s.desc h
      let n := if dDyn d then x.count else dCount d
      let s := s.onTile l (fun t => { t with launches := t.launches.put h { x with arrivalSent := true } })
      let r := s.takeSeq l x.entry
      let hdr := s.exchHeader h l (s.rankOf d l) n (s.addrOf (chipRoot d)) false (BitVec.ofNat 17 (streamOf l x.entry)) r.1
      if l = chipRoot d then r.2.takeArrival h (s.rankOf d l) n hdr
      else r.2.sendTracked l x.entry hdr

/-- A launch that has just been taken. -/
def newLaunch (k count : Nat) : Launch :=
  { entry := k, count := count, asked := [], arrivalSent := false, go := none, done := [], next := 0 }

/-- Start a launch: ask for the member's own reservations, or arrive at once (07 R182, R183). The first member of the chip to start
fixes the thresholds in force (R187). -/
def State.startLaunch (s : State) (h l k count : Nat) : State :=
  let d := s.desc h
  let form := if dOp d = 0 then 1 else 0
  let s := if (members d).any (fun m => ((s.tile m).launches.find h).isSome) then s
    else let v := s.liveThresholds; s.onColl h (fun c => { c with inForce := some v })
  let s := s.onTile l (fun t => { t with launches := t.launches.put h (newLaunch k count) })
  let s := (s.roles h l (dCount d)).foldl (fun s u => match apexTarget d u with
    | none => s
    | some tgt =>
      let r := s.takeSeq l k
      let hdr := s.resvHeader h 0x23 form (s.selection h (dCount d)).plane
        (s.entriesFor h (dCount d) form (membersBelow d u).length) (s.addrOf l) (s.addrOf tgt) (BitVec.ofNat 17 (streamOf l k)) r.1 (s.epPart l)
      let s := r.2.onTile l (fun t => { t with launches := t.launches.modify (newLaunch k count) h (fun x =>
        { x with asked := x.asked ++ [r.1.setWidth 32] }) })
      s.sendTracked l k hdr) s
  s.sendArrival h l

/-- Launches that waited for their handle's previous launch, or under their after bit, start (05 R124, 07 R181). -/
def State.startLaunches (s : State) (l : Nat) : State :=
  if l < 2048 ∧ (s.tile l).aborted then s
  else (s.ep l).entries.foldl (fun s kv =>
    let en := s.entry l kv.1
    if en.kind = 1 ∧ en.opcode = 12 ∧ en.waits ∧ ((s.tile l).launches.find en.handle).isNone ∧
        !((en.desc.map (·.after)).getD false && s.olderOpen l en.client en.order) then
      (s.onEntry l kv.1 (fun en => { en with waits := false })).startLaunch en.handle l kv.1 en.total
    else s) s

/-! ## Reservations at a switch (06 R168) -/

/-- The entries that a partition holds at a switch. -/
def partEntries (w : Switch) (p : Nat) : Nat := ((w.resvs.filter (fun r => r.part == p)).map (·.entries)).foldl (· + ·) 0

/-- Store entries of a switch (06 R166). -/
def storeEntries (u : UnitId) : Nat := match u with | .stair _ => 2048 | .gallery _ => 16384 | _ => 32768

/-- Free entries of a switch. -/
def freeEntries (u : UnitId) (w : Switch) : Nat := storeEntries u - ((w.resvs.map (·.entries)).foldl (· + ·) 0)

/-- The quota of a partition at a switch: its loaded resources (03, 10 R268). -/
def State.quotaAt (s : State) (u : UnitId) (p : Nat) : Nat :=
  let q := (s.part p).quotas
  match u with | .stair _ => q.1 | .gallery _ => q.2.1 | .hall _ => q.2.2 | _ => 0

/-- Whether a switch grants a request (06 R168). -/
def State.grants (s : State) (u : UnitId) (h : Header) : Bool :=
  let w := s.sw u
  let k := collHandle h
  let n := h.aux.toNat % 2 ^ 16
  let p := h.part.toNat
  w.alu == 0 && s.holdsDesc k && s.handleOwner k == p && w.resvs.length < 256 && n ≤ freeEntries u w &&
    partEntries w p + n ≤ s.quotaAt u p && !w.resvs.any (fun r => r.handle == k)

/-- A RESERVE_REQ at the apex of its path: granted whole, or refused (06 R168, 07 R193). -/
def State.reserve (s : State) (u : UnitId) (p : Packet) : State :=
  let h := p.hdr
  let k := collHandle h
  let ok := s.grants u h
  let s := if ok then
      (s.bump 0x200101 (instOf u) 0 0 0 32 1).onSw u (fun w => { w with resvs := w.resvs ++
        [{ handle := k, part := h.part.toNat, entries := h.aux.toNat % 2 ^ 16, cross := localOf h.dst == 2051, form := collForm h }] })
    else s.bump 0x200101 (instOf u) 0 0 32 32 1
  let a := answerHeader (if ok then 0x24 else 0x25) 2 h h.dst h.aux 0
  s.makeAt u { a with coll := h.coll, vc := 2, plane := h.plane } []

/-- RESERVE_REQ. A switch does not answer one that fails check 3 (02 R382). -/
def execReserveReq (u : UnitId) (port : Nat) (p : Packet) (s : State) : Host.Outcome State Fault Refusal :=
  up s (fun s => s.receive u port p (fun s => match epOf u with
    | some e => s.takeIn e p.hdr (fun s => s.discard u port p.hdr)
    | none => if isSwitch u then s.reserve u p else s.discard u port p.hdr))

/-- RESERVE_RELEASE returns the entries of a handle at once (06 R168, 07 R194). -/
def State.release_ (s : State) (u : UnitId) (h : Header) : State :=
  s.onSw u (fun w => { w with
    resvs := w.resvs.filter (fun r => !(r.handle == collHandle h && r.part == h.part.toNat && !r.cross))
    chunks := if w.resvs.any (fun r => r.handle == collHandle h && r.cross) then w.chunks
      else w.chunks.filter (fun c => c.handle != collHandle h) })

/-- RESERVE_RELEASE. -/
def execReserveRelease (u : UnitId) (port : Nat) (p : Packet) (s : State) : Host.Outcome State Fault Refusal :=
  up s (fun s => s.receive u port p (fun s => if isSwitch u then s.release_ u p.hdr else s.discard u port p.hdr))

/-! ## Standing cross-chip reservations (07 R193) -/

/-- Whether this landing is the chip root of a handle whose group spans chips and holds this chip. -/
def State.isSpanRoot (s : State) (h l : Nat) : Bool :=
  let d := s.desc h
  s.holdsDesc h && chipRoot d == l && 1 < chipCount d && s.inBlock d s.chipNo

/-- Ask a hall for a standing reservation, in a form: addressed to K0 with the hall as plane hint (07 R193, log entry 15). -/
def State.askHall (s : State) (h hall form : Nat) : State :=
  let d := s.desc h
  let root := chipRoot d
  let below := chipCount d
  let hdr := s.resvHeader h 0x23 form hall (s.entriesFor h (dCount d) form below) (s.addrOf root) (s.addrOf 2051)
    (BitVec.ofNat 17 (streamOf root 0)) 0 (s.epPart root)
  (s.onColl h (fun c => { c with asked := c.asked ++ [(hall, form == 2)] })).queueTx root .fresh hdr [] 64

/-- The form of a handle's partials across chips without degradation. -/
def State.plainForm (s : State) (h : Nat) : Nat := (select (s.desc h) (s.thresholds h) false (dCount (s.desc h))).form

/-- A spanning descriptor takes effect: one request per distinct hall of its axes, whatever its operation (07 R193). -/
def State.askHalls (s : State) (h : Nat) : State :=
  let d := s.desc h
  ((dAxes d).map hallOfAxis).dedup.foldl (fun s x => s.askHall h x (s.plainForm h)) s

/-- The answer of a hall to a standing request (07 R193). -/
def State.hallAnswered (s : State) (h hall : Nat) (granted : Bool) : State :=
  let rounded := (s.coll h).asked.contains (hall, true)
  let s := s.onColl h (fun c => { c with asked := c.asked.filter (fun a => a.1 != hall) })
  let degrade := (s.part (s.handleOwner h)).degrade && (s.coll h).thr.isSome
  if granted then (if rounded ∧ s.plainForm h = 1 then s.onColl h (fun c => { c with fellBack := true }) else s)
  else if !rounded ∧ degrade ∧ s.plainForm h = 1 then s.askHall h hall 2
  else s.onColl h (fun c => { c with refused := hall :: c.refused })

/-- RESERVE_GRANT and RESERVE_REFUSE at the requester: a launch's own request, or a standing one (07 R183, R193). -/
def State.reserveAnswer (s : State) (e : Nat) (p : Packet) (granted : Bool) : State :=
  let h := p.hdr
  let k := collHandle h
  match s.openPacket e h with
  | some (x, o) =>
    if o.hdr.command = 0x23#8 then
      let s := s.onEntry e x (fun en => { en with outst := en.outst.filter (fun y => y.hdr.seq != o.hdr.seq) })
      let s := s.onTile e (fun t => match t.launches.find k with
        | some y => { t with launches := t.launches.put k { y with asked := y.asked.filter (fun q => q != h.seq.setWidth 32) } }
        | none => t)
      s.sendArrival k e
    else s.discard (epUnit e) (epPort e) h
  | none =>
    if s.isSpanRoot k e ∧ (s.coll k).asked.any (fun a => a.1 == h.plane.toNat) then s.hallAnswered k h.plane.toNat granted
    else s.discard (epUnit e) (epPort e) h

/-- RESERVE_GRANT. -/
def execReserveGrant (ep : Nat) (p : Packet) (s : State) : Host.Outcome State Fault Refusal :=
  up s (fun s => s.receive (epUnit ep) (epPort ep) p (fun s => s.reserveAnswer ep p true))

/-- RESERVE_REFUSE. -/
def execReserveRefuse (ep : Nat) (p : Packet) (s : State) : Host.Outcome State Fault Refusal :=
  up s (fun s => s.receive (epUnit ep) (epPort ep) p (fun s => s.reserveAnswer ep p false))

/-- SETTLE_CROSS_CHIP_FORM (07 R193): the head keepers have exchanged their outcomes. ROUNDED where this chip or another
fell back, with DEGRADED and ROUNDED to be set at each chunk; EXACT otherwise. -/
def execSettleCrossChipForm (handle : Nat) (otherChipsRounded : Bool) (s : State) : Host.Outcome State Fault Refusal :=
  upWhen s (fun s => s.holdsDesc handle && 1 < chipCount (s.desc handle) && dOp (s.desc handle) == 0 && (s.coll handle).asked.isEmpty)
    (fun s => s.onColl handle (fun c => { c with settled := if c.fellBack || otherChipsRounded then 1 else 0 }))

/-! ## REDUCE_CONTRIB, REDUCE_RESULT, COUNT_EXCH -/

/-- A contribution that passed its checks at a landing enters the receive taps that watch its source and stream (05 R139). -/
def State.tapData (s : State) (u : UnitId) (p : Packet) : State :=
  match u with
  | .landing l => s.tapBytes l true p.hdr.src p.hdr.stream p.hdr.seq (unitBytes p.data)
  | _ => s

/-- REDUCE_CONTRIB (06 R161 to R173; 07 R185): at a node that combines, or at the chip root. One that fails check 3 is
discarded and counted without an answer (06 R162). A forced residue failure of the node is used up (11 R305). -/
def State.reduceContrib (s : State) (u : UnitId) (port : Nat) (p : Packet) (alu : Nat) : State :=
  let act (s : State) : State :=
    match (s.sw u).aluForces with
    | f :: rest => ((s.onSw u (fun w => { w with aluForces := rest })).tapData u p).combine u port p f
    | [] => (s.tapData u p).combine u port p alu
  s.receive u port p (fun s => match epOf u with
    | some e => s.takeIn e p.hdr act
    | none => act s)

/-- REDUCE_CONTRIB. -/
def execReduceContrib (u : UnitId) (port : Nat) (p : Packet) (aluFaults : Nat) (s : State) : Host.Outcome State Fault Refusal :=
  up s (fun s => (match u with
    | .landing l => (((s.reduceContrib u port p aluFaults).sendChunks (collHandle p.hdr) l).settleTile l).startLaunches l
    | _ => s.reduceContrib u port p aluFaults))

/-- A REDUCE_RESULT of RING's all-gather: sent by a node of another chip to this chip's node alone (07 R191). -/
def State.gathered (s : State) (h : Header) : Bool := h.mcast == 0#1 && chipOf h.src != s.chipNo

/-- REDUCE_RESULT at a member, or at a node of RING's all-gather (07 R186, R191). A range that is being scrubbed refuses it (05
R138); no result of a collective that its chip root has ended is written (07 R206). -/
def State.reduceResult (s : State) (u : UnitId) (port : Nat) (p : Packet) : State :=
  let h := p.hdr
  let k := collHandle h
  s.receive u port p (fun s =>
    match s.bankAt u h with
    | none => s
    | some b =>
      let d := b.desc k
      let act (s : State) : State :=
        if !b.holdsDesc k ∨ b.handleOwner k ≠ h.part.toNat ∨ (s.coll k).ended then s.discard u port h
        else if s.gathered h then
          (s.tapData u p).haveResult u k (launchOf h) (h.addr.toNat / 64) p.data (s.gatherStage h) h
        else match u with
          | .landing l =>
            if (memberIndex d l).isNone then s.discard u port h
            else if s.scrubbing l (dOut d + h.addr.toNat) (64 * p.data.length) then s.error u h 0x02
            else match s.permuteMiss l (dOut d + h.addr.toNat) false p with
              | some i => s.failReceipt u port p 1 (fun s => s.dataLost l (dOut d + h.addr.toNat) p (some i))
              | none => (s.tapData u p).memberResult k d l h p.data
          | _ => s.discard u port h
      match epOf u with
      | some e => s.takeIn e h act
      | none => act s)

/-- REDUCE_RESULT. -/
def execReduceResult (u : UnitId) (port : Nat) (p : Packet) (s : State) : Host.Outcome State Fault Refusal :=
  up s (fun s => (match u with
    | .landing l => ((s.reduceResult u port p).sendChunks (collHandle p.hdr) l).startLaunches l
    | _ => s.reduceResult u port p))

/-- A count that another chip root has multicast to the root group (07 R183 step 3): acknowledged, and taken by the chip root. -/
def State.rootCount (s : State) (e : Nat) (h : Header) : State :=
  let k := collHandle h
  let d := s.desc k
  let f := s.filter e h
  match f.1 with
  | .full => s.filterFull e h
  | .duplicate => f.2.ack e h 1
  | .apply =>
    let s := f.2.ack e h 0
    if e ≠ chipRoot d then s
    else
      let s := s.onColl k (fun c => { c with rootCounts := c.rootCounts.filter (fun r => r.1 != lowRank h) ++ [(lowRank h, exchCount h)] })
      if (s.coll k).rootCounts.length = chipCount d ∧ (s.coll k).go.isNone then s.sendGo k (maxOf ((s.coll k).rootCounts.map (·.2))) else s

/-- An arrival at a chip root (07 R183 step 1): a repeated one is answered by the go again, if that has been sent, to the member
alone. -/
def State.arrivalAt (s : State) (e : Nat) (h : Header) : State :=
  let k := collHandle h
  let d := s.desc k
  let f := s.filter e h
  match f.1 with
  | .full => s.filterFull e h
  | .duplicate =>
    (match (s.coll k).go with
    | some n => f.2.queueTx e .resend (s.exchHeader k e (s.rankOf d e) n h.src false h.stream h.seq) [] 64
    | none => f.2)
  | .apply => f.2.takeArrival k (lowRank h) (exchCount h) h

/-- COUNT_EXCH at a landing (07 R183): an arrival at the chip root, a count of another chip root, or the go at a member. The inline
count is there when the length is 0 (02 R50); a packet with data names no count and is discarded. -/
def State.countExch (s : State) (e : Nat) (p : Packet) : State :=
  let h := p.hdr
  let k := collHandle h
  let d := s.desc k
  let u := epUnit e
  s.receive u (epPort e) p (fun s => s.takeIn e h (fun s =>
    if !s.holdsDesc k ∨ s.handleOwner k ≠ h.part.toNat ∨ h.length ≠ 0 then s.discard u (epPort e) h
    else if s.toRootGroup h then s.rootCount e h
    else if chipOf h.src = s.chipNo ∧ localOf h.src = chipRoot d ∧ (h.mcast = 1#1 ∨ e ≠ chipRoot d) then s.memberGo k e (exchCount h)
    else if e ≠ chipRoot d ∨ h.mcast = 1#1 then s.discard u (epPort e) h
    else s.arrivalAt e h))

/-- COUNT_EXCH. -/
def execCountExch (ep : Nat) (p : Packet) (s : State) : Host.Outcome State Fault Refusal :=
  up s (fun s => (s.countExch ep p).startLaunches ep)

end Sys2Proof.Machine
end

