-- ==== Sys2Proof/Machine/Receive.lean ====
section
/-!
DEFINITION. Packets at their destination (02): data, semaphore and multicast writes, reads, acknowledgements, reports and
errors, scrubs, and the tensor taps (05 R139 to R141) that watch them.
-/
namespace Sys2Proof.Machine

/-! ## Writes -/

/-- The bytes that a write-type packet carries. -/
def packetBytes (p : Packet) : List Byte :=
  if p.hdr.command = 2#8 then (payloadBytes (p.hdr.inl.setWidth 512)).take (p.hdr.aux.toNat % 64) else unitBytes p.data

/-- The receive descriptor of a scheduled packet: the one whose source, stream and slots it bears (03 R70, 05 R130). -/
def State.rxDesc (s : State) (l : Nat) (p : Packet) : Option (Nat × RxStream) :=
  (s.tile l).rxs.find? (fun r => s.rxMatches l r.2.desc.toNat p.hdr p.resend)

/-- Store the data of a write at a tile landing: scheduled units permuted by their receive descriptor, dynamic units by
their window, inline bytes never (05 R136). -/
def State.storeWrite (s : State) (l : Nat) (p : Packet) (rx : Option (Nat × RxStream)) : State :=
  let a := p.hdr.addr.toNat
  if p.hdr.command = 2#8 then s.storeBytes l a (packetBytes p)
  else match rx with
    | some (k, r) =>
      let d := r.desc.toNat
      if d.testBit 164 then
        let x := p.data.zipIdx.foldl (fun (x : State × Bool) q =>
          let y := x.1.permute l (bitsAt d 161 3) (bitsAt d 159 2) (bitsAt d 152 7) (BitVec.ofNat 32 (bitsAt d 120 32)) q.1
          (x.1.storeBytes l (a + 64 * q.2) (payloadBytes y.1), x.2 || y.2)) (s, false)
        if x.2 then (x.1.bump 0x800204 (8192 + l) 0 0 16 16 1).onTile l (fun t => { t with rxs := t.rxs.put k { r with filled := true } })
        else x.1
      else p.data.zipIdx.foldl (fun s q => s.storeBytes l (a + 64 * q.2) (payloadBytes q.1)) s
    | none => s.writeUnits l a p.data

/-- The unit of a scheduled or a dynamic write at which the copies of the permute network disagree (05 R137). -/
def State.writeMiss (s : State) (l : Nat) (p : Packet) (rx : Option (Nat × RxStream)) : Option Nat :=
  match rx with
  | some r => if r.2.desc.getLsbD 164 then s.permuteMiss l p.hdr.addr.toNat true p else none
  | none => s.permuteMiss l p.hdr.addr.toNat false p

/-- The units of a write that is not applied: those before a permute mismatch `miss` are written, and all of it is counted (05 R133,
R137). -/
def State.writeLost (s : State) (l : Nat) (p : Packet) (rx : Option (Nat × RxStream)) (miss : Option Nat) : State :=
  let s := s.countArrival l p.hdr.addr.toNat (64 * p.data.length)
  match miss with
  | some k => (s.storeWrite l { p with data := p.data.take k } rx).permuteFault l p.hdr
  | none => s.storeWrite l p rx

/-- What a failed write leaves behind: the units that came were written and counted before check 3 (02 R58, 05 R133), unless the
packet would not have been applied. -/
def State.writeFailed (s : State) (e : Nat) (p : Packet) : State :=
  let h := p.hdr
  let dup := ((s.ep e).filter.find? (fun r => r.src == h.src && r.stream == h.stream)).any (fun r => isDuplicate r h.seq)
  let rx := if h.cls = 1#1 then s.rxDesc e p else none
  let writes := e < 2048 && !p.data.isEmpty && !dup && (addressFault e h).isNone &&
    !s.scrubbing e h.addr.toNat (64 * p.data.length) && h.command != 2#8 && (h.cls == 0#1 || rx.isSome)
  if writes then s.writeLost e p rx (s.writeMiss e p rx) else s

/-- The semaphore operation that a packet bears (02 R50, 05 R134). -/
def State.packetSignal (s : State) (l : Nat) (h : Header) : State :=
  s.semOp l (h.aux.setWidth 8) (bitsAt h.aux.toNat 8 2) (h.inl.setWidth 32) h.src

/-- Ask the host window for a write of a packet: HL_ORQ, answered by OUTBOUND_RESPONSE (14 R360). -/
def State.hostWrite (s : State) (use : Nat) (h : Header) (addr : Nat) (us : List Payload) : State :=
  s.hostRequest { req := { use := use, beats := us.length, hdr := some h }, read := false, addr := addr, data := us }

/-- Apply a write at its endpoint once it has passed every check: scratchpad, host window or lodge SRAM; then its windows,
its arrival semaphore, its own semaphore operation, and the ACK (02 R60, 05 R130, R132, R135; R381). -/
def State.applyWrite (s : State) (e : Nat) (p : Packet) : State :=
  let h := p.hdr
  let bs := packetBytes p
  let n := bs.length
  let a := h.addr.toNat
  if e < 2048 then
    if h.command ≠ 7#8 ∧ s.scrubbing e a n then s.error (.landing e) h 0x02
    else
      let rx := if h.cls = 1#1 then s.rxDesc e p else none
      if h.cls = 1#1 ∧ rx.isNone then s.misrouted e h
      else
        let f := s.filter e h
        match f.1 with
        | .full => s.filterFull e h
        | .duplicate => (f.2.bump 0x102003 (8192 + e) 0 0 0 32 1).ack e h 1
        | .apply =>
          match s.writeMiss e p rx with
          | some k => s.failReceipt (epUnit e) (epPort e) p 1 (fun s => s.writeLost e p rx (some k))
          | none =>
          let s := f.2
          let s := if h.command = 7#8 then s else
            (((s.countArrival e a n).storeWrite e p rx).tapBytes e true h.src h.stream h.seq bs).countWindows e a n
          let s := match rx with
            | some r => if r.2.desc.getLsbD 165 then s.semBump e (r.2.desc.extractLsb' 166 8) else s
            | none => s
          let s := if bearsSignal h.command.toNat then s.packetSignal e h else s
          (s.settleTile e).ack e h 0
  else
    let f := s.filter e h
    match f.1 with
    | .full => s.filterFull e h
    | .duplicate => f.2.ack e h 1
    | .apply =>
      if e = 2049 then (f.2.sramSet a bs).ack e h 0
      else if h.command = 7#8 then (f.2.packetSignal e h).ack e h 0
      else f.2.hostWrite 1 h a (if h.command = 2#8 then payloadsOf 1 bs else p.data)

/-- A write-type command at an endpoint. -/
def State.recvWrite (s : State) (e : Nat) (p : Packet) : State :=
  s.receiveOr (epUnit e) (epPort e) p (fun s => s.writeFailed e p) (fun s => s.takeIn e p.hdr (fun s => s.applyWrite e p))

/-- WRITE (02 R49, R60; 05 R132). -/
def execWrite (ep : Nat) (p : Packet) (s : State) : Host.Outcome State Fault Refusal := up s (fun s => s.recvWrite ep p)
/-- WRITE_INLINE (02 R50, R52). -/
def execWriteInline (ep : Nat) (p : Packet) (s : State) : Host.Outcome State Fault Refusal := up s (fun s => s.recvWrite ep p)
/-- SIGNAL (02 R50; 05 R134). -/
def execSignal (ep : Nat) (p : Packet) (s : State) : Host.Outcome State Fault Refusal := up s (fun s => s.recvWrite ep p)
/-- WRITE_SIGNAL (02 R49; 05 R135). -/
def execWriteSignal (ep : Nat) (p : Packet) (s : State) : Host.Outcome State Fault Refusal := up s (fun s => s.recvWrite ep p)

/-- A multicast write: replicated at a switch or pavilion, applied at a landing (07 R199 to R202). -/
def State.recvMcast (s : State) (u : UnitId) (port : Nat) (p : Packet) : State :=
  match u with
  | .landing l => s.recvWrite l p
  | _ => (s.takeRx u p).startMcast ((s.bank p.hdr).getD s) u port .normal p.hdr (rawUnits p) true

/-- MCAST_WRITE. -/
def execMcastWrite (u : UnitId) (port : Nat) (p : Packet) (s : State) : Host.Outcome State Fault Refusal :=
  up s (fun s => s.recvMcast u port p)
/-- MCAST_WRITE_SIGNAL. -/
def execMcastWriteSignal (u : UnitId) (port : Nat) (p : Packet) (s : State) : Host.Outcome State Fault Refusal :=
  up s (fun s => s.recvMcast u port p)

/-! ## Reads -/

/-- Header of the READ_RESP to a READ_REQ (02 R50, R52). -/
def State.readRespHeader (s : State) (e : Nat) (h : Header) : Header :=
  { answerHeader 4 2 h (s.addrOf e) 0 0 with
    length := h.aux.setWidth 7, addr := h.inl.setWidth 24 }

/-- Whether the read-service queue of an endpoint is full (04 R109). -/
def State.readsFull (s : State) (e : Nat) : Bool := 64 ≤ (s.ep e).reads.length

/-- A READ_REQ or SERVICE_REQ that finds the read-service queue full is discarded and counted, and draws no answer (04 R109). -/
def State.shedRead (s : State) (e : Nat) (h : Header) : State :=
  (if e < 2048 then s.bump 0x102004 (8192 + e) 0 0 0 16 1 else s).discard (epUnit e) (epPort e) h

/-- READ_REQ (04 R109, R112): it joins the read-service queue of 64, its rows are read, and the response follows; its place is free
again when that leaves. A duplicate is served again. -/
def State.readReq (s : State) (e : Nat) (p : Packet) : State :=
  let u := epUnit e
  let h := p.hdr
  s.receive u (epPort e) p (fun s => s.takeIn e h (fun s =>
    if s.readsFull e then s.shedRead e h
    else if e < 2048 ∧ s.scrubbing e h.addr.toNat (touched h) then s.error u h 0x02
    else
      let f := s.filter e h
      if f.1 = .full then s.filterFull e h
      else
        let s := if f.1 = .duplicate ∧ e < 2048 then f.2.bump 0x102003 (8192 + e) 0 0 0 32 1 else f.2
        let r := s.readRespHeader e h
        let s := s.onEp e (fun x => { x with reads := x.reads ++ [p] })
        if e = 2049 then s.queueTx e .answer r (payloadsOf 64 (sramRead s.lodge.sram h.addr.toNat (touched h))) 64
        else s.startRead e { use := .response, hdr := r, base := h.addr.toNat, bytes := touched h, rows := [], kind := .answer }))

/-- READ_REQ. -/
def execReadReq (ep : Nat) (p : Packet) (s : State) : Host.Outcome State Fault Refusal := up s (fun s => s.readReq ep p)

/-- The open READ that a READ_RESP answers. -/
def State.openRead (s : State) (e : Nat) (h : Header) : Option (Nat × Outst) :=
  match s.openPacket e h with
  | some (k, o) => if o.hdr.command = 3#8 then some (k, o) else none
  | none => none

/-- READ_RESP at the requester (04 R111): its data go to the return range, its windows count, the transaction goes on. A range that is
being scrubbed refuses it (05 R138). -/
def State.readResp (s : State) (e : Nat) (p : Packet) : State :=
  let u := epUnit e
  let h := p.hdr
  let a := h.addr.toNat
  let n := 64 * p.data.length
  s.receiveOr u (epPort e) p
    (fun s => if e < 2048 ∧ 0 < n ∧ (s.openRead e h).isSome ∧ (addressFault e h).isNone ∧ !s.scrubbing e a n
      then s.dataLost e a p (s.permuteMiss e a false p) else s)
    (fun s => s.takeIn e h (fun s =>
      match s.openRead e h with
      | none => s.discard u (epPort e) h
      | some (k, o) =>
        if e = 2048 then (s.hostWrite 6 h a p.data).packetDone e k o
        else if s.scrubbing e a n then s.error u h 0x02
        else match s.permuteMiss e a false p with
          | some i => s.failReceipt u (epPort e) p 1 (fun s => s.dataLost e a p (some i))
          | none =>
            let s := (((s.countArrival e a n).writeUnits e a p.data).tapBytes e true h.src h.stream h.seq (unitBytes p.data)).countWindows e a n
            (s.packetDone e k o).settleTile e))

/-- READ_RESP. -/
def execReadResp (ep : Nat) (p : Packet) (s : State) : Host.Outcome State Fault Refusal :=
  up s (fun s => (s.readResp ep p).startLaunches ep)

/-! ## Scheduled attempts (03 R73) -/

/-- End a scheduled stream as failed: reported, its packets and resends dropped (02 R51, 03 R73). -/
def State.failStream (s : State) (l k : Nat) (h : Header) : State :=
  let s := s.onTile l (fun t => { t with
    txs := match t.txs.find k with | some x => t.txs.put k { x with failed := true, pending := false } | none => t.txs
    resendQ := t.resendQ.filter (fun r => r.1 != k) })
  let s := s.onEntry l k (fun en => { en with outst := [], locks := [] })
  let s := s.onEp l (fun x => { x with tx := x.tx.filter (fun t => !(t.hdr.cls == 1#1 && t.entry == k)) })
  (s.bump 0x184004 0 h.part.toNat 0 0 16 1).raise (.landing l) 6 0x024 h.part.toNat (ctxPacket 1 h)

/-- A failed attempt of a scheduled packet: it joins the resend queue, or ends its stream after the third resend. -/
def State.schedFail (s : State) (l k : Nat) (o : Outst) : State :=
  if o.failed then s
  else if o.attempt ≥ 3 then s.failStream l k o.hdr
  else
    let s := s.onTile l (fun t => { t with resendQ := t.resendQ ++ [(k, o.hdr.seq)] })
    let s := s.onEntry l k (fun en => { en with outst := en.outst.map (fun x =>
      if x.hdr.seq = o.hdr.seq then { x with attempt := x.attempt + 1, failed := true } else x) })
    let s := s.bump 0x184003 0 o.hdr.part.toNat 0 0 64 1
    s.startRead l { use := .stream k, hdr := o.hdr, base := o.localAddr, bytes := o.bytes, rows := [], kind := .resend }

/-- Whether a stream has closed for new frames: its close frame or its frame count has passed (05 R131). -/
def State.streamEnded (s : State) (p : Nat) (x : TxStream) : Bool :=
  let pf := s.planFrame p (s.part p).frames
  let cnt := bitsAt x.desc.toNat 79 32
  (cnt != 0 && cnt ≤ pf) || (match x.close with
    | some c => (BitVec.ofNat 16 pf - c - 1).toNat < 2 ^ 15
    | none => false)

/-- Close a stream whose every packet is settled, acknowledged, abandoned or a no-show: the close SIGNAL first, if the descriptor
asks for it (05 R131). -/
def State.tryClose (s : State) (l k : Nat) : State :=
  match (s.tile l).txs.find k with
  | none => s
  | some x =>
    let p := s.epPart l
    let en := s.entry l k
    if x.closed ∨ x.pending ∨ x.ahead ∨ en.kind ≠ 2 ∨ !en.outst.isEmpty ∨ !s.streamEnded p x then s
    else
      let d := x.desc.toNat
      if d.testBit 68 ∧ !d.testBit 221 ∧ !x.closing then
        let h := { s.ownHeader 0x07 1 p (s.addrOf l) (BitVec.ofNat 24 (bitsAt d 222 24))
            (BitVec.ofNat 32 (bitsAt d 71 8 + bitsAt d 69 2 * 256)) (BitVec.ofNat 256 (bitsAt d 36 32)) with
          stream := BitVec.ofNat 17 (streamOf l k), seq := x.seq }
        let s := s.onTile l (fun t => { t with txs := t.txs.put k { x with closing := true, seq := x.seq + 1 } })
        (s.onEntry l k (fun en => { en with outst := [{ newOutst h 0 0 with closing := true }] })).queueTx l .fresh h [] k
      else
        (s.onTile l (fun t => { t with txs := t.txs.put k { x with closed := true } })).onEntry l k (fun en => { en with kind := 4 })

/-- A scheduled packet is acknowledged: its range is released, it leaves the resend queue (03 R73). -/
def State.schedAck (s : State) (l k : Nat) (o : Outst) : State :=
  let s := s.onTile l (fun t => { t with resendQ := t.resendQ.filter (fun r => r != (k, o.hdr.seq)) })
  let s := s.onEp l (fun x => { x with
    tx := x.tx.filter (fun t => !(t.hdr.cls == 1#1 && t.entry == k && t.hdr.seq == o.hdr.seq))
    jobs := x.jobs.filter (fun j => !(j.use == JobUse.stream k && j.hdr.seq == o.hdr.seq)) })
  let s := s.onEntry l k (fun en => { en with
    outst := en.outst.filter (fun x => x.hdr.seq != o.hdr.seq), locks := en.locks.erase (o.localAddr, o.bytes) })
  s.tryClose l k

/-- The end of a packet's retries, dynamic or scheduled; the close SIGNAL is dynamic (05 R131). -/
def State.failPacket (s : State) (e k : Nat) (o : Outst) : State :=
  if o.hdr.cls = 1#1 then s.schedFail e k o
  else if o.closing then
    (if o.attempt < 3 then
       (s.onEntry e k (fun en => { en with outst := en.outst.map (fun x => { x with attempt := x.attempt + 1, deadline := none, sent := false }) })).queueTx e .resend o.hdr [] k
     else s.failStream e k o.hdr)
  else s.retry e k o

/-! ## Answers -/

/-- Send a packet on, bit for bit, from the switch that took it (02 R42). -/
def State.forward (s : State) (u : UnitId) (port : Nat) (p : Packet) : State :=
  let put (outs : List HeldOut) : State :=
    s.hold u { id := 0, inp := port, lane := .normal, hdr := p.hdr, buf := 8, rel := s.now u
               units := rawUnits p, freed := 0, closed := true, outs := outs }
  match s.route u port .normal .none p.hdr with
  | .ports ps => put (copies ps)
  | .wait => put []
  | .take => s
  | .discard c => s.dropMade u c p.hdr

/-- The MCAST_REPORT of a stair's record (07 R202). -/
def State.sendReport (s : State) (n k : Nat) (r : ReportRec) : State :=
  let u := UnitId.stair n
  let mask (l : List Nat) : Nat := l.foldl (fun a p => a + 2 ^ p) 0
  let s := s.onSw u (fun w => { w with reports := w.reports.del k })
  s.makeAt u (answerHeader 0x12 2 r.hdr (BitVec.ofNat 24 (r.hdr.dst.toNat % 2 ^ 20)) (BitVec.ofNat 32 (1 * 2 ^ 29 + n * 2 ^ 17))
    (BitVec.ofNat 256 (mask r.delivered + mask r.fenced * 2 ^ 128))) []

/-- An ACK or NACK of a landing at its stair: noted in the record of its packet, if it passes check 3 and its code is none that R50
reserves (07 R202). A NACK goes on to the source as it came, and so does an answer that meets no record. -/
def State.stairAnswer (s : State) (n port : Nat) (p : Packet) (acked : Bool) : State :=
  let u := UnitId.stair n
  let s := s.takeRx u p
  let h := p.hdr
  match (s.sw u).reports.find? (fun r => r.2.hdr.src == h.dst && r.2.hdr.stream == h.stream && r.2.hdr.seq == h.seq && r.2.ports.contains port) with
  | none => s.forward u port p
  | some (k, r) =>
    let s := if acked then s else s.forward u port p
    if (checkThree p).isSome then (if acked then s.discard u port h else s)
    else if reservedOperand h then (if acked then s.malformed u port h else s)
    else
      let r' := { r with answered := if r.answered.contains port then r.answered else r.answered ++ [port]
                         delivered := if acked && !r.delivered.contains port then r.delivered ++ [port] else r.delivered }
      if r'.ports.all (fun q => r'.answered.contains q) then s.sendReport n k r'
      else s.onSw u (fun w => { w with reports := w.reports.put k r' })

/-- An ACK at the initiator (04 R111): it completes the packet whichever attempt it echoes; an ACK that bypassed a stair's
record does not complete a multicast packet (07 R202, R203). -/
def State.takeAck (s : State) (e : Nat) (h : Header) : State :=
  match s.openPacket e h with
  | none => s.discard (epUnit e) (epPort e) h
  | some (k, o) =>
    if o.hdr.mcast = 1#1 then s.discard (epUnit e) (epPort e) h
    else if o.closing then
      (s.onEntry e k (fun en => { en with outst := [] })).tryClose e k
    else if o.hdr.cls = 1#1 then s.schedAck e k o
    else s.packetDone e k o

/-- ACK (02 R60; 04 R111; 07 R202). -/
def execAck (u : UnitId) (port : Nat) (p : Packet) (s : State) : Host.Outcome State Fault Refusal :=
  up s (fun s => match u with
    | .stair n => s.stairAnswer n port p true
    | _ => match epOf u with
      | some e => (s.receive u port p (fun s => s.takeAck e p.hdr)).startLaunches e
      | none => s.takeRx u p)

/-- A NACK at the initiator (04 R111): matched against the time stamp of the packet's current attempt, which has none before it
departs. -/
def State.takeNack (s : State) (e : Nat) (h : Header) : State :=
  match s.openPacket e h with
  | none => s.discard (epUnit e) (epPort e) h
  | some (k, o) =>
    if !o.sent ∨ o.hdr.stamp ≠ h.inl.setWidth 32 ∨ o.failed then s.discard (epUnit e) (epPort e) h
    else s.failPacket e k o

/-- NACK (02 R60; 04 R111; 07 R202, R203). -/
def execNack (u : UnitId) (port : Nat) (p : Packet) (s : State) : Host.Outcome State Fault Refusal :=
  up s (fun s => match u with
    | .stair n => s.stairAnswer n port p false
    | _ => match epOf u with
      | some e => (s.receive u port p (fun s => s.takeNack e p.hdr)).startLaunches e
      | none => s.takeRx u p)

/-- The launch that an ERROR_RESP of its chip root ends: the member's open entry of the packet's stream (07 R206). -/
def State.endedLaunch (s : State) (e : Nat) (h : Header) : Option Nat :=
  let k := h.stream.toNat % 64
  let en := s.entry e k
  if e < 2048 ∧ h.stream.toNat = streamOf e k ∧ en.opcode = 12 ∧ en.desc.isSome ∧
      h.src = s.addrOf (chipRoot (s.desc en.handle)) ∧ (h.aux.toNat % 256 = 6 ∨ h.aux.toNat % 256 = 8) then some k
  else none

/-- An ERROR_RESP at the initiator (02 R51; 04 R111): matched by the failed request's header that it carries, time stamp included;
one by which a chip root ends a collective ends the member's launch whatever packet of it is open. -/
def State.takeError (s : State) (e : Nat) (h : Header) : State :=
  let req := unpackHeader (h.inl ++ 0#256)
  match s.endedLaunch e h with
  | some k => s.endEntry e k (h.aux.toNat % 256)
  | none =>
    match s.openPacket e h with
    | none => s.discard (epUnit e) (epPort e) h
    | some (k, o) =>
      if !o.sent ∨ o.hdr.stamp ≠ req.stamp then s.discard (epUnit e) (epPort e) h
      else if o.hdr.cls = 1#1 ∨ o.closing then s.failStream e k o.hdr
      else s.endEntry e k (h.aux.toNat % 256)

/-- ERROR_RESP. -/
def execErrorResp (ep : Nat) (p : Packet) (s : State) : Host.Outcome State Fault Refusal :=
  up s (fun s => (s.receive (epUnit ep) (epPort ep) p (fun s => s.takeError ep p.hdr)).startLaunches ep)

/-! ## Multicast reports (07 R202 to R204) -/

/-- The census of a group at a landing (07 R203). -/
def State.census (s : State) (l group : Nat) : Option Nat :=
  ((List.range 64).find? (fun r => let v := s.word 0x801001 (8192 + l) r 0; v != 0 && bitsAt v 18 20 == group)).map
    (fun r => s.word 0x801001 (8192 + l) r 0 % 2 ^ 18)

/-- Merge a row into the delivery log: AND of the delivered, OR of the dropped masks over the packets of the descriptor that entry
`k` holds, in the row that it has written for the unit, or in the next row (07 R204). -/
def State.logDelivery (s : State) (l k level chip inst delivered dropped : Nat) (tag : BitVec 6) : State :=
  let inst8 := 8192 + l
  let key := level * 2 ^ 61 + chip * 2 ^ 51 + inst % 2 ^ 7 * 2 ^ 44
  let tail := k * 2 ^ 6 + tag.toNat
  match (s.entry l k).rows.find? (fun r =>
    let v := s.word 0x801002 inst8 r 0
    v / 2 ^ 44 * 2 ^ 44 == key && v % 2 ^ 12 == tail) with
  | some r =>
    let v := s.word 0x801002 inst8 r 0
    s.setWord 0x801002 inst8 r 0 (key + (bitsAt v 28 16 &&& delivered % 2 ^ 16) * 2 ^ 28 + (bitsAt v 12 16 ||| dropped % 2 ^ 16) * 2 ^ 12 + tail)
  | none =>
    let pos := s.word 0x801003 inst8 0 0
    let r := pos % 1024
    let s := s.setWord 0x801002 inst8 r 0 (key + delivered % 2 ^ 16 * 2 ^ 28 + dropped % 2 ^ 16 * 2 ^ 12 + tail)
    let s := s.setWord 0x801003 inst8 0 0 ((if pos ≥ 2 ^ 31 ∨ r + 1 = 1024 then 2 ^ 31 else 0) + (r + 1) % 1024)
    s.onEntry l k (fun en => { en with rows := en.rows ++ [r] })

/-- The chip of a reporting unit, for the delivery log. A report bears the group in its source field and no chip number (02 R51), so
for a group that leaves the chip the value is free (log entry 131). -/
def State.reportChip (s : State) (h : Header) : Nat × State :=
  if s.groupLeaves (h.src.toNat % 2 ^ 20) h.part.toNat then let r := s.fresh 10; (r.1.toNat, r.2) else (s.chipNo, s)

/-- The masks of a log row from those of a report (07 R204): stairs of a gallery by their ports, a hall's galleries and
pavilion ports. -/
def logMask (level : Nat) (m : Nat) : Nat :=
  match level with
  | 2 => (List.range 16).foldl (fun a i => if (List.range 8).any (fun k => m.testBit (8 * i + k)) then a + 2 ^ i else a) 0
  | 3 => (List.range 8).foldl (fun a i => if (List.range 8).any (fun k => m.testBit (8 * i + k)) then a + 2 ^ i else a) 0 +
      (List.range 8).foldl (fun a i => if m.testBit (64 + i) then a + 2 ^ (8 + i) else a) 0
  | _ => m % 2 ^ 16

/-- A multicast packet is acknowledged when its census is reached and nothing NACKed it (07 R203). -/
def State.mcastReport (s : State) (e : Nat) (p : Packet) : State :=
  let h := p.hdr
  match s.openPacket e h with
  | none => s.discard (epUnit e) (epPort e) h
  | some (k, o) =>
    if o.hdr.mcast = 0#1 ∨ !o.sent ∨ (h.stamp - o.hdr.stamp).toNat ≥ 2 ^ 31 then s.discard (epUnit e) (epPort e) h
    else
      let level := bitsAt h.aux.toNat 29 3
      let inst := bitsAt h.aux.toNat 17 12
      let delivered := h.inl.toNat % 2 ^ 128
      let dropped := h.inl.toNat / 2 ^ 128
      let s : State := match (s.entry e k).desc with
        | some d =>
          if o.hdr.command = 0x22#8 then s
          else
            let c := s.reportChip h
            c.2.logDelivery e k level c.1 inst (logMask level delivered) (logMask level dropped) d.tag
        | none => s
      let add := if level = 1 then 1 else if level = 2 then ((List.range 128).filter (fun i => dropped.testBit i)).length else 0
      let o' := { o with stairs := o.stairs + add, hallDrop := o.hallDrop || level == 3 }
      let s := s.onEntry e k (fun en => { en with outst := en.outst.map (fun x => if x.hdr.seq = o.hdr.seq then o' else x) })
      let need := if o.hdr.cls = 1#1 then s.census e (bitsAt o.hdr.dst.toNat 0 20) else s.census e (o.hdr.dst.toNat % 2 ^ 20)
      if !o'.nacked ∧ need.any (fun c => c ≤ o'.stairs) then
        (if o.hdr.cls = 1#1 then s.schedAck e k o'
         else if o.hdr.command = 0x22#8 then s.onEntry e k (fun en => { en with outst := en.outst.filter (fun x => x.hdr.seq != o.hdr.seq) })
         else s.packetDone e k o')
      else s

/-- MCAST_REPORT. -/
def execMcastReport (ep : Nat) (p : Packet) (s : State) : Host.Outcome State Fault Refusal :=
  up s (fun s => (s.receive (epUnit ep) (epPort ep) p (fun s => s.mcastReport ep p)).startLaunches ep)

/-- Whether the report timer of a stair's record has expired. -/
def State.reportDue (s : State) (stair k : Nat) : Bool :=
  match (s.sw (.stair stair)).reports.find k with
  | some r => r.expires ≤ s.now (.stair stair)
  | none => false

/-- MCAST_REPORT_TIMER (07 R202): the record's timer expires, and its report goes with what has been answered. -/
def execMcastReportTimer (stair rec : Nat) (s : State) : Host.Outcome State Fault Refusal :=
  upWhen s (fun s => s.reportDue stair rec) (fun s => match (s.sw (.stair stair)).reports.find rec with
    | some r => s.sendReport stair rec r
    | none => s)

/-! ## Scrubs (05 R138) -/

/-- Begin a scrub: windows and locked transactions that meet the range are ended with status 0x83, the range is held. DESIGN CHOICE,
as the spec speaks of neither: a scheduled stream whose lock meets the range is failed, and a request that comes while another scrub
runs takes its place (log entry 132). -/
def State.startScrub (s : State) (l base lines : Nat) (order : Option Header) : State :=
  let n := 64 * lines
  let s := (s.windowsAt l base n).foldl (fun s w => match w.2.byRead with
    | some k => s.endEntry l k 0x83
    | none => s.closeWin l w.1 0x83) s
  let s := (s.ep l).entries.foldl (fun s en =>
    if en.2.locks.any (fun r => meets base n r.1 r.2) then
      (if en.2.kind = 1 then s.endEntry l en.1 0x83
       else match en.2.outst.head? with
         | some o => s.failStream l en.1 o.hdr
         | none => s)
    else s) s
  let s := s.onTile l (fun t => { t with scrub := some { base := base, lines := lines, order := order }, scrubState := 1 })
  (s.settleTile l).startLaunches l

/-- SCRUB_REQ (05 R138, 02 R382): one that fails its checks, its alignment or its range at a landing is discarded and counted; another
endpoint does not serve it (R381). -/
def State.scrubReq (s : State) (e : Nat) (p : Packet) : State :=
  let h := p.hdr
  let u := epUnit e
  s.receive u (epPort e) p (fun s =>
    let n := 64 * (h.aux.toNat % 2 ^ 14)
    if 2048 ≤ e then s.takeIn e h id
    else if !permits e h ∨ h.addr.toNat % 64 ≠ 0 ∨ 0xC0000 < h.addr.toNat + n then s.discard u (epPort e) h
    else s.startScrub e h.addr.toNat (h.aux.toNat % 2 ^ 14) (some h))

/-- SCRUB_REQ. -/
def execScrubReq (ep : Nat) (p : Packet) (s : State) : Host.Outcome State Fault Refusal := up s (fun s => s.scrubReq ep p)

/-- Zero a range of a scratchpad, line by line. -/
def State.zeroLines (s : State) (l base lines : Nat) : State :=
  (List.range lines).foldl (fun s i => s.storeBytes l (base + 64 * i) (List.replicate 64 0#8)) s

/-- SCRUB_COMPLETE (05 R138): the range has been zeroed, SCRUB_DONE goes to the keeper that ordered it, and held accesses
are released. -/
def execScrubComplete (l : Nat) (s : State) : Host.Outcome State Fault Refusal :=
  upWhen s (fun s => (s.tile l).scrub.isSome) (fun s => match (s.tile l).scrub with
    | none => s
    | some x =>
      let s := s.zeroLines l x.base x.lines
      let s := s.onTile l (fun t => { t with scrub := none, scrubState := 2 })
      let s := s.setWord 0x800502 (8192 + l) 0 0 x.lines
      match x.order with
      | some h => s.queueTx l .answer (answerHeader 0x41 4 h (s.addrOf l) (BitVec.ofNat 32 x.lines) 0) [] 64
      | none => s)

end Sys2Proof.Machine
end

