-- ==== Sys2Proof/Machine/Access.lean ====
section
/-!
DEFINITION. Access to the dictionary: sessions and their rights (09 R239 to R242), the seven checks of a write (09
R250), field ranges (09 R251 and the Range columns of every chapter), the clamp log (09 R252), selectors (09 R249)
and staged writes (09 R255).
-/
namespace Sys2Proof.Machine

/-! ## Sessions and rights -/

/-- Who makes a request: the session's key, its right (0 read-only, 1 owner, 2 privileged), its partition, its number. -/
structure Who where
  key : Nat
  right : Nat
  part : Nat
  num : Nat
deriving DecidableEq, Repr

/-- The key under which a session's staged writes and selectors are kept: its number, or for a session of another chip
the pair of chip and number (R242). -/
def sessKey (path : Path) (sess : Nat) : Nat :=
  match path with
  | .remote c => (c % 1024 + 1) * 64 + sess % 64
  | _ => sess % 64

/-- The rights of a request (R241): those of its open session, on the path that it was opened on (log entry 17). The rights
of a session of another chip are known on its home chip only, and are free here (log entry 18). The keepers act with every
right. -/
def State.who (s : State) (path : Path) (sess : Nat) : Option Who × State :=
  match path with
  | .keeper => (some { key := 0, right := 2, part := 0, num := 0 }, s)
  | .remote _ =>
    if sess = 0 ∨ 63 < sess then (none, s)
    else
      let r := s.fresh 2
      let p := r.2.fresh 9
      (some { key := sessKey path sess, right := min r.1.toNat 2, part := p.1.toNat, num := sess }, p.2)
  | _ =>
    match s.ctl.sessions.find sess with
    | some x => if sess ≠ 0 ∧ x.path = path then (some { key := sess, right := x.right, part := x.part, num := sess }, s) else (none, s)
    | none => (none, s)

/-- The units that an instance prefix numbers in this build (01 R18, 14 R369). -/
def State.instCount (s : State) (pre : Nat) : Nat :=
  match pre with
  | 0 => 1
  | 1 => 256 * s.build.galleries
  | 2 => 16 * s.build.galleries
  | 3 => s.build.galleries
  | 4 => 4
  | 5 => if s.build.pavilions then 16 else 0
  | 6 => s.build.galleries + 1
  | _ => 0

/-- The rows of an object that this build has: those of the partition map are its landings, those of the self-test results and
supply readings its domains in SUP_CODE order (14 R362, R370). -/
def State.rowHere (s : State) (o : Obj) (row : Nat) : Bool :=
  if o.id = 0x080001 then s.unitHere 0 row
  else if o.id = 0x044102 ∨ o.id = 0x041107 then
    if row < 128 then s.unitHere 1 row else if row < 136 then s.unitHere 2 (row - 128) else true
  else true

/-- Check 1 of R250: the object of an entry, or the outcome 0x17 or 0x16. -/
def State.locate (s : State) (e : DictEntry) : Obj ⊕ Nat :=
  match findObj (e.idx.toNat * 256 + e.sub.toNat) with
  | none => .inr 0x17
  | some o =>
    let i := e.inst.toNat
    if o.pre.contains (i / 8192) ∧ i % 8192 < s.instCount (i / 8192) ∧ e.row.toNat < o.rows ∧ e.word.toNat < o.words ∧ s.rowHere o e.row.toNat then .inl o
    else .inr 0x16

/-- Whether a partition owns a row or an instance of an OWN object (R241); from ENDING on it loses its instances (10 R276). -/
def State.owns (s : State) (o : Obj) (inst row part : Nat) : Bool :=
  if inst / 8192 = 1 then s.partOf (inst % 4096) == part && (s.part part).st != .ending
  else if ([0x180101, 0x184001, 0x184002, 0x184003, 0x184004, 0x080101, 0x080102, 0x080103] : List Nat).contains o.id then row == part
  else if ([0x201001, 0x210201, 0x210202, 0x210203, 0x210301, 0x385001] : List Nat).contains o.id then s.handleOwner row == part || (s.part part).oldHandles.contains row
  else false

/-- Identity objects (R247). -/
def isIdentity (id : Nat) : Bool := decide (0x010000 ≤ id ∧ id < 0x020000)

/-- What a path permits to be read (R240, R242). -/
def pathReads (path : Path) (id inst row : Nat) : Bool :=
  match path with
  | .mgmt =>
    let idx := id / 256
    decide (idx < 0x0200 ∨ (0x0400 ≤ idx ∧ idx < 0x0800) ∨ (0x3000 ≤ idx ∧ idx < 0x3800)) ||
      (id == 0x381002 && [0, 2, 3, 4].contains row && inst / 8192 != 0)
  | _ => true

/-- Whether a session may read an object (R240, R241, R249). -/
def State.mayRead (s : State) (w : Who) (path : Path) (o : Obj) (inst row : Nat) : Bool :=
  pathReads path o.id inst row && (isIdentity o.id ||
    (match path with | .mgmt => true | _ => false) || w.right == 2 ||
    (match o.acc with
     | .ro => !decide (0x300000 ≤ o.id ∧ o.id < 0x400000)
     | .wo => true
     | .own => w.right == 1 && s.owns o inst row w.part
     | .ctr => w.right == 1 && inst / 8192 == 1 && s.owns o inst row w.part
     | _ => false))

/-- Check 2 of R250: 0x11 for a read-only object, 0x12 for a right or path that does not permit the write. -/
def State.mayWrite (s : State) (w : Who) (path : Path) (o : Obj) (inst row : Nat) : Nat :=
  if o.acc = .ro ∨ o.takes = .never then 0x11
  else if path = .mgmt then (if o.id = 0x041003 then 0 else 0x12)
  else if ([0x401001, 0x000006, 0x401004] : List Nat).contains o.id then
    (if path = .host 0 ∧ (o.id = 0x401001 ∨ w.right = 2) then 0 else 0x12)
  else if w.right = 2 then 0
  else match o.acc with
    | .own => if w.right = 1 ∧ s.owns o inst row w.part ∧ (s.part w.part).st ≠ .ending then 0 else 0x12
    | .ctr => if w.right = 1 ∧ inst / 8192 = 1 ∧ s.owns o inst row w.part then 0 else 0x12
    | _ => 0x12

/-! ## Selectors and the places of staged writes (R249, R255) -/

/-- The value of a selector of a session; its default until written (R249). -/
def State.selector (s : State) (k id inst : Nat) : Nat :=
  match s.ctl.selectors.find ((k * 2 ^ 24 + id) * 2 ^ 16 + inst) with
  | some v => v.toNat
  | none => objDefault id 0 0

/-- Set a selector of a session. -/
def State.setSelector (s : State) (k id inst v : Nat) : State :=
  { s with ctl := { s.ctl with selectors := s.ctl.selectors.put ((k * 2 ^ 24 + id) * 2 ^ 16 + inst) (BitVec.ofNat 64 v) } }

/-- The key of the word that an entry means: tables behind a selector are addressed by the session's selection (R249); the
rows of a cell or replication entry are its words (R248). -/
def State.placeOf (s : State) (k : Nat) (id inst row word : Nat) : Nat :=
  if id = 0x182003 ∨ id = 0x182004 then dkey 0x182003 inst (s.selector k 0x182001 inst * 4096 + s.selector k 0x182002 inst) 0
  else if id = 0x183002 ∨ id = 0x183003 then dkey id inst (s.selector k 0x183001 inst) row
  else if id = 0x220002 then dkey id inst (s.selector k 0x220001 inst) row
  else dkey id inst row word

/-- The staged writes on this chip, those of accepted commits among them (R383). -/
def State.allStaged (s : State) : List StagedWrite :=
  s.ctl.staged ++ (s.ctl.pending.toList ++ s.ctl.queue).flatMap (·.writes)

/-- The value that a session has staged for a place (R245). -/
def State.stagedValue (s : State) (k key : Nat) : Option Nat :=
  (s.allStaged.find? (fun x => x.sess == k && x.key == key)).map (fun x => x.value.toNat)

/-- A committed word by its key. -/
def State.wordAt (s : State) (key : Nat) : Nat := s.word (keyId key) (keyInst key) (keyRow key) (keyWord key)

/-- A word as a session would commit it. -/
def State.stagedView (s : State) (k key : Nat) : Nat := (s.stagedValue k key).getD (s.wordAt key)

/-- Stage a value for a session; a later write of the same place replaces it (R250). -/
def State.stage (s : State) (k key v : Nat) : State :=
  let others := s.ctl.staged.filter (fun x => !(x.sess == k && x.key == key))
  { s with ctl := { s.ctl with staged := others ++ [{ sess := k, key := key, value := BitVec.ofNat 64 v }] } }

/-- Drop every staged write of a session, and a staged plan or activation that is its own (R245, 03 R90, 12 R319). -/
def State.dropStaged (s : State) (k : Nat) : State :=
  let act := s.ctl.staged.any (fun x => x.sess == k && keyId x.key == 0x440008)
  let s := { s with ctl := { s.ctl with staged := s.ctl.staged.filter (fun x => x.sess != k) } }
  let s := if act then { s with fw := { s.fw with status := 3 } } else s
  if s.plan.staged.isSome ∧ s.plan.sess = k then { s with plan := { s.plan with staged := none, status := 0 } } else s

/-! ## Field ranges (R251) -/

/-- What the range check of a value finds. -/
inductive Ranged where
  | fit (v : Nat)
  /-- the value as clamped, and each clamped field: number, outcome, requested, applied -/
  | clamped (v : Nat) (fs : List (Nat × Nat × Nat × Nat))
  | refused (outcome : Nat)
deriving DecidableEq, Repr

/-- Clamp the fields of a value, in order; `i` is the number of the first. -/
def clampFields : List (Nat × Nat × Nat × Nat) → Nat → Nat → Nat × List (Nat × Nat × Nat × Nat)
  | [], _, _ => (0, [])
  | (at_, w, least, most) :: r, i, v =>
    let x := bitsAt v at_ w
    let rest := clampFields r (i + 1) v
    if x < least then (rest.1 + least * 2 ^ at_, (i, 1, x, least) :: rest.2)
    else if most < x then (rest.1 + most * 2 ^ at_, (i, 2, x, most) :: rest.2)
    else (rest.1 + x * 2 ^ at_, rest.2)

/-- A value whose fields are clamped. -/
def clampAll (fs : List (Nat × Nat × Nat × Nat)) (v : Nat) : Ranged :=
  let r := clampFields fs 0 v
  if r.2.isEmpty then .fit r.1 else .clamped r.1 r.2

/-- A value whose fields are refused outside their bounds. A BOOL is 0 or 1 as a whole (R248). -/
def refuseAll (fs : List (Nat × Nat × Nat × Nat)) (v : Nat) : Ranged :=
  if fs.all (fun f => let x := if f.2.1 = 1 then v else bitsAt v f.1 f.2.1
      decide (f.2.2.1 ≤ x ∧ x ≤ f.2.2.2)) then .fit (clampFields fs 0 v).1
  else .refused 0x10

/-- A value that fits a condition, or a refusal. -/
def orRefuse (c : Bool) (v outcome : Nat) : Ranged := if c then .fit v else .refused outcome

/-- A slot-table entry of a unit as it is held (03 R66), its reserved fields at 0 whatever they bore (00 R9): an EMPTY entry has no
operand, a SCHED entry an input port of the switch, the combining store (254), or a stream of the landing. None for a reserved kind
or operand value. -/
def slotCanon (u : UnitId) (v : Nat) : Option Nat :=
  match bitsAt v 14 2 with
  | 0 => some 0
  | 1 => match u with
    | .landing _ => some (0x4000 + v % 64)
    | _ => if v % 256 < portCount u ∨ v % 256 = 254 then some (0x4000 + v % 256) else none
  | 2 => some (0x8000 + v % 1024)
  | _ => none

/-- The rows of the selection thresholds (07 R187). -/
def thresholdRange (row v : Nat) : Ranged :=
  match row with
  | 0 => clampAll [(0, 32, 4096, 786432)] v
  | 1 => if v % 2 ^ 32 = 0xFFFFFFFF then .fit 0xFFFFFFFF else clampAll [(0, 32, 4096, 786432)] v
  | 2 => clampAll [(0, 8, 1, 64)] v
  | 3 => .fit (v % 8)
  | _ => clampAll [(0, 8, 2, 16)] v

/-- The rules of 07 R176, R178 and R179 that one word of a collective descriptor shows alone (log entry 19). Reserved fields are not
looked at (00 R9). -/
def collWordOk (row word v : Nat) : Bool :=
  match word with
  | 7 =>
    let op := bitsAt v 48 4; let f := bitsAt v 44 4
    v == 0 || (v / 2 ^ 52 == row && validPair op f &&
      decide (bitsAt v 16 24 * elemBytes op (fmtOf f) ≤ 786432) && !(v.testBit 42 && (op == 7 || op == 8)))
  | 6 => bitsAt v 56 6 == 0 && bitsAt v 32 6 == 0 && bitsAt v 8 6 == 0 &&
      decide (bitsAt v 32 24 ≤ 0xC0000) && decide (bitsAt v 8 24 ≤ 0xC0000)
  | 4 =>
    let d := v * 2 ^ 256
    decide (dExp d ≤ 11) && decide (dAxisCount d ≤ 4) && decide (dChunks d ≤ 64) && decide ((dAxes d).Nodup) &&
      (List.range 4).all (fun i => decide (i < dAxisCount d) || bitsAt d (301 - 2 * i) 2 == 0) &&
      (dAxes d).all (fun a => decide (2 ≤ dExtent d a))
  | _ => true

/-- A word of a collective descriptor with its reserved fields at 0 (07 R178). -/
def collCanon (word v : Nat) : Nat :=
  if word < 4 then 0 else if word = 7 then v - bitsAt v 40 2 * 2 ^ 40 else v

/-- Whether a source and a kind of the kinds table go together (11 R291, R293). -/
def kindOf (level kind : Nat) : Bool :=
  match findKind kind with
  | some f => f.levels.contains level
  | none => false

/-- The range of a value that names a unit and a kind of its level: 0x10 for what is no source, 0x16 for a unit that this build
does not have (14 R370). -/
def State.sourceRange (s : State) (level inst kind v : Nat) : Ranged :=
  let most := match level with | 0 => 2048 | 1 => 128 | 2 => 8 | 3 => 4 | 4 => 16 | 5 => 2061 | _ => 1
  if !kindOf level kind ∨ most ≤ inst ∨ (level = 5 ∧ inst < 2048) then .refused 0x10
  else if !s.unitHere level inst then .refused 0x16 else .fit v

/-- Ranges of the objects whose rule needs more than bounds (the Range columns). -/
def State.special (s : State) (r : Range) (inst row word v : Nat) : Ranged :=
  let u := unitOfInst inst
  match r with
  | .axes =>
    let n := (v % 16 + 1) * (bitsAt v 4 4 + 1) * (bitsAt v 8 4 + 1) * (bitsAt v 12 2 + 1)
    orRefuse (bitsAt v 12 2 != 2 && decide (n ≤ 1024)) (v % 2 ^ 14) 0x10
  | .source => orRefuse (v % 64 == 0 && decide (v ≤ 0xFFFFC0)) v 0x10
  | .port => orRefuse (decide (v < portCount u) && (match u with | .landing _ => v == 1 | _ => true)) v 0x10
  | .slotEntry => match slotCanon u v with
    | some x => .fit x
    | none => .refused 0x18
  | .cellEntry => if row = 1 then orRefuse (decide (v / 2 ^ 59 ≤ 22)) v 0x18 else .fit (v - v % 2 ^ 13)
  | .collDesc => orRefuse (collWordOk row word v) (collCanon word v) 0x10
  | .thresholds => thresholdRange row v
  | .replication =>
    let n := portCount u
    if row = 2 then orRefuse (decide (v % 2 ^ 32 < 2 ^ (n - 128))) (v - bitsAt v 32 1 * 2 ^ 32) 0x18
    else orRefuse (decide (v < 2 ^ (min 64 (n - 64 * row)))) v 0x18
  | .chipNo => orRefuse (decide (v % 2 ^ 16 < 1024) || v % 2 ^ 16 == 0xFFFF) (v % 2 ^ 16) 0x10
  | .asymmetry =>
    let x := signedOf 16 (v % 2 ^ 16)
    if x < -8192 then .clamped (patternOf 64 (-8192)) [(0, 1, v, patternOf 64 (-8192))]
    else if 8191 < x then .clamped 8191 [(0, 2, v, 8191)]
    else .fit (patternOf 64 x)
  | .faultPair =>
    let x := v % 2 ^ 32 - bitsAt v 10 6 * 2 ^ 10
    if v.testBit 31 then .fit x else s.sourceRange (bitsAt v 28 3) (bitsAt v 16 12) (v % 1024) x
  | .summary =>
    s.sourceRange (bitsAt v 28 3) (bitsAt v 16 12) (v % 1024) (v % 2 ^ 31 - bitsAt v 10 6 * 2 ^ 10)
  | .force =>
    let level := if inst = 0 then (if bitsAt v 4 12 = 0 then 6 else 5) else u.level
    orRefuse (kindOf level (bitsAt v 22 10) && v % 16 != 0 &&
      (inst != 0 || [0, 2048, 2049, 2050, 2060].contains (bitsAt v 4 12)))
      (if inst = 0 then v % 2 ^ 32 else v % 2 ^ 32 - bitsAt v 4 4 * 2 ^ 4) 0x10
  | .counter =>
    let ev := bitsAt v 26 6
    orRefuse (decide (ev ≤ 0x0C) && (ev != 1 || decide (bitsAt v 7 4 ≤ 0xC))) (v % 2 ^ 32 - v % 128) 0x18
  | .traceTypes => orRefuse (v.testBit 15) (v % 2 ^ 16) 0x10
  | .snapAddr => orRefuse (v % 64 == 0 && decide (v < (if s.val 0x386002 = 0 then 0x200000 else 0x1000000))) v 0x10
  | .snapLen => orRefuse (v % 32 == 0 && decide (64 ≤ v ∧ v ≤ 0x1000000)) v 0x10
  | .channel => orRefuse (bitsAt v 61 2 != 3) (v - bitsAt v 48 2 * 2 ^ 48 - bitsAt v 16 16 * 2 ^ 16) 0x18
  | .tap =>
    if bitsAt v 58 4 ≥ 8 then .refused 0x18
    else orRefuse (v.testBit 62 || bitsAt v 47 11 == inst % 4096)
      (v - (if v.testBit 62 then v % 2 ^ 17 else v % 2 ^ 41)) 0x10
  | .scrub =>
    let n := bitsAt v 24 14
    orRefuse (decide (1 ≤ n ∧ n ≤ 12288) && v % 64 == 0 && decide (v % 2 ^ 24 + 64 * n ≤ 0xC0000)) (v % 2 ^ 38) 0x10
  | .census => orRefuse (decide (1 ≤ v % 2 ^ 18 ∧ v % 2 ^ 18 ≤ 131072)) (v % 2 ^ 38) 0x10
  | _ => .fit v

/-- Check 5 of R250: the fields of a value against the object's range (R251). -/
def State.rangeOf (s : State) (o : Obj) (inst row word v : Nat) : Ranged :=
  match o.range with
  | .any => .fit v
  | .readOnly => .refused 0x11
  | .zero => orRefuse (v == 0) 0 0x10
  | .one => orRefuse (decide (v ≤ 1)) v 0x10
  | .aligned n => orRefuse (v % 2 ^ n == 0) v 0x10
  | .clamp fs => clampAll fs v
  | .refuse fs =>
    if o.id = 0x101001 then .fit (v % 2 ^ 16 - bitsAt v 14 1 * 2 ^ 14) else refuseAll fs v
  | .partition also =>
    let x := v % 2 ^ 16
    if o.id = 0x400002 ∧ row = 0 then orRefuse (x == 0xFFFF) x 0x10
    else orRefuse (decide (x < 512) || x == 0xFFFF || x == also) x (if also = 0xFFFE then 0x18 else 0x10)
  | .doze => if v % 2 ^ 32 = 0 then .fit 0 else clampAll [(0, 32, 20000, 2000000000)] v
  | r => s.special r inst row word v

/-! ## The state of an object and its own rule (R250, checks 4 and 6) -/

/-- Whether the firmware state admits an access (12 R313): reads in READY are served, writes only to the firmware-load,
attach and power-cap objects. -/
def State.fwAdmits (s : State) (id : Nat) (wr : Bool) : Bool :=
  let load := decide (0x440000 ≤ id ∧ id < 0x440100)
  let attach := decide (0x401000 ≤ id ∧ id < 0x401100)
  match s.fw.st with
  | .rom => isIdentity id || id == 0x000007 || id == 0x000008 || load
  | .ready => !wr || load || attach || id == 0x041002 || id == 0x041003
  | .refused => isIdentity id || load || attach
  | _ => true

/-- Whether a partition spans chips and is in use. -/
def State.spansInUse (s : State) : Bool := s.parts.any (fun p => p.2.spans && p.2.st != .free)

/-- The source of a force object: a unit, or a control-domain source (11 R305). -/
def forceUnit (inst v : Nat) : UnitId :=
  if inst = 0 then (if bitsAt v 4 12 = 0 then .chip else .special (bitsAt v 4 12)) else unitOfInst inst

/-- Check 4 of R250: whether the object's state permits the write. -/
def State.statePermits (s : State) (o : Obj) (inst row v : Nat) : Bool :=
  s.fwAdmits o.id true && (match o.id with
    | 0x180004 => !s.plan.running && !(v == 1 && s.fw.st == .hostless)
    | 0x440003 => !s.fw.loading && s.boot.progress != 4 && s.fw.status != 4 && s.fw.status != 5
    | 0x440008 => v == 0 || s.fw.status == 3
    | 0x000006 => s.fw.st == .attached
    | 0x280008 => !s.spansInUse
    | 0x800504 => (s.tile (inst % 4096)).scrub.isNone
    | 0x400002 => !s.ringOn row
    | 0x402001 => let c := s.lodge.chans.get {} row; c.inq.isEmpty && c.outq.isEmpty
    | 0x386002 => s.obs.snap.st != 3
    | 0x386003 => s.obs.snap.st != 3
    | 0x386004 => s.obs.snap.st != 3
    | 0x386006 => s.obs.snap.st == 3
    | 0x044001 => s.host.outReqs.isEmpty
    | 0x302001 => (s.src (forceUnit inst v)).force.isNone
    | 0x302101 => (s.src (forceUnit inst v)).force.isNone
    | _ => true)

/-- The units of a domain that hold slot tables or combining entries. -/
def domainUnits (d : Nat) : List UnitId :=
  if d < 128 then .stair d :: (List.range 16).map (fun i => .landing (16 * d + i)) else [domainUnit d]

/-- The units of a domain whose tables a rejoin loads and checks: a stair with its landings, a gallery, a hall with its
pavilions (01 R35; 10 R282). -/
def rejoinUnits (d : Nat) : List UnitId :=
  if d < 136 then domainUnits d else .hall (d - 136) :: (List.range 4).map (fun i => .pavilion (4 * (d - 136) + i))

/-- Whether a unit owns a slot-table entry of a partition whose plan runs (10 R278). -/
def State.ownsRunning (s : State) (u : UnitId) : Bool :=
  s.dict.any (fun x => keyId x.1 == 0x182003 && keyInst x.1 == instOf u && keyWord x.1 == 1 && x.2 != 0#64 &&
    (s.part (x.2.toNat - 1)).run)

/-- The conditions for DOZE and SLEEP of a domain (10 R278): target 1 or 2. A domain that failed its self-test takes no target
(14 R353). -/
def State.domainMay (s : State) (d target : Nat) : Bool :=
  let idle := (domainUnits d).all (fun u => !s.ownsRunning u && (s.sw u).resvs.isEmpty)
  let pavs := (List.range 4).any (fun i => s.word 0x281001 (5 * 8192 + 4 * (d - 136) + i) 0 0 == 1)
  if (s.dom d).failed then false
  else if target = 0 then true
  else if d < 128 then idle && (target == 1 || (List.range 16).all (fun i => s.partOf (16 * d + i) == 0xFFFF))
  else if d < 136 then idle && (target == 1 || (List.range 16).all (fun i => (s.dom (16 * (d - 128) + i)).st == .sleep))
  else !pavs && idle && (target == 1 || (List.range 4).any (fun h => 136 + h != d && (s.dom (136 + h)).st == .active))

/-- The rings that a control block describes as it stands in lodge SRAM: ring number, base, size exponent, bytes of an
entry (12 R323). -/
def State.ringDescs (s : State) (set : Nat) : List (Nat × Nat × Nat × Nat) :=
  (List.range (if set = 0 then 4 else 3)).map (fun r =>
    let v := sramVal s.lodge.sram (64 * set + 16 * r) 16
    (r, bitsAt v 104 24, bitsAt v 100 4, if r = 2 then 32 else 64))

/-- The ranges of the rings of the enabled sets as K0 read them. -/
def State.ringRanges (s : State) (but : Nat) : List (Nat × Nat) :=
  (s.lodge.rings.filter (fun x => s.ringOn (x.1 / 4) && x.1 / 4 != but)).map
    (fun x => (x.2.1, 2 ^ x.2.2 * (if x.1 % 4 = 2 then 32 else 64)))

/-- Whether the rings that a write of the enable bits adds stay clear of one another (12 R323). -/
def State.newRingsApart (s : State) (v : Nat) : Bool :=
  let new := ((List.range 32).filter (fun i => v.testBit i && !s.ringOn i)).flatMap (fun i =>
    (s.ringDescs i).map (fun d => (i, d.2.1, 2 ^ d.2.2.1 * d.2.2.2)))
  new.all (fun x => new.all (fun y => x.1 == y.1 || !meets x.2.1 x.2.2 y.2.1 y.2.2))

/-- Whether the rings of a set may be enabled (12 R323). -/
def State.ringsFit (s : State) (set : Nat) : Bool :=
  let mine := (s.ringDescs set).map (fun d => (d.2.1, 2 ^ d.2.2.1 * d.2.2.2))
  let others := s.ringRanges set
  mine.zipIdx.all (fun x => decide (0x800 ≤ x.1.1 ∧ x.1.1 + x.1.2 ≤ 0x200000) &&
    others.all (fun y => !meets x.1.1 x.1.2 y.1 y.2) &&
    mine.zipIdx.all (fun y => x.2 == y.2 || !meets x.1.1 x.1.2 y.1.1 y.1.2)) &&
    (s.ringDescs set).all (fun d => decide (4 ≤ d.2.2.1 ∧ d.2.2.1 ≤ 12) && d.2.1 % 64 == 0)

/-- The owner check of a slot-table entry (03 R68): the selector names a partition, a REPAIR entry names the same one, and
no other partition owns the entry in either bank. -/
def State.slotOwnerOk (s : State) (k inst v : Nat) : Bool :=
  let own := s.selector k 0x182005 inst
  let place := s.placeOf k 0x182003 inst 0 0
  let taken (o : Nat) : Bool := o != 0 && o != own + 1
  v == 0 || (own != 0xFFFF && (bitsAt v 14 2 != 2 || v % 1024 == own) &&
    !taken (s.wordAt (place + 1)) && !s.allStaged.any (fun x => x.key == place + 1 && taken x.value.toNat))

/-- Check 6 of R250: the object's own rule. -/
def State.ownRule (s : State) (k : Nat) (o : Obj) (inst row v : Nat) : Bool :=
  match o.id with
  | 0x182003 => s.slotOwnerOk k inst v
  | 0x182004 => s.slotOwnerOk k inst v
  | 0x041102 => decide (s.val 0x041101 + 5 ≤ v)
  | 0x041104 => decide (v < s.val 0x041103)
  | 0x080201 => v == 0xFFFF || (s.part v).st != .free
  | 0x802001 => match domainOf (unitOfInst inst) with
    | some d => s.domainMay d v
    | none => false
  | 0x300502 => v.testBit 31 || kindClass (v % 1024) != 2
  | 0x302001 =>
    let kind := bitsAt v 22 10
    (kindClass kind != 2 || s.val 0x302201 == 1) &&
      (!v.testBit 21 || kindClass kind == 2 || ([0x001, 0x002, 0x020, 0x021, 0x040, 0x041].contains kind &&
        !(inst / 8192 == 5 && bitsAt v 8 8 == 2)))
  | 0x302101 =>
    let kind := bitsAt v 22 10
    (kindClass kind != 2 || s.val 0x302201 == 1) &&
      (!v.testBit 21 || kindClass kind == 2 || [0x001, 0x002].contains kind)
  | 0x400001 => (List.range 32).all (fun i => !v.testBit i || s.ringOn i || s.ringsFit i) && s.newRingsApart v
  | 0x401001 => row == 1 || s.fw.attachWord.isSome
  | 0x386003 => s.val 0x386002 != 0 || (s.ringRanges 4096).all (fun r => !meets v (s.val 0x386004) r.1 r.2)
  | _ => true

/-! ## The checks in order (R250) -/

/-- What the checks of a write entry decide: its outcome, the value applied or staged, and the fields to log. -/
structure Checked where
  outcome : Nat
  value : Nat
  /-- field number, outcome, requested, applied -/
  logs : List (Nat × Nat × Nat × Nat)
deriving DecidableEq, Repr

/-- A refusal. -/
def refusal (outcome v : Nat) : Checked := { outcome := outcome, value := 0, logs := [(0, outcome, v, 0)] }

/-- Whether another session has staged the object, instance and row of an entry (R250, check 3). Entries behind a selector
count by the entry selected (log entry 20). -/
def State.stagedElsewhere (s : State) (k key : Nat) : Bool :=
  s.allStaged.any (fun x => x.sess != k && x.key / 16 == key / 16)

/-- The checks of R250 on one write entry. -/
def State.checkWrite (s : State) (w : Who) (path : Path) (e : DictEntry) : Checked :=
  let v := e.value.toNat
  match s.locate e with
  | .inr c => refusal c v
  | .inl o =>
    let inst := e.inst.toNat; let row := e.row.toNat; let word := e.word.toNat
    let c2 := s.mayWrite w path o inst row
    if c2 ≠ 0 then refusal c2 v
    else if s.stagedElsewhere w.key (s.placeOf w.key o.id inst row word) then refusal 0x13 v
    else if !s.statePermits o inst row v then refusal 0x15 v
    else match s.rangeOf o inst row word v with
      | .refused c => refusal c v
      | .fit x =>
        if !s.ownRule w.key o inst row x then refusal 0x14 v
        else if o.id = 0x182004 then { outcome := 3, value := x, logs := [(0, 3, v, x)] }
        else { outcome := 0, value := x, logs := [] }
      | .clamped x fs =>
        if !s.ownRule w.key o inst row x then refusal 0x14 v
        else { outcome := (fs.map (·.2.1)).headD 1, value := x, logs := fs }

/-- Put one entry into the clamp log of 256 (R252). -/
def State.clampPut (s : State) (e : DictEntry) (num : Nat) (f : Nat × Nat × Nat × Nat) : State :=
  let c := s.ctl
  { s with ctl := { c with
      clampLog := c.clampLog.put c.clampPos (clampEntry s.time e num f.2.1 f.1 f.2.2.1 f.2.2.2)
      clampPos := (c.clampPos + 1) % 256
      clampWrapped := c.clampWrapped || (c.clampLog.find c.clampPos).isSome } }

/-- The clamp-log entries of a checked write. -/
def State.logChecked (s : State) (e : DictEntry) (num : Nat) (c : Checked) : State :=
  c.logs.foldl (fun s f => s.clampPut e num f) s

/-- The entry of the response (R253). -/
def answered (e : DictEntry) (c : Checked) : DictEntry :=
  { e with outcome := BitVec.ofNat 8 c.outcome, value := BitVec.ofNat 64 c.value }

/-- When an accepted write of an object takes effect. -/
def State.takesAtOnce (s : State) (o : Obj) : Bool :=
  o.takes == .immediate || (o.takes == .grand && s.mach.st == .free)

/-- Carry out an accepted write: a selector of the session, a staged write with the ownership of a slot entry beside it
(03 R68), or at once by `now`, the effect of an immediate object. -/
def State.carryOut (s : State) (w : Who) (o : Obj) (inst row word v : Nat) (now : State → State) : State :=
  if o.takes = .selector then s.setSelector w.key o.id inst v
  else if s.takesAtOnce o then now s
  else if (o.range == .one) && v == 0 then s
  else
    let key := s.placeOf w.key o.id inst row word
    let s := s.stage w.key key v
    if o.id = 0x182003 ∨ o.id = 0x182004 then
      s.stage w.key (key + 1) (if v = 0 then 0 else s.selector w.key 0x182005 inst + 1)
    else if o.id = 0x440008 then { s with fw := { s.fw with status := 4 } }
    else s

/-- Whether an access that names an instance meets a unit whose domain sleeps or passes into or out of sleep (10 R280). The
domain objects are K0's own and answer all the same. -/
def State.targetAsleep (s : State) (id inst : Nat) : Bool :=
  inst / 8192 != 0 && !decide (0x802000 ≤ id ∧ id < 0x803000) && s.asleep (unitOfInst inst)

/-- The checks of a write entry, and the end of an immediate write of a sleeping unit (10 R280). -/
def State.checkEntry (s : State) (w : Who) (path : Path) (e : DictEntry) : Checked :=
  let c := s.checkWrite w path e
  match s.locate e with
  | .inl o =>
    if c.outcome < 0x10 ∧ o.takes ≠ .selector ∧ s.takesAtOnce o ∧ s.targetAsleep o.id e.inst.toNat then refusal 0x19 e.value.toNat else c
  | .inr _ => c

/-- One write entry: checked, logged, carried out; the response entry with it. `now` gives the effect of an immediate
object for the value applied. -/
def State.writeEntry (s : State) (w : Who) (path : Path) (e : DictEntry) (now : Obj → Nat → State → State) : State × DictEntry :=
  let c := s.checkEntry w path e
  let s := s.logChecked e w.num c
  let r := answered e c
  if 0x10 ≤ c.outcome then (s, r)
  else match s.locate e with
    | .inl o => (s.carryOut w o e.inst.toNat e.row.toNat e.word.toNat c.value (now o c.value), r)
    | .inr _ => (s, r)

/-! ## Commands that are writes of one object -/

/-- The configuration of a channel (0x4020:01). -/
def State.chanCfg (s : State) (ch : Nat) : Nat := s.word 0x402001 0 ch 0

/-- Whether a channel is enabled. -/
def State.chanOn (s : State) (ch : Nat) : Bool := (s.chanCfg ch).testBit 63

/-- Whether a channel's peer is an identity. -/
def State.chanPlain (s : State) (ch : Nat) : Bool := (s.chanCfg ch).testBit 50

/-- Whether K0 takes messages of a path now: of an enabled ring set (12 R323) or channel (12 R330), and of none while the
keepers change over (12 R320). -/
def State.hears (s : State) (path : Path) : Bool :=
  decide (2 ≤ s.boot.progress) && s.fw.changing.isNone && (match path with
    | .host i => s.ringOn i
    | .lodge ch => s.chanOn ch && !s.chanPlain ch
    | _ => true)

/-- A dictionary entry that writes a word. -/
def writeOf (id inst row word : Nat) (v : BitVec 64) : DictEntry :=
  { idx := BitVec.ofNat 16 (id / 256), sub := BitVec.ofNat 8 id, inst := BitVec.ofNat 16 inst, row := BitVec.ofNat 12 row
    word := BitVec.ofNat 4 word, outcome := 0, value := v }

/-- A command that is a write of one object over a session: the checks of R250, the effect, and the response. -/
def State.ownWrite (s : State) (path : Path) (sess : Nat) (id inst row word : Nat) (v : BitVec 64) (now : Nat → State → State) : State :=
  let e := writeOf id inst row word v
  let w := s.who path sess
  if !s.hears path then s
  else match w.1 with
  | none => w.2.emit (.dictResp path (msgHeader 2 0 sess 2 0) [] 0)
  | some x =>
    let r := w.2.writeEntry x path e (fun _ v s => now v s)
    r.1.emit (.dictResp path (msgHeader 2 0 sess (if r.2.outcome = 0#8 then 0 else 1) 1) [r.2] 0)

end Sys2Proof.Machine
end

