-- ==== Sys2Proof/Machine/Commit.lean ====
section
/-!
DEFINITION. Commits (09 R256 to R261): the cross-object checks of R257 with the rules that the other chapters state for
them, the placement of an epoch, the queue of accepted commits, and the link messages that carry a commit between chips
(08 R219 to R222).
-/
namespace Sys2Proof.Machine

/-! ## Link messages (08 R220 to R222) -/

/-- The pavilions that carry link messages: those in UP and UP_UNMAPPED. -/
def State.linked (s : State) : List Nat :=
  (List.range 16).filter (fun p => (s.pav p).st == .up || (s.pav p).st == .upUnmapped)

/-- A long message: type, the sender's sequence, and the fields below it. -/
def longMessage (type : Nat) (seq : BitVec 8) (fields : Nat) : BitVec 256 :=
  BitVec.ofNat 256 (type % 256 * 2 ^ 248 + seq.toNat * 2 ^ 240 + fields % 2 ^ 240)

/-- Queue a long message at a pavilion. -/
def State.sendLong (s : State) (p type fields : Nat) : State :=
  s.onPav p (fun x => { x with longQ := x.longQ ++ [longMessage type x.seqNo fields], seqNo := x.seqNo + 1 })

/-- Queue a short message at a pavilion; a HOLD_NOTICE that finds another waiting is counted as deferred (08 R221). -/
def State.sendShort (s : State) (p : Nat) (m : BitVec 32) : State :=
  let hold (x : BitVec 32) : Bool := x.toNat / 2 ^ 28 == 1
  let s := if hold m && (s.pav p).shortQ.any hold then s.bump 0x281203 (5 * 8192 + p) 0 0 16 16 1 else s
  s.onPav p (fun x => { x with shortQ := x.shortQ ++ [m] })

/-- Flood a long message through every linked pavilion but the one it came by (08 R222); no commit record goes towards a lost chip
(08 R238). -/
def State.flood (s : State) (but : Option Nat) (type fields : Nat) : State :=
  let gone (p : Nat) : Bool := type == 3 && (match (s.pav p).peerChip with
    | some c => s.mach.lost.contains c
    | none => false)
  (s.linked.filter (fun p => some p != but && !gone p)).foldl (fun s p => s.sendLong p type fields) s

/-- Fields of a COMMIT_RECORD (R260; 08 R220): kind 0 PREPARE, 1 CONFIRM, 2 CANCEL. -/
def commitRecord (origin : Nat) (seq : BitVec 16) (kind time sess scope part : Nat) : Nat :=
  origin % 4096 * 2 ^ 228 + seq.toNat * 2 ^ 212 + kind % 4 * 2 ^ 210 + time % 2 ^ 64 * 2 ^ 146 + sess % 64 * 2 ^ 140 +
    scope % 4 * 2 ^ 138 + part % 1024 * 2 ^ 128

/-! ## What a set of writes means -/

/-- Whether a write changes scheduled state (03 R62): slot and cell tables, stream descriptors, a plan start or stop, a
rate, the removal of a partition. Word 1 of a slot entry is its owner; the row of 0x0802:04 stands for the removal of its
partition. -/
def changesSched (k : Nat) : Bool :=
  ([0x182003, 0x183002, 0x183003, 0x800103, 0x800104, 0x180101, 0x181004, 0x181005, 0x080204] : List Nat).contains (keyId k)

/-- Whether some write of a list changes scheduled state. -/
def anySched (ws : List StagedWrite) : Bool := ws.any (fun w => changesSched w.key)

/-- The partitions whose running plan a set of writes stops or swaps (03 R91): a new active plan or a plan stop. -/
def State.stopping (s : State) (ws : List StagedWrite) : List Nat :=
  ((ws.filter (fun w => (keyId w.key == 0x180101 || keyId w.key == 0x181004) && (s.part (keyRow w.key)).run)).map
    (fun w => keyRow w.key)).dedup

/-- Slots before the epoch in which a stopping partition sends nothing (03 R91): A frames of P slots, twice that at half
rate. -/
def State.closing (s : State) (p : Nat) : Nat :=
  let x := s.part p
  (if x.rate = 2 ∨ x.rate = 3 then 2 else 1) * x.ackLag * x.frameLen

/-- The longest such time of some partitions. -/
def State.stopLag (s : State) (ps : List Nat) : Nat := ps.foldl (fun a p => max a (s.closing p)) 0

/-- The partitions that a set of writes admits (10 R272): those given a landing, those of a landing whose fence clears,
and those enabled on a pavilion. -/
def State.admitted (s : State) (ws : List StagedWrite) : List Nat :=
  (ws.flatMap (fun w =>
    let v := w.value.toNat; let old := s.wordAt w.key
    match keyId w.key with
    | 0x080001 => if v < 512 ∧ v ≠ old then [v] else []
    | 0x080002 => ((List.range 64).filter (fun i => old.testBit i && !v.testBit i)).map
        (fun i => s.partOf (64 * keyWord w.key + i))
    | 0x281101 => ((List.range 64).filter (fun i => v.testBit i && !old.testBit i)).map (fun i => 64 * keyWord w.key + i)
    | _ => [])).dedup.filter (fun p => p < 512)

/-- Whether a set of writes is a routing change (04 R113). -/
def State.reroutes (s : State) (ws : List StagedWrite) : Bool :=
  ws.any (fun w => (keyId w.key == 0x101001 || keyId w.key == 0x101003 || keyId w.key == 0x101101) && w.value.toNat != s.wordAt w.key)

/-- The partitions that a commit must drain (04 R113; 10 R272): every tenant partition for a routing change, else those it
admits. -/
def State.drainFor (s : State) (ws : List StagedWrite) : List Nat :=
  if s.reroutes ws then ((List.range 512).filter (fun p => (s.part p).st != .free)) else s.admitted ws

/-- The state whose committed view is the one that a set of writes would produce (R257). -/
def State.after (s : State) (ws : List StagedWrite) : State :=
  ws.foldl (fun s w => s.setWord (keyId w.key) (keyInst w.key) (keyRow w.key) (keyWord w.key) w.value.toNat) s

/-! ## The checks of R257 -/

/-- The chip map against the axis sizes (04 R103): coordinates below them, no two present chips at one place. -/
def State.chipMapOk (s : State) : Bool :=
  let present := (List.range 1024).filter s.chipPresent
  present.all (fun c => (List.range 4).all (fun a => decide (s.coord c a < s.axisSize a))) &&
    decide ((present.map (fun c => (s.word 0x101001 0 c 0) % 2 ^ 14)).Nodup)

/-- Whether some replication table holds a group for a partition (07 R179, R199). -/
def State.groupHeld (s : State) (group part : Nat) : Bool :=
  s.dict.any (fun x => keyId x.1 == 0x220002 && keyWord x.1 == 2 &&
    x.2.toNat / 2 ^ 33 == (2 ^ 63 + part * 2 ^ 53 + group * 2 ^ 33) / 2 ^ 33)

/-- Bytes of the work range of a descriptor (07 R178). -/
def State.workBytes (s : State) (h : Nat) : Nat :=
  let d := s.desc h
  let n := vectorBytes d (dCount d)
  let k := if dChunks d = 0 then (s.thresholds h).chunks else dChunks d
  let c := chipCount d
  n + k * 4096 * (if dOp d = 0 then exactUnits (dFmt d) else 1) + (if dOp d = 9 ∧ c > 1 then c * n else 0)

/-- The rules of 07 R176, R178 and R179 on the descriptor of a handle that a partition owns. -/
def State.collOk (s : State) (h : Nat) : Bool :=
  let d := s.desc h
  let part := s.handleOwner h
  let axes := dAxes d
  let n := vectorBytes d (dCount d)
  !s.holdsDesc h || (
    d / 2 ^ 500 == h && validPair (dOp d) (bitsAt d 492 4) &&
    decide (dCount d * dElem d ≤ 786432) && !(dDyn d && (dOp d == 7 || dOp d == 8)) &&
    dIn d % 64 == 0 && dOut d % 64 == 0 && dWork d % 64 == 0 &&
    decide (dIn d + n ≤ 0xC0000) && decide (dOut d + n ≤ 0xC0000) && decide (dWork d + s.workBytes h ≤ 0xC0000) &&
    (members d).all (fun l => decide (l < 2048) && s.partOf l == part) &&
    decide (dExp d ≤ 11) && decide (dAxisCount d ≤ 4) && decide (dChunks d ≤ 64) && decide (axes.Nodup) &&
    (List.range 4).all (fun i => decide (i < dAxisCount d) || bitsAt d (301 - 2 * i) 2 == 0) &&
    axes.all (fun a => decide (2 ≤ dExtent d a ∧ dExtent d a ≤ s.axisSize a)) &&
    (List.range 4).all (fun a => decide (dStart d a < s.axisSize a)) &&
    (s.groupChips d).length == chipCount d &&
    s.groupHeld (dMemGroup d) part && s.groupHeld (dChipGroup d) part &&
    (if chipCount d = 1 then dRootGroup d == 0xFFFFF else s.groupHeld (dRootGroup d) part))

/-- Whether a set of writes bears on collective descriptors. -/
def touchesColls (ws : List StagedWrite) : Bool :=
  ws.any (fun w => ([0x210001, 0x210002, 0x210101, 0x220002, 0x080001, 0x101001, 0x101003] : List Nat).contains (keyId w.key))

/-- A plan that the writes of a commit start, if any: the accepted or staged image whose activation they hold. -/
def State.planOf (s : State) (p : Nat) : Option PlanInfo :=
  match s.plan.accepted.find? (fun i => i.part == p) with
  | some i => some i
  | none => match s.plan.staged with
    | some i => if i.part = p then some i else none
    | none => none

/-- The D in force of a pavilion (08 R230). -/
def State.latencyD (s : State) (p : Nat) : Nat := s.word 0x183004 (5 * 8192 + p) 0 0

/-- Pavilion hops between two chips by the minimal routes of 04 R103. -/
def State.hopsBetween (s : State) (c d : Nat) : Nat :=
  ((List.range 4).map (fun a => (axisRoute (s.axisSize a) (s.coord c a) (s.coord d a)).1)).sum

/-- Pavilion hops of the longest flood path from some chips to others. -/
def State.floodHops (s : State) (as bs : List Nat) : Nat :=
  as.foldl (fun m c => bs.foldl (fun m d => Nat.max m (s.hopsBetween c d)) m) 0

/-- The sum of D over `h` pavilion hops. The D of other chips' pavilions are theirs, and this chip does not hold them: within the
range of D the sum is free (log entry 21). -/
def State.pathDelay (s : State) (h : Nat) : Nat × State :=
  if h = 0 then (0, s)
  else
    let r := s.fresh 26
    (5 * h + r.1.toNat % (65530 * h + 1), r.2)

/-- The hold bound B of 03 R77 over the chips of a partition. -/
def State.holdBound (s : State) (chips : List Nat) : Nat × State :=
  let h := s.floodHops chips chips
  let x := s.pathDelay h
  (96 * (h + 1) + 16 * h + x.1, x.2)

/-- A slot entry that a partition may not take, as another owns it in either bank (03 R68): the owner words among some writes, against
the active bank and what is staged. -/
def State.slotClash (s : State) (part : Nat) (ws : List (Nat × BitVec 64)) : Option (Nat × BitVec 64) :=
  ws.find? (fun w => keyId w.1 == 0x182003 && keyWord w.1 == 1 && w.2 != 0#64 &&
    ((let o := s.wordAt w.1; o != 0 && o != part + 1) ||
      s.allStaged.any (fun z => z.key == w.1 && z.value != 0#64 && z.value.toNat != part + 1)))

/-- Checks 6, 8 and 11 of 03 R90 made again at activation: the hold lead, the latencies and the owners against the state before the
commit, the collective descriptors in the state `v` that it would leave. -/
def State.planFits (s v : State) (i : PlanInfo) : Bool × State :=
  let b := s.holdBound i.binding
  (decide (1 + (b.1 + i.frameLen - 1) / i.frameLen ≤ i.holdLead) && i.latencies.all (fun d => s.latencyD d.1 == d.2) &&
    (s.slotClash i.part i.writes).isNone && i.handles.all v.collOk, b.2)

/-- The first object that fails R257 for a set of writes: index times 256 plus sub-index; none when every check passes. -/
def State.commitFails (s : State) (ws : List StagedWrite) : Option Nat × State :=
  let v := s.after ws
  let starts := (ws.filter (fun w => keyId w.key == 0x180101)).map (fun w => keyRow w.key)
  let gives := ws.any (fun w => keyId w.key == 0x080001 && decide (w.value.toNat < 512) && w.value.toNat != s.wordAt w.key)
  if s.fw.st = .hostless ∧ (!starts.isEmpty ∨ gives) then (some 0x440101, s)
  else if ws.any (fun w => keyId w.key == 0x101001 || keyId w.key == 0x101003) ∧ !v.chipMapOk then (some 0x101001, s)
  else if touchesColls ws ∧ !(List.range 4096).all v.collOk then (some 0x210001, s)
  else if 393216 < (v.dict.filter (fun x => !(keyId x.1 == 0x182003 && keyWord x.1 == 1))).length then (some 0x440201, s)
  else
    starts.foldl (fun (r : Option Nat × State) p =>
      match r.1 with
      | some _ => r
      | none => match s.planOf p with
        | none => r
        | some i =>
          let f := r.2.planFits v i
          (if f.1 then none else some 0x180101, { r.2 with free := f.2.free })) (none, s)

/-! ## Placement (R256, R258) -/

/-- The least multiple of `m` that is no less than `n`. -/
def roundUp (n m : Nat) : Nat := (n + m - 1) / m * m

/-- The earliest epoch of a commit by R256 behind an epoch at `prev`: `accepted` is its acceptance, `lead` the commit lead. -/
def State.earliest (s : State) (a : CommitAsk) (prev : Option Nat) (accepted lead : Nat) : Nat :=
  let e := max (accepted + lead + s.stopLag (s.stopping a.writes)) a.time
  let e := match prev with
    | some p => max e (p + 128000)
    | none => e
  if anySched a.writes then roundUp e 8192 else e

/-- Whether a commit joins the pending epoch (R258). -/
def State.joins (s : State) (a : CommitAsk) (p : Epoch) (accepted lead : Nat) : Bool :=
  decide (a.time ≤ p.time) && decide (accepted + lead + s.stopLag (s.stopping a.writes) ≤ p.time) &&
    (!anySched a.writes || p.time % 8192 == 0) && p.scope == a.scope && (a.scope != 1 || p.part == a.part)

/-- The epoch that a commit makes. -/
def epochOf (a : CommitAsk) (e : Nat) : Epoch :=
  { time := e, scope := a.scope, part := a.part, sessions := [a.num], writes := a.writes, sched := anySched a.writes }

/-- Put an epoch among the pending one and the queue, in order of time. -/
def State.insertEpoch (s : State) (e : Epoch) : State :=
  let all := s.ctl.pending.toList ++ s.ctl.queue
  let es := all.filter (fun x => x.time ≤ e.time) ++ [e] ++ all.filter (fun x => e.time < x.time)
  { s with ctl := { s.ctl with pending := es.head?, queue := es.tail } }

/-- What acceptance does beside placing the epoch: the session's staged writes are the commit's, a staged plan of the
session becomes an accepted one (03 R90), and the partitions that stop send no first sending from A frames before E (03
R91). -/
def State.accepted (s : State) (a : CommitAsk) (e : Nat) : State :=
  let mine := s.plan.staged.isSome && s.plan.sess == a.sess && !a.own
  let ctl := { s.ctl with staged := s.ctl.staged.filter (fun x => !a.writes.contains x) }
  let plan := if mine then { s.plan with accepted := s.plan.accepted ++ s.plan.staged.toList, staged := none } else s.plan
  let stops := s.stopping a.writes
  let lags := stops.map (fun p => (p, s.closing p))
  lags.foldl (fun s x => s.onPart x.1 (fun q => { q with stopFrom := some (e - x.2), stopAt := some e }))
    { s with ctl := ctl, plan := plan }

/-- Place a commit: it joins the pending epoch, becomes it, or is queued behind it; none when the queue of 8 is full
(R256, R258). -/
def State.place (s : State) (a : CommitAsk) (accepted lead : Nat) : Option Nat × State :=
  match s.ctl.pending with
  | none =>
    let e := s.earliest a s.ctl.lastEpoch accepted lead
    (some e, (s.accepted a e).insertEpoch (epochOf a e))
  | some p =>
    if s.joins a p accepted lead then
      let s' := s.accepted a p.time
      let p' := { p with sessions := p.sessions ++ [a.num], writes := p.writes ++ a.writes, sched := p.sched || anySched a.writes }
      (some p.time, { s' with ctl := { s'.ctl with pending := some p' } })
    else if s.ctl.queue.length < 8 then
      let prev := match s.ctl.queue.getLast? with
        | some q => q.time
        | none => p.time
      let e := s.earliest a (some prev) accepted lead
      (some e, (s.accepted a e).insertEpoch (epochOf a e))
    else (none, s)

/-- The number that this chip's epoch at `e` takes. -/
def State.numberAt (s : State) (e : Nat) : Nat :=
  s.ctl.epoch.toNat + ((s.ctl.pending.toList ++ s.ctl.queue).filter (fun x => x.time ≤ e)).length

/-- The 64 bytes of a completion entry (12 R324). -/
def completionEntry (hdr : BitVec 32) (arr time : Nat) (es : List DictEntry) (body : BitVec 256) : Nat :=
  let inl := if hdr.toNat / 2 ^ 28 = 4 then body.toNat
    else if arr ≠ 0 then 0
    else (es.take 3).zipIdx.foldl (fun a (x : DictEntry × Nat) => a + (packEntry x.1).toNat * 2 ^ (128 * x.2)) 0
  hdr.toNat + arr % 2 ^ 32 * 2 ^ 32 + time % 2 ^ 32 * 2 ^ 64 + inl * 2 ^ 128

/-- The words of a response on a lodge channel (12 R330). -/
def responseWords (hdr : BitVec 32) (es : List DictEntry) (body : BitVec 256) : List (BitVec 32) :=
  let split (n v : Nat) : List (BitVec 32) := (List.range n).map (fun i => BitVec.ofNat 32 (v / 2 ^ (32 * i)))
  hdr :: (if hdr.toNat / 2 ^ 28 = 4 then split 8 body.toNat else es.flatMap (fun e => split 4 (packEntry e).toNat))

/-- The inline payload and the data units of a response on the fabric (R243). -/
def responseData (hdr : BitVec 32) (es : List DictEntry) (body : BitVec 256) : BitVec 256 × List Payload :=
  let join (xs : List DictEntry) : Nat := xs.zipIdx.foldl (fun a (x : DictEntry × Nat) => a + (packEntry x.1).toNat * 2 ^ (128 * x.2)) 0
  if hdr.toNat / 2 ^ 28 = 4 then (body, [])
  else if es.length ≤ 2 then (BitVec.ofNat 256 (join es), [])
  else (0, (List.range ((es.length + 3) / 4)).map (fun i => BitVec.ofNat 512 (join ((es.drop (4 * i)).take 4))))

/-- The ack code of an answered lodge message (12 R330): a sleeping unit, a firmware state that does not serve, a right not
held, or done. -/
def State.ackFor (s : State) (hdr : BitVec 32) (es : List DictEntry) : BitVec 16 :=
  let id (e : DictEntry) : Nat := e.idx.toNat * 256 + e.sub.toNat
  if es.any (fun e => s.targetAsleep (id e) e.inst.toNat) then 0x0012
  else if es.any (fun e => e.outcome == 0x15#8 && !s.fwAdmits (id e) true) then 0x0013
  else if bitsAt hdr.toNat 8 4 = 3 ∨ es.any (fun e => e.outcome == 0x12#8) then 0x0011
  else 0x0002

/-- Answer a dictionary message by the way that its request came (R239, R243; 12 R324, R330). -/
def State.respond (s : State) (c : Carrier) (path : Path) (hdr : BitVec 32) (es : List DictEntry) (body : BitVec 256) : State :=
  match c with
  | .direct => s.emit (.dictResp path hdr es body)
  | .ring set arr =>
    let s := if arr = 0 then s else s.sramSet arr (es.flatMap (fun e => bytesOf 16 (packEntry e).toNat))
    let s := { s with lodge := { s.lodge with busy := s.lodge.busy.filter (fun x => x != set) } }
    if s.ringOn set then s.ringPut set 1 64 (completionEntry hdr arr s.time es body) else s
  | .chan ch =>
    let put (x : Chan) : Chan :=
      { x with outq := x.outq ++ (responseWords hdr es body).map (fun w => (w, 0x8803#16)), ackOwner := s.ackFor hdr es }
    { s with lodge := { s.lodge with
        busy := s.lodge.busy.filter (fun x => x != 32 + ch), chans := s.lodge.chans.modify {} ch put } }
  | .fabric ep h =>
    let d := responseData hdr es body
    s.makeFrom (epUnit ep) { answerHeader 0x31 4 h (s.addrOf ep) hdr d.1 with length := BitVec.ofNat 7 d.2.length } d.2

/-- Answer a COMMIT (R245, R246). -/
def State.commitAnswered (s : State) (a : CommitAsk) (status e fail : Nat) : State :=
  s.respond a.carrier a.path (msgHeader 4 a.req a.num status 0) []
    (if status = 0 then commitAnswer e (s.numberAt e) 0 0 else commitAnswer 0 0 (fail / 256) fail)

/-- Whether an epoch at `e` falls within 128,000 slots of the epoch that a held PREPARE reserves (R259). -/
def State.nearPrepare (s : State) (e : Nat) : Bool :=
  s.ctl.prepares.any (fun p => decide (e < p.time + 128000 ∧ p.time < e + 128000))

/-! ## Across chips (R259) -/

/-- The other chips of a scope: those that a partition's running or staged plan binds, or those of the machine, that are not
lost. -/
def State.scopeChips (s : State) (scope part : Nat) : List Nat :=
  let plan := match s.planOf part with
    | some i => i.binding
    | none => []
  let all := if scope = 1 then ((s.part part).binding ++ plan).dedup else (List.range 1024).filter s.chipPresent
  all.filter (fun c => c != s.chipNo && !s.mach.lost.contains c)

/-- The epoch that the next one follows: the last of the queue, the pending one, or the last one taken. -/
def State.lastPlanned (s : State) : Option Nat :=
  match (s.ctl.pending.toList ++ s.ctl.queue).getLast? with
  | some q => some q.time
  | none => s.ctl.lastEpoch

/-- Reserve an epoch and flood its PREPARE (R259 step 1). -/
def State.prepareAt (s : State) (a : CommitAsk) (e flood attempt : Nat) : State :=
  let q := s.ctl.commitSeq
  let x : CrossCommit := { ask := a, time := e, flood := flood, attempt := attempt, answers := [], ruleFailed := false, seq := q }
  let held : Prepare :=
    { origin := s.chipNo, seq := q, time := e, sess := a.sess, scope := a.scope, part := a.part, confirmed := false }
  let s := { s with ctl := { s.ctl with commitSeq := q + 1, cross := some x, prepares := s.ctl.prepares ++ [held] } }
  s.flood none 0x03 (commitRecord s.chipNo q 0 e a.num a.scope a.part)

/-- F of R259: the sum of D + 176 over the longest flood path from this chip to a chip of the scope; and the cross-chip lead Lx. -/
def State.crossLead (s : State) (a : CommitAsk) : (Nat × Nat) × State :=
  let h := s.floodHops [s.chipNo] (s.scopeChips a.scope a.part)
  let x := s.pathDelay h
  let f := 176 * h + x.1
  ((f, max (s.val 0x00000A) (8000 + 3 * f)), x.2)

/-- Begin a cross-chip commit on its home chip. What the session has staged on the other chips may change scheduled state, and this
chip does not hold it: every cross-chip epoch is placed on the grid of 03 R62 (DESIGN CHOICE, log entry 135). One cross-chip commit
runs at a time; another waits. -/
def State.startCross (s : State) (a : CommitAsk) : State :=
  if s.ctl.cross.isSome then { s with ctl := { s.ctl with waiting := s.ctl.waiting ++ [a] } }
  else
    let f := s.crossLead a
    f.2.prepareAt a (roundUp (f.2.earliest a f.2.lastPlanned s.time f.1.2) 8192) f.1.1 1

/-- Wake a domain (10 R277, R278, R280): one in DOZE is ACTIVE, one in SLEEP is powered; a stair below a gallery that is not
ACTIVE waits for its gallery. -/
def State.wake (s : State) (d : Nat) : State :=
  let power (s : State) (d : Nat) : State :=
    if (s.dom d).st = .sleep ∧ !(s.dom d).failed then
      s.onDom d (fun x => { x with st := .waking, target := 0, since := s.time, poweredAt := s.time, attempts := 0, matched := [] })
    else s
  match (s.dom d).st with
  | .doze => s.onDom d (fun x => { x with st := .active, since := s.time })
  | .sleep =>
    if d < 128 then
      match (s.dom (128 + d / 16)).st with
      | .active => power s d
      | .doze => power (s.onDom (128 + d / 16) (fun x => { x with st := .active, since := s.time })) d
      | _ => (power s (128 + d / 16)).onDom d (fun x => { x with target := 0 })
    else power s d
  | _ => s.onDom d (fun x => { x with target := 0 })

/-- The domains that a commit needs awake: those of the landings of the plans it starts, and of the units whose slot tables it fills (10
R269, R277, R280). -/
def State.domainsFor (s : State) (ws : List StagedWrite) : List Nat :=
  let plans := (ws.filter (fun w => keyId w.key == 0x180101)).flatMap (fun w => match s.planOf (keyRow w.key) with
    | some i => i.landings.map stairOf
    | none => [])
  let tables := (ws.filter (fun w => keyId w.key == 0x182003 && w.value != 0#64)).filterMap (fun w => domainOf (unitOfInst (keyInst w.key)))
  (plans ++ tables).dedup.filter (fun d => (s.dom d).st != .active && !(s.dom d).failed)

/-- A commit with those of its writes that its session has not discarded or replaced meanwhile (R242). -/
def State.still (s : State) (a : CommitAsk) : CommitAsk :=
  if a.own then a else { a with writes := a.writes.filter (fun x => s.ctl.staged.contains x) }

/-- Accept a commit now and answer it. One of a session that finds the queue full is answered with status 4, one of K0's own
is kept; one whose epoch would fall near a reserved one waits, and so does one whose plan needs a domain that still wakes
(R258, R259; 10 R269). -/
def State.settle (s : State) (a : CommitAsk) (lead : Nat) : State :=
  let a := s.still a
  let s := (s.domainsFor a.writes).foldl (fun s d => s.wake d) s
  if !(s.domainsFor a.writes).isEmpty then { s with ctl := { s.ctl with waiting := s.ctl.waiting ++ [a] } } else
  if a.scope ≠ 0 ∧ !(s.scopeChips a.scope a.part).isEmpty then s.startCross a else
  let r := s.place a s.time lead
  match r.1 with
  | none => if a.own then { s with ctl := { s.ctl with kept := s.ctl.kept ++ [a] } } else s.commitAnswered a 4 0 0
  | some e =>
    if s.nearPrepare e then { s with ctl := { s.ctl with waiting := s.ctl.waiting ++ [a] } }
    else if a.own then r.2 else r.2.commitAnswered a 0 e 0

/-- A commit of K0's own on this chip (R258). -/
def State.ownCommit (s : State) (ws : List StagedWrite) : State :=
  s.settle { path := .keeper, req := 0, sess := 0, num := 0, time := 0, scope := 0, part := 0, writes := ws, own := true } 4000

/-- A commit of K0's own that every chip of the machine takes (03 R80). -/
def State.ownCrossCommit (s : State) (ws : List StagedWrite) : State :=
  s.settle { path := .keeper, req := 0, sess := 0, num := 0, time := 0, scope := 2, part := 0, writes := ws, own := true } 4000

/-- A staged write of K0's own. -/
def ownStaged (id inst row word v : Nat) : StagedWrite := { sess := 0, key := dkey id inst row word, value := BitVec.ofNat 64 v }

/-- Make again the commits that K0 keeps (R258). -/
def State.retryKept (s : State) : State :=
  let ks := s.ctl.kept
  ks.foldl (fun s a => s.settle a 4000) { s with ctl := { s.ctl with kept := [] } }

/-- Place the commits that waited for a cross-chip decision or for a domain to rejoin (R259; 10 R269). -/
def State.settleWaiting (s : State) : State :=
  let ws := s.ctl.waiting
  ws.foldl (fun s a => s.settle a 4000) { s with ctl := { s.ctl with waiting := [] } }

/-! ## The records of another chip's commit (R259, R260) -/

/-- The fields of a COMMIT_RECORD (R260; 08 R220). -/
structure Record where
  origin : Nat
  seq : BitVec 16
  time : Nat
  sess : Nat
  scope : Nat
  part : Nat
deriving DecidableEq, Repr

/-- Read a COMMIT_RECORD. -/
def recordOf (m : BitVec 256) : Record :=
  let v := m.toNat
  { origin := bitsAt v 228 12, seq := BitVec.ofNat 16 (bitsAt v 212 16), time := bitsAt v 146 64, sess := bitsAt v 140 6
    scope := bitsAt v 138 2, part := bitsAt v 128 10 }

/-- The key of the writes that a session of another chip holds here (R242). -/
def Record.key (r : Record) : Nat := sessKey (.remote r.origin) r.sess

/-- The writes that a record's session has staged here. -/
def State.writesOf (s : State) (r : Record) : List StagedWrite := s.ctl.staged.filter (fun x => x.sess == r.key)

/-- The answer to a PREPARE: a SERVICE_RESP to the home K0 (log entry 35). -/
def State.answerPrepare (s : State) (r : Record) (status : Nat) : State :=
  let hdr := msgHeader 4 (BitVec.ofNat 8 r.seq.toNat) r.sess status 0
  let dst := BitVec.ofNat 24 (r.origin % 4096 * 4096 + 2051)
  s.makeFrom k0 (s.ownHeader 0x31 4 1023 (s.addrOf 2051) dst hdr (commitAnswer r.time (s.numberAt r.time + 1) 0 0)) []

end Sys2Proof.Machine
end

