-- ==== Sys2Proof/Machine/Cells.lean ====
section
/-!
DEFINITION. The link layer of a pavilion (08 R210 to R224): the superframe on the line, the cell that it fills and sends, the cell
that it receives, damaged cells, credits across the pavilion, and the messages of a cell's short and long places.
-/
namespace Sys2Proof.Machine

/-- The instance code of a pavilion (09 R244). -/
def pavInst (p : Nat) : Nat := 5 * 8192 + p

/-- Whether tenant traffic is carried on a pavilion (R231): both chips are in LOCKED or GRAND, and the pavilion is in UP. -/
def State.tenantOk (s : State) (p : Nat) : Bool :=
  (s.pav p).st == .up && (s.mach.st == .locked || s.mach.st == .grand) &&
    (match (s.pav p).announce with | some a => a.state == 2 || a.state == 4 | none => false)

/-- Units of a receive buffer of a ZVP-1 pavilion (R218). -/
def linkSize (b : Nat) : Nat := if b < 2 then 4 else if b < 7 then 256 else if b < 9 then 8 else 0

/-! ## The superframe (R210, R211) -/

/-- Twenty-eight more bits of the keystream of x^31 + x^28 + 1: each is the exclusive OR of the bits 31 and 28 places before it. The
last 31 bits stand in the window, the oldest highest. -/
def keyStep (a : Nat × Nat) : Nat × Nat :=
  let c := (a.1 / 8) ^^^ (a.1 % 2 ^ 28)
  ((a.1 * 2 ^ 28 + c) % 2 ^ 31, a.2 * 2 ^ 28 + c)

/-- The keystream of a superframe, its first bit highest: the register holds ones at the first bit, and what it feeds back is the
stream (log entry 133). -/
def lineKey : BitVec 25600 := BitVec.ofNat 25600 (((List.range 915).foldl (fun a _ => keyStep a) (2 ^ 31 - 1, 0)).2 / 2 ^ 20)

/-- Codeword `j` of a superframe of scrambled bits: twenty data blocks, each behind its header bit 1, and the parity. -/
def codewordOf (x : BitVec 25600) (j : Nat) : BitVec 5440 :=
  let d : BitVec 5140 := BitVec.ofNat 5140
    ((List.range 20).foldl (fun a i => a * 2 ^ 257 + 2 ^ 256 + bitsAt x.toNat (25600 - 256 * (20 * j + i + 1)) 256) 0)
  d ++ Config.fecParity d

/-- The bits of each lane for a superframe: symbol i of a codeword goes to lane i mod 8. -/
def laneBits (x : BitVec 25600) : List (BitVec 3400) :=
  let cs := (List.range 5).map (codewordOf x)
  (List.range 8).map (fun lane => BitVec.ofNat 3400 (cs.foldl (fun a c =>
    (List.range 68).foldl (fun a k => a * 1024 + bitsAt c.toNat (5440 - 10 * (8 * k + lane + 1)) 10) a) 0))

/-- A cell goes to the line: with the cell of even number before it, it makes a superframe (log entry 133). -/
def State.lineOut (s : State) (p cellNo : Nat) (bits : BitVec 12800) : State :=
  if cellNo % 2 = 0 then s.onPav p (fun v => { v with txFirst := some bits })
  else match (s.pav p).txFirst with
    | some a => (s.onPav p (fun v => { v with txFirst := none })).emit (.superframe p (laneBits ((a ++ bits) ^^^ lineKey)))
    | none => s

/-- The bits of a received cell, no longer scrambled. -/
def Pavilion.plainCell (v : Pavilion) (c : Cell) : BitVec 12800 :=
  c.bits ^^^ (if v.rxSecond then lineKey.extractLsb' 0 12800 else lineKey.extractLsb' 12800 12800)

/-! ## Records (R214) -/

/-- Whether a unit travels with its tail word. -/
def hasTail (f : Flit) : Bool := f.last && !f.trunc

/-- The bits of a record and their number. -/
def packRecord (tag : Nat) (f : Flit) : Nat × Nat :=
  let v := tag % 256 * 2 ^ 552 + flagBits f * 2 ^ 548 + f.codes.toNat * 2 ^ 512 + f.payload.toNat
  if hasTail f then (v * 2 ^ 32 + f.tail.toNat, 592) else (v, 560)

/-- A record's tag: kind, tail present, hall link, slot. -/
def recordTag (kind link slot : Nat) (f : Flit) : Nat :=
  kind % 4 * 64 + (if hasTail f then 32 else 0) + link % 2 * 16 + slot % 16

/-- The body of a cell from its records: one after another, then zero bits. -/
def packBody (rs : List (Nat × Flit)) : BitVec 12544 :=
  let x := rs.foldl (fun (a : Nat × Nat) r =>
    let v := packRecord r.1 r.2
    (a.1 * 2 ^ v.2 + v.1, a.2 + v.2)) (0, 0)
  BitVec.ofNat 12544 (x.1 * 2 ^ (12544 - x.2))

/-- A record as received: its tag, its unit, and the first body bit behind it. -/
structure Rec where
  tag : Nat
  flit : Flit
  stop : Nat
deriving DecidableEq, Repr

/-- The bits from `off` on, `w` of them, of a body sent most significant bit first. -/
def bodyBits (b : BitVec 12544) (off w : Nat) : Nat := bitsAt b.toNat (12544 - off - w) w

/-- The records of a body: at most `n`, from bit `off`. -/
def unpackBody (b : BitVec 12544) : Nat → Nat → List Rec
  | 0, _ => []
  | n + 1, off =>
    if 12544 < off + 560 then []
    else
      let tag := bodyBits b off 8
      let fl := bodyBits b (off + 8) 4
      let tail := tag.testBit 5
      if tail ∧ 12544 < off + 592 then []
      else
        let f : Flit :=
          { payload := BitVec.ofNat 512 (bodyBits b (off + 48) 512), first := fl.testBit 3, last := fl.testBit 2, trunc := fl.testBit 1
            resend := fl.testBit 0, codes := BitVec.ofNat 36 (bodyBits b (off + 12) 36)
            tail := if tail then BitVec.ofNat 32 (bodyBits b (off + 560) 32) else 0 }
        let stop := off + (if tail then 592 else 560)
        { tag := tag, flit := f, stop := stop } :: unpackBody b n stop

/-- Whether a record's tag agrees with its unit (R214). -/
def Rec.wellFormed (r : Rec) : Bool :=
  (r.tag.testBit 5 == hasTail r.flit) && (r.tag / 64 == 0 || r.tag % 32 == 15)

/-! ## Filling a cell (R215) -/

/-- A cell being filled. -/
structure Filling where
  st : State
  recs : List (Nat × Flit)
  tails : Nat
  stop : Bool

/-- Whether one more unit fits (R214). -/
def Filling.fits (c : Filling) (f : Flit) : Bool :=
  c.recs.length < 22 && 560 * (c.recs.length + 1) + 32 * (c.tails + if hasTail f then 1 else 0) ≤ 12544

/-- Put a unit into a cell. -/
def Filling.put (c : Filling) (s : State) (tag : Nat) (f : Flit) : Filling :=
  { c with st := s, recs := c.recs ++ [(tag, f)], tails := c.tails + if hasTail f then 1 else 0 }

/-- The scheduled units of the cell in the order of the positions of its transmit entry; they are tenant units, and are lost
where no tenant traffic is carried. -/
def State.schedUnits (s : State) (p cellStart : Nat) : List CellUnit :=
  let row := cellStart / 16 % 512
  let e := s.word 0x183002 (pavInst p) row 0 + s.word 0x183002 (pavInst p) row 1 * 2 ^ 64
  (List.range (bitsAt e 123 5)).filterMap (fun i =>
    let c := bitsAt e (5 * i + 13) 5
    (s.pav p).sched.find? (fun x => x.link == c / 16 && x.slot == c % 16))

/-- Step 1 of R215. -/
def fillSched (c : Filling) (p cellStart : Nat) : Filling :=
  let us := if c.st.tenantOk p then c.st.schedUnits p cellStart else []
  let c := us.foldl (fun (c : Filling) x =>
    if c.stop then c
    else if c.fits x.flit then c.put (c.st.countUnit (.pavilion p) 2 x.flit (unpackHeader x.flit.payload) .sched) (recordTag 0 x.link x.slot x.flit) x.flit
    else { c with stop := true }) c
  { c with st := c.st.onPav p (fun v => { v with sched := [] }) }

/-- The packet whose unit a lane of the line carries next: the open one, else the one released first whose buffer has a credit
(R215). -/
def State.lineNext (s : State) (p : Nat) (lane : Lane) : Option Held :=
  let u := UnitId.pavilion p
  let o := s.outPort u 2
  let opened := match lane with | .normal => o.norm | .escape => o.esc | .resend => o.resend | .sched => none
  let sentOf (x : Held) : Option Nat := (x.outs.find? (fun c => c.port == 2)).map (·.sent)
  let ready (x : Held) : Bool := match sentOf x with
    | some k => decide (k < x.units.length) && decide (0 < (s.pav p).credit (s.peerBuffer p lane x.hdr))
    | none => false
  match opened with
  | some id => (s.node u).held.find? (fun x => x.id == id && ready x)
  | none =>
    ((s.node u).held.filter (fun x => x.lane == lane && sentOf x == some 0 && ready x &&
        (x.hdr.part.toNat == 1023 || s.tenantOk p))).foldl (fun (b : Option Held) x => match b with
      | none => some x
      | some y => if x.rel < y.rel then some x else some y) none

/-- Take units of one lane until the lane has none that may go, or the cell is full. -/
def fillLane (p : Nat) (lane : Lane) (kind : Nat) : Nat → Filling → Filling
  | 0, c => c
  | n + 1, c =>
    if c.stop then c
    else match c.st.lineNext p lane with
      | none => c
      | some x =>
        let u := UnitId.pavilion p
        match c.st.passHeld u 2 x (c.st.now u) with
        | (_, none) => c
        | (s, some (f, h)) =>
          if !c.fits f then { c with stop := true }
          else
            let b := c.st.peerBuffer p lane h
            let s := (s.onPav p (fun v => { v with sent := v.sent.modify 0 b (fun k => (k + 1) % 4096) })).countUnit u 2 f h lane
            fillLane p lane kind n (c.put s (recordTag kind 0 15 f) f)

/-- Fill a cell in the order of R215. -/
def State.fillCell (s : State) (p cellStart : Nat) : Filling :=
  let c := fillSched { st := s, recs := [], tails := 0, stop := false } p cellStart
  fillLane p .normal 2 22 (fillLane p .escape 3 22 (fillLane p .resend 1 22 c))

/-! ## Header places (R213, R218, R220, R221, R223) -/

/-- The buffers of the three credit reports: those whose freed count has changed, lowest first, then the others in turn. -/
def reportBuffers (v : Pavilion) : List Nat :=
  let changed := (List.range 9).filter (fun b => v.freed.get 0 b != v.told.get 0 b)
  let others := ((List.range 9).map (fun i => (v.turn + i) % 9)).filter (fun b => !changed.contains b)
  (changed ++ others).take 3

/-- The credit reports of a cell as 48 bits. -/
def creditReports (v : Pavilion) (bs : List Nat) : Nat :=
  bs.foldl (fun a b => a * 2 ^ 16 + b % 16 * 2 ^ 12 + v.freed.get 0 b % 4096) 0

/-- Note what a cell has reported. -/
def State.reportSent (s : State) (p : Nat) (bs : List Nat) : State :=
  s.onPav p (fun v => { v with
    told := bs.foldl (fun t b => t.put b (v.freed.get 0 b)) v.told
    turn := (v.turn + (bs.filter (fun b => v.freed.get 0 b == v.told.get 0 b)).length) % 9 })

/-- Fields of a CAPABILITY message (R223). -/
def State.capability (s : State) (p : Nat) : Nat :=
  let own := s.chipNo
  let mapped := s.mach.chipNo.isSome && s.chipPresent own
  let sizes := (List.range 9).foldl (fun a b => a * 2 ^ 12 + linkSize b) 0
  1 * 2 ^ 237 + own % 2 ^ 12 * 2 ^ 209 + (if s.mach.chipNo.isSome then 2 ^ 208 else 0) + p % 16 * 2 ^ 204 +
    (if mapped then 2 ^ 203 + s.word 0x101001 0 own 0 % 2 ^ 14 * 2 ^ 189 else 0) +
    (BitVec.ofInt 16 (s.pav p).alpha).toNat * 2 ^ 173 + sizes * 2 ^ 65

/-- Rank of a long message in the order of R221; a CAPABILITY, which R221 does not name, comes last (log entry 145). -/
def longRank (m : BitVec 256) : Nat :=
  match m.toNat / 2 ^ 248 with
  | 3 => 0 | 4 => 1 | 5 => 2 | 1 => 3 | 2 => 3 | _ => 4

/-- The waiting long message that goes next. -/
def nextLong (q : List (BitVec 256)) : Option (BitVec 256) :=
  q.foldl (fun b m => match b with
    | none => some m
    | some x => if longRank m < longRank x then some m else some x) none

/-- The sent counts of buffers 0 to 8 as the field of a CREDIT_RESYNC (R219, R220). -/
def sentCounts (v : Pavilion) : Nat := (List.range 9).foldl (fun a b => a * 2 ^ 12 + v.sent.get 0 b) 0

/-- A message as it leaves: a CREDIT_RESYNC takes the counts of the first slot of its cell. -/
def finishLong (v : Pavilion) (m : BitVec 256) : BitVec 256 :=
  if m.toNat / 2 ^ 248 = 5 then BitVec.ofNat 256 (m.toNat / 2 ^ 240 * 2 ^ 240 + sentCounts v * 2 ^ 132) else m

/-- The long place of a cell: its state and fragment. `v` is the pavilion as the cell's first slot found it. -/
def State.longPlace (s : State) (p : Nat) (v : Pavilion) : (Nat × BitVec 128) × State :=
  match (s.pav p).txHalf with
  | some h => ((2, h), s.onPav p (fun x => { x with txHalf := none }))
  | none => match nextLong (s.pav p).longQ with
    | none => ((0, 0), s)
    | some m =>
      let w := finishLong v m
      ((1, w.extractLsb' 128 128), s.onPav p (fun x => { x with longQ := x.longQ.erase m, txHalf := some (w.extractLsb' 0 128) }))

/-- The short place of a cell (R221): a waiting hold notice, in order of arrival; the last notice again; GOING_DOWN (log entry 144);
RETRAIN_REQ; a resync request. -/
def State.shortPlace (s : State) (p : Nat) : BitVec 32 × State :=
  let v := s.pav p
  match v.shortQ.find? (fun m => m.toNat / 2 ^ 28 == 1) with
  | some m => (m, s.onPav p (fun x => { x with shortQ := x.shortQ.erase m, notice := some m }))
  | none => match v.notice with
    | some m => (m, s.onPav p (fun x => { x with notice := none }))
    | none =>
      if 0 < v.goingDown then
        (BitVec.ofNat 32 (3 * 2 ^ 28 + s.chipNo % 4096 * 2 ^ 16), s.onPav p (fun x => { x with goingDown := x.goingDown - 1 }))
      else if 0 < v.retrainCells then
        (BitVec.ofNat 32 (4 * 2 ^ 28), s.onPav p (fun x => { x with retrainCells := x.retrainCells - 1 }))
      else match v.shortQ with
        | m :: rest => (m, s.onPav p (fun x => { x with shortQ := rest }))
        | [] => (0, s)

/-- A cell header with its check (R213). -/
def packCellHeader (cellNo credits count longState short : Nat) (long : BitVec 128) : BitVec 256 :=
  let v := 0xB8 * 2 ^ 248 + cellNo % 2 ^ 16 * 2 ^ 232 + credits % 2 ^ 48 * 2 ^ 184 + count % 32 * 2 ^ 179 + longState % 4 * 2 ^ 177 +
    short % 2 ^ 32 * 2 ^ 145 + long.toNat * 2 ^ 17
  BitVec.ofNat 256 (v + (crc16 (BitVec.ofNat 256 v)).toNat)

/-! ## Sending a cell -/

/-- A CAPABILITY is queued in every fourth cell of EXCHANGE and MISCABLED (R223, R225). -/
def State.offerCapability (s : State) (p cellStart : Nat) : State :=
  let v := s.pav p
  if (v.st == .exchange || v.st == .miscabled) ∧ cellStart / 16 % 4 = 0 ∧ v.txHalf.isNone then s.sendLong p 6 (s.capability p) else s

/-- The cell whose last slot this is (R213 to R215). Its busy and idle slots go by the number of its records (13 R331). -/
def State.sendCell (s : State) (p start : Nat) : State :=
  let s := s.offerCapability p start
  let v := s.pav p
  let c : Filling := if v.st = .up ∨ v.st = .upUnmapped then s.fillCell p start
    else { st := s.onPav p (fun x => { x with sched := [] }), recs := [], tails := 0, stop := false }
  let bs := reportBuffers (c.st.pav p)
  let credits := creditReports (c.st.pav p) bs
  let l := (c.st.reportSent p bs).longPlace p v
  let h := l.2.shortPlace p
  let hdr := packCellHeader (start / 16) credits c.recs.length l.1.1 h.1.toNat l.1.2
  let body := packBody c.recs
  let busy := (16 * c.recs.length + 21) / 22
  (((h.2.count (.pavilion p) 2 0 busy).count (.pavilion p) 2 2 (16 - busy)).emit (.cell p hdr body)).lineOut p (start / 16) (hdr ++ body)

/-! ## Receiving a cell (R212, R216, R217) -/

/-- The sender's cell start that a cell number names: the latest one no later than now (R216). -/
def cellStartOf (now cellNo : Nat) : Nat := (now / 16 - (now / 16 + 65536 - cellNo % 65536) % 65536) * 16

/-- Whether a header's sync byte or its check is wrong. -/
def headerWrong (hdr : BitVec 256) : Bool := hdr.toNat / 2 ^ 248 != 0xB8 || crc16 hdr != hdr.setWidth 16

/-- Whether a cell's header is damaged (R217). -/
def headerDamaged (hdr : BitVec 256) (firstBad : Option Nat) : Bool :=
  (match firstBad with | some b => decide (b < 256) | none => false) || headerWrong hdr

/-- The run of bad superframes after a cell (R226): a superframe is a cell of even number and the next. -/
def badRun (old cellNo : Nat) (bad : Bool) : Nat :=
  if cellNo % 2 = 0 then 2 * (old / 2) + (if bad then 1 else 0)
  else if old % 2 = 1 ∨ bad then 2 * (old / 2 + 1) else 0

/-- The open packet of a lane on the line; a scheduled one is known by its hall link at the sender. -/
def openOn (v : Pavilion) (lane : Lane) (link : Nat) : Option (Lane × Header × Nat × Bool) :=
  v.rxOpen.find? (fun x => x.1 == lane && (lane != .sched || x.2.2.1 == link))

/-- Set or clear the open packet of a lane on the line. -/
def setOpen (v : Pavilion) (lane : Lane) (link : Nat) (x : Option (Header × Bool)) : Pavilion :=
  let rest := v.rxOpen.filter (fun y => !(y.1 == lane && (lane != .sched || y.2.2.1 == link)))
  { v with rxOpen := match x with
      | some (h, drop) => rest ++ [(lane, h, link, drop)]
      | none => rest }

/-- One unit waits for its release at a receiving pavilion; a late one, or one that meets a full alignment buffer of 64, is
dropped and reported (R216; 01 R24). -/
def State.queueLine (s : State) (p rel link : Nat) (lane : Lane) (b : Nat) (f : Flit) (h : Header) : State :=
  let u := UnitId.pavilion p
  if rel ≤ s.now u ∨ 64 ≤ (s.pav p).rxWait.length then
    let s := if b < 9 then s.onPav p (fun v => { v with freed := v.freed.modify 0 b (fun k => (k + 1) % 4096) }) else s
    ((((s.event u 2 0x0B h.part.toNat (vcOf h) 0 1).event u 2 0x07 h.part.toNat (vcOf h) 0 1).traceDrop u 2 4 h).raise
      u 9 0x004 h.part.toNat (ctxPacket 2 h))
  else s.onPav p (fun v => { v with rxWait := v.rxWait ++ [(rel, link, lane, b, f)] })

/-- The lane of a record's kind (R214). -/
def laneOf (kind : Nat) : Lane := match kind with | 0 => .sched | 1 => .resend | 2 => .normal | _ => .escape

/-- The release slot of a record: departure plus D, or as soon as it is decoded where no tenant traffic is carried (R216, R231). The
scheduled units of a partition at half rate are released at a slot of its own, D rounded up to one (00 R12). -/
def State.releaseSlot (s : State) (p start slot : Nat) (half : Bool) : Nat :=
  let d := s.latencyD p
  if s.tenantOk p then start + slot + (if half then (d + 1) / 2 * 2 else d) else s.now (.pavilion p) + 1

/-- Whether a record of a packet goes by half-rate slots. -/
def State.halfRecord (s : State) (lane : Lane) (h : Header) : Bool := lane == .sched && 2 ≤ (s.part h.part.toNat).rate

/-- The receive buffer of a header's packet. -/
def State.lineBuffer (s : State) (p : Nat) (lane : Lane) (h : Header) : Nat :=
  linkBuffer lane (vcOf h) (s.arrivalClass (chipOf h.dst) p)

/-- Count a unit into a receive buffer. -/
def State.gotUnit (s : State) (p b : Nat) : State :=
  if b < 9 then s.onPav p (fun v => { v with got := v.got.modify 0 b (fun k => (k + 1) % 4096) }) else s

/-- One intact record (R216). Units of a packet whose rest is discarded leave their buffer at once; a unit of no open packet
is discarded. -/
def State.takeRecord (s : State) (p start : Nat) (r : Rec) : State :=
  let u := UnitId.pavilion p
  let f := r.flit
  let lane := laneOf (r.tag / 64)
  let link := r.tag / 16 % 2
  let slot := if lane = .sched then r.tag % 16 else 15
  let out := if lane = .sched then (s.word 0x183003 (pavInst p) (start / 16 % 512) 0 / 2 ^ (16 * link + slot)) % 2 else 0
  if !r.wellFormed then s.bump 0x281204 (pavInst p) 0 0 0 16 1
  else if f.first then
    let h := unpackHeader f.payload
    let b := s.lineBuffer p lane h
    let s := (s.gotUnit p b).onPav p (fun v => setOpen v lane link (if f.last then none else some (h, false)))
    s.queueLine p (s.releaseSlot p start slot (s.halfRecord lane h)) out lane b f h
  else match openOn (s.pav p) lane link with
    | none => s.event u 2 0x07 1023 0 0 1
    | some (_, h, _, drop) =>
      let b := s.lineBuffer p lane h
      let s := (s.gotUnit p b).onPav p (fun v => if f.last then setOpen v lane link none else v)
      if drop then
        (if b < 9 then s.onPav p (fun v => { v with freed := v.freed.modify 0 b (fun k => (k + 1) % 4096) }) else s).event u 2 0x07
          h.part.toNat (vcOf h) 0 1
      else s.queueLine p (s.releaseSlot p start slot (s.halfRecord lane h)) out lane b f h

/-- The slot in a cell behind the last intact scheduled unit of a sending hall link. -/
def schedPlace (rs : List Rec) (link : Nat) : Nat :=
  (rs.filter (fun r => r.tag / 64 == 0 && r.tag / 16 % 2 == link)).foldl (fun m r => Nat.max m (r.tag % 16 + 1)) 0 % 16

/-- Records were damaged (R217 step 1): every packet still open on the line is truncated, and its rest discarded. -/
def State.truncateOpen (s : State) (p start : Nat) (rs : List Rec) : State :=
  let u := UnitId.pavilion p
  (s.pav p).rxOpen.foldl (fun s (x : Lane × Header × Nat × Bool) =>
    if x.2.2.2 then s
    else
      let lane := x.1; let h := x.2.1; let link := x.2.2.1
      let b := s.lineBuffer p lane h
      let slot := if lane = .sched then schedPlace rs link else 15
      let out := if lane = .sched then (s.word 0x183003 (pavInst p) (start / 16 % 512) 0 / 2 ^ (16 * link + slot)) % 2 else 0
      let s := (s.gotUnit p b).onPav p (fun v => setOpen v lane link (some (h, true)))
      (s.queueLine p (s.releaseSlot p start slot (s.halfRecord lane h)) out lane b (truncationUnit false) h).raise u 9 0x002 h.part.toNat (ctxPacket 2 h)) s

/-- The line is lost (02 R59): every packet still open on it is closed with a truncation unit, behind what has been received of it. -/
def State.closeLine (s : State) (p : Nat) : State :=
  let u := UnitId.pavilion p
  let wait := (s.pav p).rxWait
  let rel := 1 + wait.foldl (fun m w => Nat.max m w.1) (s.now u)
  ((s.pav p).rxOpen.foldl (fun s (x : Lane × Header × Nat × Bool) =>
    if x.2.2.2 then s
    else
      let lane := x.1; let h := x.2.1
      let out := match wait.find? (fun w => w.2.2.1 == lane && w.2.2.2.2.first && unpackHeader w.2.2.2.2.payload == h) with
        | some w => w.2.1
        | none => if (s.outPort u 1).sched == some h then 1 else 0
      s.queueLine p rel out lane (s.lineBuffer p lane h) (truncationUnit false) h) s).onPav p (fun v => { v with rxOpen := [] })

/-- The credit reports of an intact header (R218). -/
def State.takeCredits (s : State) (p : Nat) (hdr : BitVec 256) : State :=
  (List.range 3).foldl (fun s i =>
    let r := bitsAt hdr.toNat (216 - 16 * i) 16
    if r / 4096 < 9 then s.onPav p (fun v => { v with ret := v.ret.put (r / 4096) (r % 4096) }) else s) s

/-- The short and long places of an intact header: their messages wait for the commands that carry them out; one of a
reserved type is discarded and counted (R220). -/
def State.takePlaces (s : State) (p : Nat) (hdr : BitVec 256) : State :=
  let short := hdr.extractLsb' 145 32
  let t := short.toNat / 2 ^ 28
  let s := if t = 0 then s
    else if t ≤ 4 then s.onPav p (fun v => { v with inShort := v.inShort ++ [short] })
    else s.bump 0x281204 (pavInst p) 0 0 0 16 1
  let frag := hdr.extractLsb' 17 128
  match bitsAt hdr.toNat 177 2 with
  | 1 => s.onPav p (fun v => { v with rxHalf := some frag })
  | 2 => match (s.pav p).rxHalf with
    | none => s
    | some hi =>
      let m : BitVec 256 := hi ++ frag
      let s := s.onPav p (fun v => { v with rxHalf := none })
      let ty := m.toNat / 2 ^ 248
      if 1 ≤ ty ∧ ty ≤ 6 then s.onPav p (fun v => { v with inLong := v.inLong ++ [m] })
      else s.bump 0x281204 (pavInst p) 0 0 0 16 1
  | _ => s.onPav p (fun v => { v with rxHalf := none })

/-- The FEC counts of a cell (R212): symbols corrected, and codewords not correctable, each reported. The times of the latter are kept
for a window of 2^20 codewords, five in 32 slots (R226). -/
def State.countFec (s : State) (p : Nat) (c : Cell) : State :=
  let s := (s.bump 0x281201 (pavInst p) 0 0 0 40 c.corrected).bump 0x281201 (pavInst p) 0 0 40 24 c.uncorrectable
  let t := s.now (.pavilion p)
  let s := s.onPav p (fun v => { v with
    badWords := v.badWords.filter (fun x => decide (t < x + 6710886)) ++ List.replicate c.uncorrectable t })
  (List.range c.uncorrectable).foldl (fun s _ => s.raise (.pavilion p) 10 0x060 1023 (ctxLink p 1)) s

/-- CELL_FRAME (R211, R212, R216, R217). A reserved record count names no records and is counted. -/
def State.cellFrame (s : State) (p : Nat) (c : Cell) : State :=
  let v := s.pav p
  let bits := v.plainCell c
  let hdr : BitVec 256 := bits.extractLsb' 12544 256
  let hb := headerDamaged hdr c.firstBad
  let cellNo := if hb then (v.lastCell.toNat + 1) % 65536 else bitsAt hdr.toNat 232 16
  let start := cellStartOf (s.now (.pavilion p)) cellNo
  let s := (s.countFec p c).onPav p (fun v => { v with
    rxSecond := !v.rxSecond, lastCell := BitVec.ofNat 16 cellNo, badFrames := badRun v.badFrames cellNo (headerWrong hdr) })
  let s := if hb then s.onPav p (fun v => { v with rxHalf := none }) else (s.takeCredits p hdr).takePlaces p hdr
  let count := bitsAt hdr.toNat 179 5
  let s := if !hb && decide (22 < count) then s.bump 0x281204 (pavInst p) 0 0 0 16 1 else s
  let n := if hb || decide (22 < count) then 0 else count
  let rs := unpackBody (bits.extractLsb' 0 12544) n 0
  let good := match c.firstBad with
    | some b => rs.filter (fun r => decide (256 + r.stop ≤ b))
    | none => rs
  let s := good.foldl (fun s r => s.takeRecord p start r) s
  if hb || c.firstBad.isSome then
    let s := if hb || decide (good.length < n) then s.truncateOpen p start good else s
    (s.bump 0x281202 (pavInst p) 0 0 0 16 1).sendShort p (BitVec.ofNat 32 (2 * 2 ^ 28))
  else s

/-- CELL_FRAME. -/
def execCellFrame (p : Nat) (c : Cell) (s : State) : Host.Outcome State Fault Refusal :=
  upWhen s (fun s => match (s.pav p).st with
    | .exchange | .measure | .check | .upUnmapped | .up | .miscabled => true
    | _ => false) (fun s => s.cellFrame p c)

/-! ## Credit resync (R219) -/

/-- A message has been carried out. -/
def State.tookShort (s : State) (p : Nat) (w : BitVec 32) : State := s.onPav p (fun v => { v with inShort := v.inShort.erase w })
/-- A message has been carried out. -/
def State.tookLong (s : State) (p : Nat) (m : BitVec 256) : State := s.onPav p (fun v => { v with inLong := v.inLong.erase m })

/-- CREDIT_RESYNC_REQ: the sender answers with its sent counts, which the message takes as it leaves. -/
def execCreditResyncReq (p : Nat) (w : BitVec 32) (s : State) : Host.Outcome State Fault Refusal :=
  up s (fun s => (s.tookShort p w).sendLong p 5 0)

/-- Whether a message is a copy: of a type and sequence, or an origin and sequence for a flooded type, received in the last
65,536 slots (R220). The message is noted. -/
def State.seenBefore (s : State) (p key : Nat) : Bool × State :=
  let now := s.now (.pavilion p)
  let recent := (s.pav p).seen.filter (fun x => decide (now < x.2 + 65536))
  (recent.any (fun x => x.1 == key), s.onPav p (fun v => { v with seen := if recent.any (fun x => x.1 == key) then recent else recent ++ [(key, now)] }))

/-- The key of a message that is not flooded: its type and sequence. -/
def linkKey (m : BitVec 256) : Nat := m.toNat / 2 ^ 240

/-- CREDIT_RESYNC: for each buffer, units sent and not received return as credit; counted. -/
def execCreditResync (p : Nat) (m : BitVec 256) (s : State) : Host.Outcome State Fault Refusal :=
  up s (fun s =>
    let r := (s.tookLong p m).seenBefore p (linkKey m)
    if r.1 then r.2
    else
      let s := r.2.onPav p (fun v => (List.range 9).foldl (fun v b =>
        let n := (bitsAt m.toNat (228 - 12 * b) 12 + 4096 - v.got.get 0 b) % 4096
        { v with freed := v.freed.modify 0 b (fun k => (k + n) % 4096), got := v.got.modify 0 b (fun k => (k + n) % 4096) }) v)
      s.bump 0x281202 (pavInst p) 0 0 16 16 1)

end Sys2Proof.Machine
end

