-- ==== Sys2Proof/Machine/Plan.lean ====
section
/-!
DEFINITION. Plan images (03 R87 to R92): their layout, the load checks of R90, what a checked image stages, and what starting,
swapping and stopping a plan does.
-/
namespace Sys2Proof.Machine

/-! ## The image (R87, R88) -/

/-- The fields of a plan image header (R87). -/
structure PlanHeader where
  magic : Nat
  major : Nat
  minor : Nat
  generation : Nat
  degrade : Bool
  job : Nat
  frameLen : Nat
  repair : Nat
  holdLead : Nat
  ackLag : Nat
  chips : Nat
  sections : Nat
  length : Nat
deriving DecidableEq, Repr

/-- Read a plan image header from its first 64 bytes. Its reserved fields are not looked at (00 R9). -/
def planHeader (bs : List Byte) : PlanHeader :=
  let v := ofBytes (bs.take 64)
  { magic := bitsAt v 480 32, major := bitsAt v 472 8, minor := bitsAt v 464 8, generation := bitsAt v 462 2
    degrade := v.testBit 455, job := bitsAt v 432 16, frameLen := bitsAt v 416 16, repair := bitsAt v 400 16
    holdLead := bitsAt v 384 16, ackLag := bitsAt v 376 8, chips := bitsAt v 364 12, sections := bitsAt v 320 32
    length := bitsAt v 288 32 }

/-- A section of an image: its directory entry (R88) and its bytes. -/
structure Section where
  index : Nat
  type : Nat
  failover : Bool
  port : Nat
  chip : Nat
  level : Nat
  inst : Nat
  offset : Nat
  length : Nat
  bytes : List Byte
deriving DecidableEq, Repr

/-- Section `i` of an image. -/
def sectionAt (bs : List Byte) (i : Nat) : Section :=
  let v := ofBytes ((bs.drop (64 + 16 * i)).take 16)
  let off := bitsAt v 32 32; let len := bitsAt v 0 32
  { index := i, type := bitsAt v 112 15, failover := v.testBit 127, port := bitsAt v 96 16, chip := bitsAt v 84 12
    level := bitsAt v 81 3, inst := bitsAt v 69 12, offset := off, length := len
    bytes := (bs.drop off).take len }

/-- The sections of an image, in directory order. -/
def sectionsOf (bs : List Byte) : List Section := (List.range (planHeader bs).sections).map (sectionAt bs)

/-- The unit of a section's level and instance, on this chip. -/
def sectionUnit (x : Section) : UnitId :=
  match x.level with
  | 0 => .landing x.inst | 1 => .stair x.inst | 2 => .gallery x.inst | 3 => .hall x.inst
  | 4 => .pavilion x.inst | 5 => .special x.inst | _ => .chip

/-- The `n` values of `w` bytes of a section. -/
def valuesOf (x : Section) (w : Nat) : List Nat := splitVals w (x.length / w) x.bytes

/-- The repair window of a header: 0 stands for P / 16 (R72). -/
def PlanHeader.window (h : PlanHeader) : Nat := if h.repair = 0 then h.frameLen / 16 else h.repair

/-- Header values within the ranges of R87; the minor number of the format is 0 (log entry 152). -/
def PlanHeader.inRange (h : PlanHeader) : Bool :=
  h.minor == 0 && [256, 512, 1024, 2048, 4096].contains h.frameLen &&
    (h.repair == 0 || ([16, 32, 64, 128, 256, 512, 1024].contains h.repair && decide (4 * h.repair ≤ h.frameLen))) &&
    decide (2 ≤ h.holdLead ∧ h.holdLead ≤ 1024) && decide (1 ≤ h.ackLag ∧ h.ackLag ≤ 16) &&
    decide (1 ≤ h.chips ∧ h.chips ≤ 1024)

/-- Whether a section's type is known and its length right (R88; 07 R178, R198, R199; 10 R268). -/
def sectionOk (h : PlanHeader) (x : Section) : Bool :=
  let p := h.frameLen
  x.offset % 64 == 0 && (match x.type with
    | 0x0001 => x.length == 2 * p
    | 0x0002 => x.length == p
    | 0x0003 => 4 * x.length == p
    | 0x0004 => x.length == 2 * p
    | 0x0005 => 2 * x.length == p
    | 0x0006 => x.length % 32 == 0
    | 0x0007 => x.length % 24 == 0
    | 0x0008 => decide (64 ≤ x.length) && (let v := ofBytes (x.bytes.take 64)
        x.length == 64 + 64 * bitsAt v 496 16 + 16 * bitsAt v 480 16)
    | 0x0009 => x.length == 64
    | 0x000A => x.length == 320 && x.level == 6
    | 0x000B => x.length == 8 * h.chips
    | 0x000C => x.length == 64
    | 0x00FF => (x.length == 48 || x.length == 64) && !x.failover
    | _ => false)

/-! ## Binding and the machine (R89, R90 check 4) -/

/-- The physical chip of each logical chip: the present chip with the same coordinates; the section's 8 bytes hold them as
04 R103 [13:0] does. An image without a chip map binds one logical chip, to this chip (log entry 22). -/
def State.bind (s : State) (secs : List Section) : List (Option Nat) :=
  match secs.find? (fun x => x.type == 0x000B && !x.failover) with
  | none => [some s.chipNo]
  | some x => (valuesOf x 8).map (fun v =>
      (List.range 1024).find? (fun c => s.chipPresent c && (s.word 0x101001 0 c 0) % 2 ^ 14 == v % 2 ^ 14))

/-- The entries of a slot-table section as they are held, EMPTY for one that R66 reserves. -/
def slotValues (x : Section) : List Nat := (valuesOf x 2).map (fun v => (slotCanon (sectionUnit x) v).getD 0)

/-- Whether a unit that a section names exists (R90 check 4), and with it every input that its slot table names: a reserved kind or
operand value fails this check too (DESIGN CHOICE, log entry 134). -/
def State.unitExists (s : State) (h : PlanHeader) (x : Section) : Bool :=
  decide (x.chip < h.chips) && (match x.level with
    | 0 => decide (x.inst < s.instCount 1)
    | 1 => decide (x.inst < s.instCount 2)
    | 2 => decide (x.inst < s.instCount 3)
    | 3 => decide (x.inst < 4)
    | 4 => decide (x.inst < s.instCount 5)
    | 5 => decide (2048 ≤ x.inst ∧ x.inst ≤ 2060)
    | 6 => true
    | _ => false) && (x.type != 1 || (decide (x.level ≤ 3) && (outPorts (sectionUnit x)).contains x.port &&
      (valuesOf x 2).all (fun v => (slotCanon (sectionUnit x) v).isSome)))

/-! ## The tables of an image -/

/-- Check 5 of R90: the REPAIR entries of a landing's port lie exactly in the repair window (R72). -/
def repairOk (h : PlanHeader) (x : Section) : Bool :=
  x.type != 1 || x.level != 0 || ((valuesOf x 2).zipIdx).all (fun e =>
    (entryKind e.1 == 2) == decide (h.frameLen - h.window ≤ e.2 ∧ e.2 < h.frameLen))

/-- The positions that a transmit cell entry lists, as codes 16 × link + slot (R84). -/
def cellCodes (v : Nat) : List Nat :=
  (List.range (min 22 (v / 2 ^ 123))).map (fun i => let q := bitsAt v (5 * i + 13) 5; q / 16 * 16 + q % 16)

/-- Whether two of the units of a cell leave the receiving pavilion on one link in one slot (R84). -/
def cellClash (codes : List Nat) (rx : Nat) : Bool :=
  codes.any (fun a => codes.any (fun b => a < b && a % 16 == b % 16 && rx.testBit a == rx.testBit b))

/-- The section of a type of the pavilion at the far end of a pavilion section's link, on the chip that lies one step on (R84). -/
def State.farSection (s : State) (bound : List (Option Nat)) (secs : List Section) (x : Section) (type : Nat) : Option Section :=
  let f := facing x.inst
  let peerChip (c : Nat) : Bool := match (bound[x.chip]?).join with
    | some me => (List.range 4).all (fun a =>
        s.coord c a == (if a = f.axis then stepCoord (s.axisSize a) (s.coord me a) f.pos else s.coord me a))
    | none => false
  secs.find? (fun y => y.type == type && y.failover == x.failover && y.inst == oppositePav x.inst &&
    (match (bound[y.chip]?).join with | some c => peerChip c | none => false))

/-- The entry that the plan gives a port of a unit of a chip at a slot of its frame. -/
def planEntry (secs : List Section) (chip : Nat) (failover : Bool) (u : UnitId) (port t : Nat) : Nat :=
  match secs.find? (fun y => y.type == 1 && y.failover == failover && y.chip == chip && sectionUnit y == u && y.port == port) with
  | some y => let vs := slotValues y; vs.getD (t % Nat.max 1 vs.length) 0
  | none => 0

/-- Whether the unit that departs from a port at a slot of the frame is the last of a stream's packet: the schedule followed back to
its landing, `n` hops at most. One that comes from another chip or from a combining store is not taken for one (DEDUCED, log entry
138). -/
def closesPacket (p chip : Nat) (failover : Bool) (secs : List Section) : Nat → UnitId → Nat → Nat → Bool
  | 0, _, _, _ => false
  | n + 1, u, port, t =>
    let e := planEntry secs chip failover u port t
    if e / 2 ^ 14 ≠ 1 then false
    else match u with
      | .landing l => secs.any (fun y => y.type == 6 && y.failover == failover && y.chip == chip && y.inst == l &&
          (valuesOf y 32).any (fun d => bitsAt d 252 4 == 1 && bitsAt d 246 6 == e % 64 &&
            (t + p - bitsAt d 206 12 % p) % p == bitsAt d 199 7 % p))
      | _ => match peer u (e % 256) with
        | some (.pavilion _, _) => false
        | some (v, q) => closesPacket p chip failover secs n v q ((t + p - hopLatency v q % p) % p)
        | none => false

/-- Check 7 of R90 on a transmit section: at most 22 units, of 22 at most 7 that close a packet (08 R214), no code twice, no clash in
the receive section of the pavilion at the far end (R84). -/
def State.cellsOk (s : State) (bound : List (Option Nat)) (secs : List Section) (h : PlanHeader) (x : Section) : Bool :=
  if x.type ≠ 2 ∧ x.type ≠ 4 then true
  else
    let far := s.farSection bound secs x (x.type + 1)
    let closes (r c : Nat) : Bool :=
      let t := (16 * r + c % 16) / (if x.type = 4 then 2 else 1)
      closesPacket h.frameLen x.chip x.failover secs 4 (.hall (x.inst / 4)) (pavPort x.inst (c / 16))
        ((t + h.frameLen - 4) % Nat.max 1 h.frameLen)
    (valuesOf x 16).zipIdx.all (fun e =>
      let codes := cellCodes e.1
      decide (e.1 / 2 ^ 123 ≤ 22) && decide (codes.Nodup) &&
      (codes.length != 22 || decide ((codes.filter (closes e.2)).length ≤ 7)) && (match far with
        | some y => !cellClash codes ((valuesOf y 4).getD e.2 0)
        | none => true))

/-- Check 6 of R90 on a receive section of this chip: the D in force is the D of the plan. The image states no D; the plan's own is
the one with which each unit that the far transmit section lists is released to the hall at the slot at which some port of the hall
takes it from that link (R63, R65, R84; DEDUCED, log entry 136). -/
def State.latencyOk (s : State) (bound : List (Option Nat)) (secs : List Section) (x : Section) : Bool :=
  if (x.type ≠ 3 ∧ x.type ≠ 5) ∨ x.failover then true
  else match s.farSection bound secs x (x.type - 1) with
    | none => true
    | some y =>
      let d := s.latencyD x.inst
      let hall := UnitId.hall (x.inst / 4)
      (valuesOf y 16).zipIdx.all (fun e => (cellCodes e.1).all (fun c =>
        let t := 16 * e.2 + c % 16
        let slot := if x.type = 5 then t / 2 + (d + 1) / 2 + 4 else t + d + 4
        let link := if ((valuesOf x 4).getD e.2 0).testBit c then 1 else 0
        (outPorts hall).any (fun o => planEntry secs x.chip false hall o slot == 0x4000 + pavPort x.inst link)))

/-- The slot-table entries of a section, over the 4,096 entries of the repeated pattern, with their owner; an EMPTY entry has none
(R65, R68). -/
def slotPattern (part : Nat) (x : Section) : List (Nat × BitVec 64) :=
  let vs := slotValues x
  let inst := instOf (sectionUnit x)
  (List.range 4096).flatMap (fun t =>
    let v := vs.getD (t % Nat.max 1 vs.length) 0
    let k := dkey 0x182003 inst (x.port * 4096 + t) 0
    [(k, BitVec.ofNat 64 v), (k + 1, BitVec.ofNat 64 (if v = 0 then 0 else part + 1))])

/-- The entries of a slot-table section that are not EMPTY. -/
def slotWrites (part : Nat) (x : Section) : List (Nat × BitVec 64) := (slotPattern part x).filter (fun w => w.2 != 0#64)

/-- Word 3 of a cell entry, the model's note of the partition that loaded it (log entry 23). -/
def cellOwner : Nat := 3

/-- The cell entries of a section, over the 512 entries of the table (R84), with their partition noted. -/
def cellWrites (part : Nat) (x : Section) : List (Nat × BitVec 64) :=
  let inst := instOf (sectionUnit x)
  let tx := x.type == 2 || x.type == 4
  let id := if tx then 0x183002 else 0x183003
  let vs := valuesOf x (if tx then 16 else 4)
  (List.range 512).flatMap (fun r =>
    let w := vs.getD (r % Nat.max 1 vs.length) 0
    let v := if tx then w - w % 2 ^ 13 else w
    let k := dkey id inst r 0
    [(k, BitVec.ofNat 64 v)] ++ (if tx then [(k + 1, BitVec.ofNat 64 (v / 2 ^ 64))] else []) ++
      [(k + cellOwner, BitVec.ofNat 64 (if v = 0 then 0 else part + 1))])

/-- The rows of a switch's replication table that hold no valid entry. -/
def State.freeRows (s : State) (inst : Nat) : List Nat :=
  (List.range 4096).filter (fun r => !(s.word 0x220002 inst r 2).testBit 63)

/-- The replication entries of a section, in the free rows of the unit's table; those that the partition already has go
(R199). -/
def State.replicationWrites (s : State) (part : Nat) (x : Section) : List (Nat × BitVec 64) :=
  let inst := instOf (sectionUnit x)
  ((valuesOf x 24).zip (s.freeRows inst)).flatMap (fun e =>
    let k := dkey 0x220002 inst e.2 0
    let v := 2 ^ 191 + part * 2 ^ 181 + e.1 % 2 ^ 181
    [(k, BitVec.ofNat 64 v), (k + 1, BitVec.ofNat 64 (v / 2 ^ 64)), (k + 2, BitVec.ofNat 64 (v / 2 ^ 128))])

/-- The clearing of a partition's replication entries. -/
def State.replicationClears (s : State) (part : Nat) : List (Nat × BitVec 64) :=
  (s.dict.filter (fun x => keyId x.1 == 0x220002 && keyWord x.1 == 2 && x.2.getLsbD 63 && bitsAt x.2.toNat 53 10 == part)).flatMap
    (fun x => [(x.1 - 2, 0), (x.1 - 1, 0), (x.1, 0)])

/-- The collective descriptors of a section (07 R198). -/
def descriptorsOf (x : Section) : List Nat :=
  let n := bitsAt (ofBytes (x.bytes.take 64)) 496 16
  splitVals 64 n (x.bytes.drop 64)

/-- The store-slot records of a section (07 R198). -/
def storeSlotsOf (x : Section) : List (BitVec 128) :=
  let v := ofBytes (x.bytes.take 64)
  let n := bitsAt v 496 16
  (splitVals 16 (bitsAt v 480 16) (x.bytes.drop (64 + 64 * n))).map (BitVec.ofNat 128)

/-- The writes of a collective descriptor and its handle owner. -/
def descriptorWrites (part d : Nat) : List (Nat × BitVec 64) :=
  let h := d / 2 ^ 500
  (List.range 8).map (fun w => (dkey 0x210001 0 h w, BitVec.ofNat 64 (d / 2 ^ (64 * w)))) ++
    [(dkey 0x210002 0 h 0, BitVec.ofNat 64 part)]

/-- A global address whose chip is bound from logical to physical (R89). -/
def bindAddr (bound : List (Option Nat)) (a : Nat) : Nat := ((bound.getD (a / 4096) none).getD 0) * 4096 + a % 4096

/-- A stream descriptor with its logical address bound (R89; 05 R129, R130). A multicast group is no address. -/
def bindStream (bound : List (Option Nat)) (v : Nat) : Nat :=
  if bitsAt v 252 4 = 1 ∧ v.testBit 221 then v
  else v - bitsAt v 222 24 * 2 ^ 222 + bindAddr bound (bitsAt v 222 24) * 2 ^ 222

/-- The writes that show a stream descriptor in its object (0x8001:03, :04; 05 R129, R130). -/
def streamWrites (l v : Nat) : List (Nat × BitVec 64) :=
  (List.range 4).map (fun w => (dkey (if bitsAt v 252 4 = 1 then 0x800103 else 0x800104) (8192 + l) (bitsAt v 246 6) w,
    BitVec.ofNat 64 (v / 2 ^ (64 * w))))

/-- The stream descriptors of a section, bound: landing and descriptor. -/
def streamsOf (bound : List (Option Nat)) (x : Section) : List (Nat × Nat) :=
  if x.type = 6 then (valuesOf x 32).map (fun v => (x.inst, bindStream bound v)) else []

/-- The writes of a failover section (R82): it replaces the table of its type, so that a slot entry it leaves EMPTY is released, and the
rows that the plan's replication entries took are taken anew. -/
def State.failoverWrites (s : State) (part : Nat) (bound : List (Option Nat)) (own : List Section) (x : Section) :
    List (Nat × BitVec 64) :=
  match x.type with
  | 1 => slotPattern part x
  | 6 => (streamsOf bound x).flatMap (fun d => streamWrites d.1 d.2)
  | 7 =>
    let same := (own.filter (fun y => y.type == 7 && sectionUnit y == sectionUnit x)).flatMap (s.replicationWrites part)
    let new := s.replicationWrites part x
    new ++ (same.filter (fun w => !new.any (fun y => y.1 == w.1))).map (fun w => (w.1, 0#64))
  | 8 => (descriptorsOf x).flatMap (descriptorWrites part)
  | 2 | 3 | 4 | 5 => cellWrites part x
  | _ => []

/-- The pavilion of this chip at an end of the link that a failover key names, if there is one: the pavilion itself on its own chip, or
that of the neighbour at the link's far end (R88; log entry 137). -/
def State.keyPav (s : State) (bound : List (Option Nat)) (key : Section) : Option Nat :=
  let v := ofBytes (key.bytes.take 2)
  let p := v / 4096
  match bound.getD (v % 4096) none with
  | none => none
  | some c =>
    if c = s.chipNo then some p
    else
      let f := facing p
      if (List.range 4).all (fun a => s.coord s.chipNo a ==
          (if a = f.axis then stepCoord (s.axisSize a) (s.coord c a) f.pos else s.coord c a)) then some (oppositePav p) else none

/-! ## Partition resources (10 R268, R269) -/

/-- The resources of a section: landings, shares, quotas, Ns. -/
structure Resources where
  landings : List Nat
  shares : Nat × Nat × Nat
  quotas : Nat × Nat × Nat
  ns : Nat
deriving DecidableEq, Repr

/-- Read a partition-resources section (10 R268). -/
def resourcesOf (x : Section) : Resources :=
  let v := ofBytes (x.bytes.take 64)
  let m := ofBytes (x.bytes.drop 64)
  { landings := (List.range 2048).filter (fun l => m.testBit l)
    shares := (bitsAt v 480 16, bitsAt v 464 16, bitsAt v 448 16)
    quotas := (bitsAt v 432 16, bitsAt v 416 16, bitsAt v 400 16), ns := bitsAt v 392 8 }

/-- The share that governs an output port (10 R268). -/
def shareOf (r : Resources) (level port : Nat) : Nat :=
  if level = 1 ∧ 16 ≤ port ∨ level = 2 ∧ port < 128 then r.shares.1
  else if level = 2 ∨ level = 3 ∧ port < 64 then r.shares.2.1
  else if level = 3 ∧ port < 72 then r.shares.2.2
  else 4096

/-- Whether a quota is free at a switch for a partition's landings (10 R269): those of the other HELD partitions that have a
landing below it, and the new one, within the store. -/
def State.quotaFits (s : State) (part : Nat) (r : Resources) (u : UnitId) : Bool :=
  let quota (q : Nat × Nat × Nat) : Nat := match u with | .stair _ => q.1 | .gallery _ => q.2.1 | _ => q.2.2
  let below (l : Nat) : Bool := match u with | .stair n => l / 16 == n | .gallery g => l / 256 == g | _ => true
  let others := (s.parts.filter (fun x => x.1 != part && x.2.st == .held && (match u with
    | .hall _ => true
    | _ => (List.range 2048).any (fun l => below l && s.partOf l == x.1)))).map (fun x => quota x.2.quotas)
  !r.landings.any below || decide (others.sum + quota r.quotas ≤ storeEntries u)

/-- Check 9 of R90: partition resources available on this chip (10 R269). -/
def State.resourcesOk (s : State) (part : Nat) (r : Resources) (secs : List Section) : Bool :=
  decide (1 ≤ r.landings.length) &&
  r.landings.all (fun l => decide (l < s.instCount 1) && (s.partOf l == 0xFFFF || s.partOf l == part) &&
    !(s.dom (stairOf l)).failed && !(s.dom (128 + l / 256)).failed) &&
  secs.all (fun x => x.type != 1 || x.failover ||
    decide (((valuesOf x 2).filter (· != 0)).length * 4096 ≤ shareOf r x.level x.port * (valuesOf x 2).length)) &&
  secs.all (fun x => x.type != 2 || x.failover ||
    decide (((valuesOf x 16).map (fun v => v / 2 ^ 123)).sum * 4096 ≤ r.shares.2.2 * 16 * (valuesOf x 16).length)) &&
  ((List.range 128).map UnitId.stair ++ (List.range 8).map UnitId.gallery ++ (List.range 4).map UnitId.hall).all
    (s.quotaFits part r)

/-- Check 10 of R90 on the stream descriptors of a landing. -/
def streamsOk (ns : Nat) (x : Section) : Bool :=
  x.type != 6 || (valuesOf x 32).all (fun v =>
    (bitsAt v 252 4 == 1 && decide (64 - ns ≤ bitsAt v 246 6) && !(v.testBit 221 && v.testBit 68)) || bitsAt v 252 4 == 2)

/-! ## The checks in order (R90) -/

/-- The index of the first section that fails a test. -/
def firstBad (secs : List Section) (ok : Section → Bool) : Option Nat := (secs.find? (fun x => !ok x)).map (·.index)

/-- The sections of this chip's logical number. -/
def mine (bound : List (Option Nat)) (me : Nat) (secs : List Section) : List Section :=
  secs.filter (fun x => (bound.getD x.chip none) == some me)

/-- What a plan image stages on this chip, once it has passed its checks. -/
def State.planInfo (s : State) (part : Nat) (h : PlanHeader) (secs : List Section) (digest : Nat) : PlanInfo :=
  let bound := s.bind secs
  let own := mine bound s.chipNo secs
  let normal := own.filter (fun x => !x.failover)
  let r := match normal.find? (fun x => x.type == 0x000A) with
    | some x => resourcesOf x
    | none => { landings := [], shares := (0, 0, 0), quotas := (0, 0, 0), ns := 0 }
  let colls := normal.filter (fun x => x.type == 8)
  let descs := colls.flatMap descriptorsOf
  let full := normal.filter (fun x => x.type == 2 || x.type == 3)
  let half := normal.filter (fun x => x.type == 4 || x.type == 5)
  let keyed := secs.foldl (fun (acc : Option Section × List (Section × Section)) x =>
    if x.type = 0x000C then (some x, acc.2)
    else if x.failover then (acc.1, acc.2 ++ (acc.1.toList.map (fun k => (k, x)))) else acc) (none, [])
  let failovers := keyed.2.filter (fun kx => (bound.getD kx.2.chip none) == some s.chipNo)
  let streams := normal.flatMap (streamsOf bound)
  { part := part, job := BitVec.ofNat 16 h.job, frameLen := h.frameLen, repair := h.window, holdLead := h.holdLead
    ackLag := h.ackLag, degrade := h.degrade, chips := h.chips, binding := bound.map (fun c => c.getD 0)
    digest := BitVec.ofNat 384 digest, shares := r.shares, quotas := r.quotas, ns := r.ns, landings := r.landings
    thresholds := (normal.find? (fun x => x.type == 9)).map (fun x => BitVec.ofNat 512 (ofBytes x.bytes))
    handles := descs.map (fun d => d / 2 ^ 500)
    writes := (normal.filter (fun x => x.type == 1)).flatMap (slotWrites part) ++ full.flatMap (cellWrites part) ++
      s.replicationClears part ++ (normal.filter (fun x => x.type == 7)).flatMap (s.replicationWrites part) ++
      descs.flatMap (descriptorWrites part) ++ streams.flatMap (fun x => streamWrites x.1 x.2) ++
      r.landings.map (fun l => (dkey 0x800101 (8192 + l) 0 0, BitVec.ofNat 64 r.ns)) ++
      r.landings.map (fun l => (dkey 0x080001 0 l 0, BitVec.ofNat 64 part)) ++
      [(dkey 0x180101 0 part 0, 1#64)]
    streams := streams.map (fun x => (x.1, BitVec.ofNat 256 x.2))
    tables := half.map (fun x => { pav := x.inst, kind := 0, writes := cellWrites part x }) ++
      full.map (fun x => { pav := x.inst, kind := 2, writes := cellWrites part x }) ++
      failovers.filterMap (fun kx => (s.keyPav bound kx.1).map (fun q =>
        { pav := q, kind := 1, writes := s.failoverWrites part bound normal kx.2 }))
    storeSlots := colls.flatMap storeSlotsOf
    latencies := (((full ++ half).filter (fun x => x.type == 3 || x.type == 5)).map (fun x => (x.inst, s.latencyD x.inst))).dedup }

/-- The clamp-log entry of an ownership clash that a plan image meets (R68): the entry refused, in the name of the session that loads. -/
def State.logClash (s : State) (w : Option (Nat × BitVec 64)) : State :=
  match w with
  | some x => s.clampPut (writeOf 0x182003 (keyInst x.1) 0 0 x.2) (s.plan.sess % 64) (0, 0x14, x.2.toNat, 0)
  | none => s

/-- The checks of R90 on an image: the refusal code and section, or what it stages. The failing section of a check of the
header as a whole is 0 (log entry 24). -/
def State.checkImage (s : State) (part : Nat) (bs : List Byte) : (PlanInfo ⊕ (Nat × Nat)) × State :=
  let h := planHeader bs
  let secs := sectionsOf bs
  let digestSec := secs.find? (fun x => x.type == 0x00FF)
  let digest := match digestSec with
    | some x => ofBytes (x.bytes.take 48)
    | none => 0
  if h.magic ≠ 0x5A56504C ∨ h.major ≠ 1 ∨ h.generation ≠ 1 then (.inr (9, 0), s)
  else if (match digestSec with
      | some x => sha384 (bs.take x.offset) != BitVec.ofNat 384 digest
      | none => false) then (.inr (8, (digestSec.map (·.index)).getD 0), s)
  else if !h.inRange then (.inr (9, 0), s)
  else match firstBad secs (sectionOk h) with
    | some i => (.inr (9, i), s)
    | none =>
      if digestSec.isNone ∨ (digestSec.map (fun x => x.index + 1)) ≠ some h.sections ∨
          !(List.range h.chips).all (fun c => secs.any (fun x => x.type == 0x000A && !x.failover && x.chip == c)) then (.inr (9, 0), s)
      else
        let bound := s.bind secs
        let own := mine bound s.chipNo secs
        if bound.length ≠ h.chips ∨ bound.any (·.isNone) ∨ !bound.contains (some s.chipNo) then (.inr (10, 0), s)
        else match firstBad secs (s.unitExists h) with
          | some i => (.inr (10, i), s)
          | none => match firstBad secs (repairOk h) with
            | some i => (.inr (10, i), s)
            | none =>
              let b := s.holdBound (bound.map (fun c => c.getD 0))
              if h.holdLead < 1 + (b.1 + h.frameLen - 1) / h.frameLen then (.inr (10, 0), b.2)
              else match firstBad own (s.latencyOk bound secs) with
              | some i => (.inr (10, i), b.2)
              | none => match firstBad secs (s.cellsOk bound secs h) with
                | some i => (.inr (10, i), b.2)
                | none =>
                  let clash (x : Section) : Option (Nat × BitVec 64) := if x.type = 1 then s.slotClash part (slotWrites part x) else none
                  match own.find? (fun x => (clash x).isSome) with
                  | some x => (.inr (11, x.index), b.2.logClash (clash x))
                  | none =>
                    let info := s.planInfo part h secs digest
                    let res := own.find? (fun x => x.type == 0x000A && !x.failover)
                    match res with
                    | none => (.inr (12, 0), b.2)
                    | some r =>
                      if !s.resourcesOk part (resourcesOf r) own then (.inr (12, r.index), b.2)
                      else match firstBad own (streamsOk info.ns) with
                        | some i => (.inr (10, i), b.2)
                        | none =>
                          let v := s.after (info.writes.map (fun w => { sess := 0, key := w.1, value := w.2 }))
                          let bad (x : Section) : Bool := x.type == 8 &&
                            (descriptorsOf x).any (fun d => !v.collOk (d / 2 ^ 500))
                          match firstBad own (fun x => !bad x) with
                          | some i => (.inr (10, i), b.2)
                          | none => (.inl info, b.2)

/-! ## Starting and stopping a plan (R91) -/

/-- The landings of a partition. -/
def State.landingsOf (s : State) (p : Nat) : List Nat := (List.range 2048).filter (fun l => s.partOf l == p)

/-- A destination clears the filter record of a receive descriptor's source and stream (05 R123). -/
def State.forgetStream (s : State) (l : Nat) (v : BitVec 256) : State :=
  s.onEp l (fun x => { x with filter := x.filter.filter (fun r =>
    !(r.src == BitVec.ofNat 24 (bitsAt v.toNat 222 24) && r.stream == BitVec.ofNat 17 (bitsAt v.toNat 205 17))) })

/-- Close the scheduled streams of a landing at the epoch that stops its plan: a resend still pending is abandoned, its
stream failed, counted and reported, its source range released (R91). -/
def State.stopStreams (s : State) (p l : Nat) : State :=
  let open_ := (s.ep l).entries.filter (fun x => (x.2.kind == 2 || x.2.kind == 3 || x.2.kind == 4) && !x.2.outst.isEmpty)
  let s := open_.foldl (fun s x =>
    match x.2.outst.head? with
    | some o => (s.bump 0x184004 0 p 0 16 16 1).raise (.landing l) 6 0x024 p (ctxPacket 1 o.hdr)
    | none => s) s
  let s := (s.tile l).rxs.foldl (fun s x => s.forgetStream l x.2.desc) s
  let s := s.onTile l (fun t => { t with txs := [], rxs := [], resendQ := [] })
  s.onEp l (fun x => { x with
    entries := x.entries.filter (fun e => !(e.2.kind == 2 || e.2.kind == 3 || e.2.kind == 4))
    tx := x.tx.filter (fun t => !(t.hdr.cls == 1#1))
    jobs := x.jobs.filter (fun j => match j.use with | .stream _ => false | _ => true) })

/-- The plan of a partition stops (R91). -/
def State.stopPlan (s : State) (p : Nat) : State :=
  let s := (s.landingsOf p).foldl (fun s l => s.stopStreams p l) s
  s.onPart p (fun x => { x with run := false, frameLen := 0, repair := 0, holdLead := 0, ackLag := 0, e0 := 0, e1 := 0, f1 := 0
                                digest := 0, binding := [], rate := 0, frames := 0, holds := 0, holding := false, holdAt := []
                                noticed := [], stopFrom := none, stopAt := none, tables := [], storeSlots := [], lostPavs := [] })

/-- Open the stream of a descriptor at its landing (05 R122, R129, R130): one whose entry a dynamic transaction still holds
opens when that ends. -/
def State.openStream (s : State) (l : Nat) (v : BitVec 256) : State :=
  let e := bitsAt v.toNat 246 6
  if bitsAt v.toNat 252 4 = 2 then (s.forgetStream l v).onTile l (fun t => { t with rxs := t.rxs.put e { desc := v, filled := false } })
  else
    let busy := ((s.ep l).entries.find e).isSome
    let new : TxStream :=
      { desc := v, ready := 0xFFFF#16, close := none, frame := 0, pending := false, built := none, ahead := false, aheadBuilt := none
        sentUnits := 0, seq := 0, failed := false, closed := false, closing := false, noShows := 0 }
    let s := s.onTile l (fun t => { t with txs := t.txs.put e new })
    if busy then s else s.onEp l (fun x => { x with entries := x.entries.put e { kind := 2 } })

/-- TP_SFRAME at the landings of a partition: the number of the plan frame that begins (05 R131). -/
def State.showFrame (s : State) (p : Nat) : State :=
  let x := s.part p
  (s.landingsOf p).foldl (fun s l => s.tpOut l (.tpFrame l (BitVec.ofNat 16 (x.frames - x.holds)))) s

/-- A plan starts at the epoch `e`, or takes over from the partition's running plan (R91). -/
def State.startPlan (s : State) (p e : Nat) : State :=
  match s.plan.accepted.find? (fun i => i.part == p) with
  | none => s
  | some i =>
    let old := s.part p
    let s := if old.run then s.stopPlan p else s
    let s := { s with plan := { s.plan with accepted := s.plan.accepted.filter (fun x => x.part != p) } }
    let s := s.onPart p (fun x => { x with
      st := if x.st = .free then .held else x.st, job := i.job, spans := decide (1 < i.chips), run := true, frameLen := i.frameLen
      repair := i.repair, holdLead := i.holdLead, ackLag := i.ackLag, e0 := e, e1 := e, f1 := 0, digest := i.digest
      binding := i.binding, rate := old.rate, shares := i.shares, quotas := i.quotas, degrade := i.degrade
      thresholds := i.thresholds.getD 0, tables := i.tables, storeSlots := i.storeSlots })
    let s := i.handles.foldl (fun s h => s.onColl h (fun c => { c with thr := i.thresholds })) s
    (i.streams.foldl (fun s x => s.openStream x.1 x.2) s).showFrame p

end Sys2Proof.Machine
end

