-- ==== Sys2Proof/Machine/Scheduled.lean ====
section
/-!
DEFINITION. Scheduled traffic (03): acknowledgement deadlines, frame boundaries and hold frames, plan loads, half rate and
its return, and writes of slot-table entries.
-/
namespace Sys2Proof.Machine

/-! ## Deadlines, frames and holds (R73, R76 to R79) -/

/-- The scheduled attempt of an entry that a deadline names: departed, not yet failed, and A frames old (R73). -/
def State.overdue (s : State) (l k : Nat) (seq : BitVec 16) : Option Outst :=
  (s.entry l k).outst.find? (fun o => o.hdr.seq == seq && o.hdr.cls == 1#1 && !o.failed &&
    decide (o.frame + (s.part o.hdr.part.toNat).ackLag < (s.part o.hdr.part.toNat).frames))

/-- SCHED_ACK_DEADLINE (R73): the repair window of frame k + A has ended and no ACK has come for an attempt of frame k. -/
def execSchedAckDeadline (l e : Nat) (seq : BitVec 16) (s : State) : Host.Outcome State Fault Refusal :=
  upWhen s (fun s => (s.overdue l e seq).isSome) (fun s =>
    match s.overdue l e seq with
    | some o => s.schedFail l e o
    | none => s)

/-- The frame nearest to the present one with these low 16 bits (R76). -/
def State.noticeFrame (s : State) (p : Nat) (f : BitVec 16) : Nat :=
  let now := (s.part p).frames
  let d := (f - BitVec.ofNat 16 now).toNat
  if d < 2 ^ 15 then now + d else now - (2 ^ 16 - d)

/-- Schedule a hold of the partition at a target frame that has not begun; notices for one frame make one hold (R78). -/
def State.scheduleHold (s : State) (p f : Nat) : State :=
  s.onPart p (fun x => if x.frames < f ∧ !x.holdAt.contains f then { x with holdAt := x.holdAt ++ [f] } else x)

/-- The short message of a hold notice (08 R220). -/
def holdMessage (p : Nat) (f : BitVec 16) : BitVec 32 := BitVec.ofNat 32 (1 * 2 ^ 28 + p % 1024 * 2 ^ 18 + f.toNat * 2 ^ 2)

/-- Send a hold notice over every pavilion enabled for the partition but the one it came by (R76). -/
def State.spreadHold (s : State) (p : Nat) (f : BitVec 16) (but : Option Nat) : State :=
  (s.linked.filter (fun q => s.pavEnables q p && some q != but)).foldl (fun s q => s.sendShort q (holdMessage p f)) s

/-- A notice that this chip has not forwarded yet: it is forwarded once and schedules the hold; a copy is dropped (R76). -/
def State.relayHold (s : State) (p : Nat) (f : BitVec 16) (but : Option Nat) : State :=
  let n := s.noticeFrame p f
  if (s.part p).noticed.contains n then s
  else
    let s := s.onPart p (fun x => { x with noticed := x.noticed.filter (fun g => x.frames ≤ g + 2 ^ 15) ++ [n] })
    (s.spreadHold p f but).scheduleHold p n

/-- A notice at a pavilion of a chip on which the partition runs no plan: the first is forwarded, and copies of it are dropped (R76).
The last 2,048 notices are remembered, twice the longest hold lead. -/
def State.passHold (s : State) (p : Nat) (f : BitVec 16) (q : Nat) : State :=
  if (s.part p).noticed.contains f.toNat then s
  else
    (s.onPart p (fun x => { x with noticed := x.noticed.drop (x.noticed.length - 2047) ++ [f.toNat] })).spreadHold p f (some q)

/-- HOLD_NOTICE (R76 to R79): at a relay or pavilion it is forwarded; at a landing whose target frame has begun it is late, which
is counted and reported. -/
def State.holdNotice (s : State) (u : UnitId) (p : Nat) (f : BitVec 16) : State :=
  match u with
  | .landing l =>
    if s.partOf l ≠ p ∨ !(s.part p).run then s
    else if s.noticeFrame p f ≤ (s.part p).frames then
      (s.bump 0x184002 0 p 0 0 32 1).raise u 1 0x025 p (ctxPacket 1 { unpackHeader 0 with seq := f })
    else s.relayHold p f none
  | .pavilion q => if (s.part p).run then s.relayHold p f (some q) else s.passHold p f q
  | _ => if (s.part p).run then s.relayHold p f none else s

/-- HOLD_NOTICE. -/
def execHoldNotice (u : UnitId) (part : Nat) (frame : BitVec 16) (s : State) : Host.Outcome State Fault Refusal :=
  up s (fun s => s.holdNotice u part frame)

/-- Whether the present frame of a partition has ended (R61). -/
def State.frameEnded (s : State) (p : Nat) : Bool :=
  (s.part p).run && decide ((s.part p).frames < s.frameAt p s.time)

/-- The next frame of a partition begins: a hold frame if a notice named it, counted and traced (R78; 13 R339). -/
def State.nextFrame (s : State) (p : Nat) : State :=
  let x := s.part p
  let f := x.frames + 1
  let hold := x.holdAt.contains f
  let s := s.onPart p (fun x => { x with
    frames := f, holding := hold, holds := if hold then x.holds + 1 else x.holds, holdAt := x.holdAt.filter (fun g => f < g) })
  if hold then
    let start := x.e1 + (f - x.f1) * (if x.rate = 2 ∨ x.rate = 3 then 2 * x.frameLen else x.frameLen)
    (s.bump 0x184001 0 p 0 0 64 1).trace k0 0x06 p s.time (f % 2 ^ 16 * 2 ^ 136 + start % 2 ^ 64 * 2 ^ 72)
  else s.showFrame p

/-- A source landing whose resend queue is not empty at the end of the repair window of frame k asks for a hold of frame k + H
(R76). -/
def State.raiseHolds (s : State) (p : Nat) : State :=
  let x := s.part p
  if (s.landingsOf p).any (fun l => !(s.tile l).resendQ.isEmpty) then
    s.relayHold p (BitVec.ofNat 16 (x.frames + x.holdLead)) none
  else s

/-- FRAME_BOUNDARY (R61, R76, R78): the frame ends; hold requests are raised; the next frame begins, and streams whose last
packet is settled close (05 R131). DESIGN CHOICE: the spec does not say whether an attempt that its deadline fails at this very moment
counts for the request; here the requests are raised before the deadlines of the frame act, so that it counts from the next frame on
(log entry 139). -/
def execFrameBoundary (part : Nat) (s : State) : Host.Outcome State Fault Refusal :=
  upWhen s (fun s => s.frameEnded part) (fun s =>
    let s := (s.raiseHolds part).nextFrame part
    (s.landingsOf part).foldl (fun s l => (s.tile l).txs.foldl (fun s x => s.tryClose l x.1) s) s)

/-! ## Plan loads (R90) -/

/-- Ask the host window for the next bytes of an image: at most 64 units from where the bytes read so far end (14 R360). -/
def State.loadMore (s : State) (use base have_ total : Nat) : State :=
  s.hostRequest { req := { use := use, beats := max 1 (min 64 ((total - have_ + 63) / 64)), hdr := none }
                  read := true, addr := base + have_, data := [] }

/-- Begin to read a plan image (R90): from lodge SRAM in place, from the host window by outbound reads, header first. -/
def State.startPlanLoad (s : State) (k : Nat) : State :=
  let s := { s with plan := { s.plan with running := true, status := 1, section_ := 0, sess := k, host := [], hostError := false, staged := none } }
  if s.val 0x180001 = 1 then s.loadMore 2 (s.val 0x180002) 0 64 else s

/-- PLAN_LOAD_START: a write of 0x1800:04. -/
def execPlanLoadStart (path : Path) (sess : Nat) (v : BitVec 64) (s : State) : Host.Outcome State Fault Refusal :=
  up s (fun s => s.ownWrite path sess 0x180004 0 0 0 v (fun x s => if x = 1 then s.startPlanLoad (sessKey path sess) else s))

/-- The bytes of the image being loaded, once it has been read; none while outbound reads go on. -/
def State.planBytes (s : State) : Option (List Byte) :=
  if s.val 0x180001 = 1 then
    (if s.plan.hostError ∨ (64 ≤ s.plan.host.length ∧ (planHeader s.plan.host).length ≤ s.plan.host.length) then some s.plan.host
     else none)
  else
    let a := s.val 0x180002
    some (sramRead s.lodge.sram a (min (planHeader (sramRead s.lodge.sram a 64)).length (0x200000 - a)))

/-- The end of a plan load: its status, the section that failed, and event 0x000D (R90; 12 R325). -/
def State.loadEnds (s : State) (part status sec : Nat) : State :=
  { s with plan := { s.plan with running := false, status := status, section_ := sec } }.post 0x000D (some part) (part + status * 2 ^ 16)

/-- PLAN_IMAGE_CHECK (R90): the checks, then a refusal, or the image staged for the session that started the load. An image
whose outbound read failed is refused with 9 (14 R360). -/
def State.checkPlan (s : State) : State :=
  let part := s.val 0x180003
  match s.planBytes with
  | none => s
  | some bs =>
    if s.plan.hostError then s.loadEnds part 9 0
    else
      let r := s.checkImage part bs
      match r.1 with
      | .inr e => r.2.loadEnds part e.1 e.2
      | .inl i =>
        let s := i.writes.foldl (fun s w => s.stage s.plan.sess w.1 w.2.toNat) r.2
        { s with plan := { s.plan with staged := some i, digest := i.digest } }.loadEnds part 4 0

/-- PLAN_IMAGE_CHECK. -/
def execPlanImageCheck (s : State) : Host.Outcome State Fault Refusal :=
  upWhen s (fun s => s.plan.running && s.planBytes.isSome) (fun s => s.checkPlan)

/-! ## Half rate and its return (R80 to R83) -/

/-- The slot-table ports that partitions own entries on: unit instance code and port, with the partition. -/
def State.portOwners (s : State) : List ((Nat × Nat) × Nat) :=
  (s.dict.filter (fun x => keyId x.1 == 0x182003 && keyWord x.1 == 1 && x.2 != 0#64)).map
    (fun x => ((keyInst x.1, keyRow x.1 / 4096), x.2.toNat - 1))

/-- The partitions that share a port with a member of a set; `n` bounds the growth of the rate group (R80 step 2). -/
def rateClosure (owners : List ((Nat × Nat) × Nat)) : Nat → List Nat → List Nat
  | 0, g => g
  | n + 1, g =>
    let ports := (owners.filter (fun o => g.contains o.2)).map (·.1)
    rateClosure owners n ((g ++ (owners.filter (fun o => ports.contains o.1)).map (·.2)).dedup)

/-- The rate group of a starting set that is to take a rate: 2 half, 0 full. Partitions that have it already, or that a pending
rate group holds, stay as they are (R80 step 3). None returns to full rate while a member has a failed pavilion whose tables are not
restored (R83), but for those of `back`. -/
def State.rateGroup (s : State) (start : List Nat) (rate : Nat) (back : List Nat := []) : List Nat :=
  let g := (rateClosure s.portOwners 512 (start.filter (fun p => (s.part p).run))).filter (fun p => (s.part p).run)
  if rate = 0 ∧ g.any (fun p => !(s.part p).lostPavs.isEmpty && !back.contains p) then []
  else g.filter (fun p => (s.part p).rate == (if rate = 2 then 0 else 2))

/-- The tables of one kind that a partition's plan gives it for a pavilion, as staged writes; an EMPTY slot entry releases only what the
partition owns. -/
def State.tablesOf (s : State) (p : Nat) (ok : TableWrites → Bool) : List StagedWrite :=
  let mine (w : Nat × BitVec 64) : Bool :=
    keyId w.1 != 0x182003 || w.2 != 0#64 || s.wordAt (w.1 / 16 * 16 + 1) == p + 1
  ((s.part p).tables.filter ok).flatMap (fun t => (t.writes.filter mine).map (fun w => { sess := 0, key := w.1, value := w.2 }))

/-- The table writes that a rate change of a partition makes: half-rate tables, or full-rate ones, and the failover sections of a failed
link (R82). -/
def State.rateTables (s : State) (p rate : Nat) (failed : Option Nat) : List StagedWrite :=
  s.tablesOf p (fun t => t.kind == (if rate = 2 then 0 else 2)) ++
    s.tablesOf p (fun t => t.kind == 1 && rate == 2 && some t.pav == failed)

/-- Whether an epoch carries a change of rate: a pending rate group. -/
def isRateEpoch (e : Epoch) : Bool := e.writes.any (fun w => keyId w.key == 0x181005)

/-- Ask for a rate for the rate group of a starting set: a request that falls due while a rate group is pending joins it; otherwise K0
commits it. Where a member spans chips the commit is one across chips, also beside a pending group of this chip alone (R80). -/
def State.changeRate (s : State) (start : List Nat) (rate : Nat) (failed : Option Nat) : State :=
  let g := s.rateGroup start rate
  if g.isEmpty then s
  else
    let ws := g.flatMap (fun p => ownStaged 0x181005 0 p 0 rate :: s.rateTables p rate failed)
    let spans := g.any (fun p => (s.part p).spans)
    let s := g.foldl (fun s p => s.onPart p (fun x => { x with rate := if rate = 2 then 1 else 3 })) s
    let add (e : Epoch) : Epoch := { e with writes := e.writes ++ ws, sched := true }
    if spans then s.ownCrossCommit ws
    else match s.ctl.pending with
      | some e =>
        if isRateEpoch e then { s with ctl := { s.ctl with pending := some (add e) } }
        else match s.ctl.queue.findIdx? isRateEpoch with
          | some i => { s with ctl := { s.ctl with queue := s.ctl.queue.modify i add } }
          | none => s.ownCommit ws
      | none => s.ownCommit ws

/-- The partitions that own an entry in any slot table of a unit's island (R80). -/
def State.ownersIn (s : State) (u : UnitId) : List Nat :=
  ((s.portOwners.filter (fun o => o.1.1 == instOf u)).map (·.2)).dedup

/-- Every HELD partition of the chip (R80). -/
def State.heldParts (s : State) : List Nat := (s.parts.filter (fun x => x.2.st == .held)).map (·.1)

/-- HALF_RATE_REQUEST: a write of 0x1811:01. -/
def execHalfRateRequest (path : Path) (sess : Nat) (v : BitVec 64) (s : State) : Host.Outcome State Fault Refusal :=
  up s (fun s => s.ownWrite path sess 0x181101 0 0 0 v (fun p s =>
    (s.setVal 0x181101 p).changeRate (if p < 512 then [p] else []) 2 none))

/-- FULL_RATE_RETURN_REQUEST: a write of 0x1811:02. -/
def execFullRateReturnRequest (path : Path) (sess : Nat) (v : BitVec 64) (s : State) : Host.Outcome State Fault Refusal :=
  up s (fun s => s.ownWrite path sess 0x181102 0 0 0 v (fun p s =>
    (s.setVal 0x181102 p).changeRate (if p < 512 then [p] else []) 0 none))

/-- A partition takes a rate at an epoch (R81). -/
def State.takeRate (s : State) (p rate e : Nat) : State :=
  s.onPart p (fun x => if x.run then { x with
      rate := rate, e1 := e, f1 := x.f1 + (e - x.e1) / (if x.rate = 2 ∨ x.rate = 3 then 2 * x.frameLen else x.frameLen)
      lostPavs := if rate = 0 then [] else x.lostPavs } else x)

/-- The half-rate partitions that an epoch's writes bring back after the failure of a pavilion (R83): their failed pavilions are UP
again, and a commit has restored tables of theirs. -/
def State.restored (s : State) (ws : List StagedWrite) : List Nat :=
  (s.parts.map (·.1)).filter (fun p =>
    (s.part p).run && (s.part p).rate == 2 && !(s.part p).lostPavs.isEmpty && (s.part p).lostPavs.all s.pavUp &&
    ws.any (fun w => w.sess != 0 && (
      (keyId w.key == 0x182003 && keyWord w.key == 1 && w.value.toNat == p + 1) ||
      ((keyId w.key == 0x183002 || keyId w.key == 0x183003) && s.wordAt (w.key / 16 * 16 + cellOwner) == p + 1))))

/-- The return to full rate of the partitions whose tables an epoch has restored, and of their rate group, whose other members take their
full-rate tables again (R80, R83). -/
def State.returnRestored (s : State) (ws : List StagedWrite) (e : Nat) : State :=
  let back := s.restored ws
  (s.rateGroup back 0 back).foldl (fun s p =>
    let ts := if back.contains p then [] else s.rateTables p 0 none
    (ts.foldl (fun s w => s.setWord (keyId w.key) (keyInst w.key) (keyRow w.key) (keyWord w.key) w.value.toNat) s).takeRate p 0 e) s

/-- Stream descriptors that an epoch's writes replace while their plan runs (R82). -/
def State.redescribe (s : State) (ws : List StagedWrite) : State :=
  (ws.filter (fun w => keyWord w.key == 0 && (keyId w.key == 0x800103 || keyId w.key == 0x800104))).foldl (fun s w =>
    let l := keyInst w.key % 8192
    let e := keyRow w.key
    let v := BitVec.ofNat 256 ((List.range 4).foldl (fun a i => a + s.wordAt (w.key + i) * 2 ^ (64 * i)) 0)
    s.onTile l (fun t => if keyId w.key = 0x800103 then
        (match t.txs.find e with
         | some x => { t with txs := t.txs.put e { x with desc := v } }
         | none => t)
      else match t.rxs.find e with
        | some x => { t with rxs := t.rxs.put e { x with desc := v } }
        | none => t)) s

/-- Whether half rate is in force for every partition whose slots an island serves (01 R28). -/
def State.allHalf (s : State) (ps : List Nat) : Bool := ps.all (fun p => (s.part p).rate == 2 || !(s.part p).run)

/-- The islands that run at half rate after an epoch: those of landings, stairs, galleries and halls with an entry of a partition
at half rate. A governor that has asked lowers its clock once half rate is in force for every partition that its island serves (R81; 01
R28). -/
def State.settleIslands (s : State) : State :=
  let owners := s.portOwners
  let insts := ((owners.map (·.1.1)) ++ (s.nodes.map (fun x => instOf (unitOfInst ((x.1 / 4096 + 1) * 8192 + x.1 % 4096))))).dedup
  insts.foldl (fun s i =>
    let u := unitOfInst i
    let ps := (owners.filter (fun o => o.1.1 == i)).map (·.2)
    let on := ps.any (fun p => (s.part p).rate == 2 || (s.part p).rate == 3)
    let s := if (s.node u).half == on then s else s.onNode u (fun n => { n with half := on })
    if (s.gov u).request then s.onGov u (fun g => { g with lowered := s.allHalf ps }) else s) s

/-! ## Governors (01 R28; 03 R83) -/

/-- GOVERNOR_CLOCK_REQUEST (01 R28): the governor asks half rate for every partition that owns an entry of its island, and lowers
its clock at once only where half rate is in force for all of them. -/
def execGovernorClockRequest (u : UnitId) (cause : GovCause) (s : State) : Host.Outcome State Fault Refusal :=
  up s (fun s =>
    let ps := s.ownersIn u
    let s := s.governorAsk u cause
    let s := s.changeRate ps 2 none
    if s.allHalf ps then s.onGov u (fun g => { g with lowered := true }) else s)

/-- GOVERNOR_CLEAR_TIMEOUT (03 R83): clear for 10 ms without a break; K0 commits the return. -/
def execGovernorClearTimeout (u : UnitId) (s : State) : Host.Outcome State Fault Refusal :=
  upWhen s (fun s => s.governorClear u) (fun s =>
    (s.onGov u (fun g => { g with request := false, cause := none, clearSince := none, lowered := false })).changeRate (s.ownersIn u) 0 none)

/-! ## Slot-table entries (R68, R85) -/

/-- SHADOW_SLOT_ENTRY_WRITE: a write of 0x1820:03 at a unit; staged with its owner. -/
def execShadowSlotEntryWrite (path : Path) (sess : Nat) (u : UnitId) (v : BitVec 64) (s : State) : Host.Outcome State Fault Refusal :=
  up s (fun s => s.ownWrite path sess 0x182003 (instOf u) 0 0 v (fun _ s => s))

/-- ACTIVE_SLOT_ENTRY_WRITE: a write of 0x1820:04, redirected to the shadow bank (R85). -/
def execActiveSlotEntryWrite (path : Path) (sess : Nat) (u : UnitId) (v : BitVec 64) (s : State) : Host.Outcome State Fault Refusal :=
  up s (fun s => s.ownWrite path sess 0x182004 (instOf u) 0 0 v (fun _ s => s))

end Sys2Proof.Machine
end

