-- ==== Sys2Proof/Machine/Dynamic.lean ====
section
/-!
DEFINITION. Dynamic traffic (04): the escape threshold, initiator deadlines, the plane map, drains; and the trigger of a
stillness snapshot (13 R345), which a drain timeout pulls.
-/
namespace Sys2Proof.Machine

/-! ## The back stair (R105) -/

/-- The escape threshold of a packet: 0 while its partition and VC are drained (R105, R114). -/
def State.escapeAfter (s : State) (u : UnitId) (h : Header) : Nat :=
  if (s.drain.st = 1 ∨ s.drain.st = 2) ∧ s.drain.ts ≤ s.now u ∧ s.drain.parts.contains h.part.toNat ∧ s.drain.vcs.contains h.vc.toNat then 0
  else s.val 0x100003

/-- The held header that enters the back stair: on the normal lane, not departed, released a threshold ago (R105). The threshold counts
from the release of an alignment buffer; DESIGN CHOICE: a header that the unit made itself was never released from one, and does not
enter the back stair there (log entry 141). -/
def State.escaping (s : State) (u : UnitId) (id : Nat) : Option Held :=
  (s.node u).held.find? (fun x => x.id == id && x.lane == .normal && x.inp != 4095 && x.hdr.mcast == 0#1 &&
    x.outs.all (fun c => c.sent == 0) && decide (x.rel + s.escapeAfter u x.hdr ≤ s.now u))

/-- ESCAPE_THRESHOLD_EXPIRY (R105): from this hop on the packet travels on the escape lane, routed anew with the escape choices;
it keeps the buffer it lies in. -/
def execEscapeThresholdExpiry (u : UnitId) (id : Nat) (s : State) : Host.Outcome State Fault Refusal :=
  upWhen s (fun s => (s.escaping u id).isSome) (fun s =>
    match s.escaping u id with
    | none => s
    | some x =>
      let port := (x.outs.head?.map (·.port)).getD 0
      let s := s.onHeld u id (fun y => { y with lane := .escape, outs := [] })
      (s.event u port 0x04 x.hdr.part.toNat (vcOf x.hdr) 0 1).reroute u (s.now u))

/-! ## Initiator deadlines (R111; 07 R203) -/

/-- The packet of an entry whose deadline has passed. -/
def State.expired (s : State) (e k : Nat) (seq : BitVec 16) : Option Outst :=
  (s.entry e k).outst.find? (fun o => o.hdr.seq == seq && (match o.deadline with
    | some t => decide (t ≤ s.now (epUnit e))
    | none => false))

/-- INITIATOR_DEADLINE (R111): a resend, or the end of the transaction with 0x06. A multicast packet that a hall has reported
dropped, and that no landing has NACKed, is acknowledged at its deadline (07 R203). -/
def execInitiatorDeadline (ep : Nat) (e : Nat) (seq : BitVec 16) (s : State) : Host.Outcome State Fault Refusal :=
  upWhen s (fun s => (s.expired ep e seq).isSome) (fun s =>
    match s.expired ep e seq with
    | none => s
    | some o => (if o.hallDrop ∧ !o.nacked then s.packetDone ep e o else s.failPacket ep e o).startLaunches ep)

/-! ## The plane map (R101) -/

/-- The hall of the first pavilion of a chip's escape route among those that are `ok` (R101, R105). -/
def State.planeOf (s : State) (ok : Nat → Bool) (c : Nat) : Option Nat := (s.escapePav ok c none).map (fun p => p / 4)

/-- Rewrite the plane-map entries of some chips. -/
def State.writePlanes (s : State) (ok : Nat → Bool) (cs : List Nat) : State :=
  cs.foldl (fun s c => match s.planeOf ok c with
    | some h => s.setWord 0x101004 0 c 0 h
    | none => s) s

/-- The plane map of a new chip map: every entry from the escape route with every pavilion usable (R101). -/
def State.derivePlanes (s : State) : State :=
  s.writePlanes (fun _ => true) ((List.range 1024).filter (fun c => s.chipPresent c && c != s.chipNo))

/-- PLANE_MAP_REWRITE (R101): the entries that named an unusable pavilion's hall, and whose route began with that pavilion, take
the hall that R105 chooses without it. -/
def execPlaneMapRewrite (pav : Nat) (s : State) : Host.Outcome State Fault Refusal :=
  upWhen s (fun s => !s.pavUp pav) (fun s =>
    let cs := (List.range 1024).filter (fun c => s.chipPresent c && c != s.chipNo &&
      s.word 0x101004 0 c 0 == pav / 4 && s.escapePav (fun _ => true) c none == some pav)
    s.writePlanes (fun p => p != pav && s.pavUp p) cs)

/-! ## The snapshot trigger (13 R345) -/

/-- Trigger a stillness snapshot: the capture time lies 4,000 slots ahead. A trigger that finds a snapshot under way or held is
counted. Cause 0 request, 1 drain timeout, 2 wait timeout. -/
def State.triggerSnapshot (s : State) (cause part : Nat) : State :=
  let x := s.obs.snap
  if x.st ≠ 0 then s.bump 0x386007 0 0 0 0 32 1
  else
    let y := { x with st := 1, number := x.number + 1, ts := s.time + 4000, cause := cause, part := part, records := [], omitted := false }
    { s with obs := { s.obs with snap := y } }

/-! ## Drains (R113 to R115) -/

/-- The special endpoints of the build (01 R20). -/
def State.specials (s : State) : List Nat :=
  [2048, 2049, 2050, 2051, 2060] ++ (List.range s.build.galleries).map (fun g => 2052 + g)

/-- The endpoints that take part in a drain: every special endpoint, and every landing whose domain is up (R114; 10 R281). -/
def State.drainEndpoints (s : State) : List Nat :=
  (List.range (s.instCount 1)).filter (fun l => s.domState (.landing l) == .active || s.domState (.landing l) == .doze) ++ s.specials

/-- A drain begins: no mark has come or gone (R114). -/
def State.openDrain (s : State) (d : Drain) : State :=
  { s with drain := d, nodes := s.nodes.map (fun (x : Nat × Node) => (x.1, { x.2 with marks := [], marked := [] })) }

/-- Begin a drain for a commit (R113, R114): its partitions, every VC of V, the stop time a commit lead ahead. -/
def State.startDrain (s : State) (a : CommitAsk) (parts : List Nat) : State :=
  let cross := a.scope != 0 && !(s.scopeChips a.scope a.part).isEmpty
  let f := s.crossLead a
  let lead := if cross then f.1.2 else 4000
  let s := if cross then f.2 else s
  s.openDrain { st := 1, number := (s.drain.number + 1) % 2 ^ 22, parts := parts, vcs := [1, 2, 3, 4, 5], cross := cross, ts := s.time + lead
                commit := some a, acks := [], waiting := s.drain.waiting }

/-- Whether a drain is under way, or drained for a change that has not come yet. -/
def State.drainBusy (s : State) : Bool :=
  s.drain.st == 1 || s.drain.st == 2 || (s.drain.st == 3 && (s.drain.commit.isSome || s.drain.prepare.isSome || s.drain.coord.isSome))

/-- The record of a held PREPARE. -/
def recordFor (x : Prepare) : Record :=
  { origin := x.origin, seq := x.seq, time := x.time, sess := x.sess, scope := x.scope, part := x.part }

/-- A PREPARE whose writes here need a drain of some partitions (R113): READY where they are drained, as by a drain that this chip took part
in; CONFLICT where a drain of others runs; else this chip drains, and answers when that has ended (log entry 140). -/
def State.drainForPrepare (s : State) (x : Prepare) (parts : List Nat) : State :=
  if parts.isEmpty ∨ (s.drainBusy ∧ s.drain.st = 3 ∧ parts.all (fun p => s.drain.parts.contains p)) then s.answerPrepare (recordFor x) 0
  else if s.drainBusy then s.answerPrepare (recordFor x) 4
  else s.openDrain { st := 1, number := (s.drain.number + 1) % 2 ^ 22, parts := parts, vcs := [1, 2, 3, 4, 5], ts := s.time + 4000
                     prepare := some x, waiting := s.drain.waiting }

/-- Injection resumes: deadlines run on from where they were paused (R114, R115). -/
def State.resumeAll (s : State) : State :=
  let s := { s with nodes := s.nodes.map (fun (x : Nat × Node) => (x.1, { x.2 with drainStopped := false, marks := [], marked := [] })) }
  let resume (now : Nat) (o : Outst) : Outst :=
    if o.deadline.isNone ∧ o.left ≠ 0 then { o with deadline := some (now + o.left), left := 0 } else o
  let entry (now : Nat) (e : Nat × Entry) : Nat × Entry := (e.1, { e.2 with outst := e.2.outst.map (resume now) })
  { s with eps := s.eps.map (fun (x : Nat × Endpoint) =>
      (x.1, { x.2 with entries := x.2.entries.map (entry (s.now (epUnit x.1))) })) }

/-- Take a commit that has passed R257: with a drain where it needs one, else at once. One whose partitions a running drain
covers is busy; one that needs a drain of others waits for the running drain, and for its epoch (R113, log entry 25). -/
def State.take (s : State) (a : CommitAsk) : State :=
  let ps := s.drainFor a.writes
  if ps.isEmpty then s.settle a 4000
  else if s.drainBusy then
    (if s.drain.st ≠ 3 ∧ ps.any (fun p => s.drain.parts.contains p) then
       (if a.own then { s with ctl := { s.ctl with kept := s.ctl.kept ++ [a] } } else s.commitAnswered a 4 0 0)
     else { s with drain := { s.drain with waiting := s.drain.waiting ++ [a] } })
  else s.startDrain a ps

/-- The next commit that waited for the drain to end. -/
def State.nextDrain (s : State) : State :=
  match s.drain.waiting with
  | [] => s
  | a :: rest => { s with drain := { s.drain with waiting := rest } }.take a

/-- Whether two commits are one. -/
def sameAsk (a b : CommitAsk) : Bool := a.sess == b.sess && a.req == b.req && a.own == b.own

/-- Whether the commit of a completed drain is still to take place: its epoch is planned, or it waits. -/
def State.drainHeld (s : State) (a : CommitAsk) : Bool :=
  (s.ctl.pending.toList ++ s.ctl.queue).any (fun e => e.sessions.contains a.num && a.writes.any (fun w => e.writes.contains w)) ||
  s.ctl.waiting.any (sameAsk a) || s.ctl.cross.any (fun x => sameAsk a x.ask)

/-- Whether the PREPARE that a drain was run for is still held, or its epoch is still planned. -/
def State.prepareHeld (s : State) (x : Prepare) : Bool :=
  s.ctl.prepares.contains x || (s.ctl.pending.toList ++ s.ctl.queue).any (fun e => e.time == x.time)

/-- Injection resumes once the commit of a completed drain has taken place, or will not (R114). The next drain begins. -/
def State.drainSweep (s : State) : State :=
  if s.drain.st ≠ 3 then s
  else match s.drain.commit, s.drain.prepare with
    | some a, _ => if s.drainHeld a then s else { s with drain := { s.drain with commit := none } }.resumeAll.nextDrain
    | none, some x => if s.prepareHeld x then s else { s with drain := { s.drain with prepare := none } }.resumeAll.nextDrain
    | none, none => s

/-- A drain that another chip coordinates ends here with the first epoch across chips that follows it (R114; log entry 140). -/
def State.endJoined (s : State) (e : Epoch) : State :=
  if s.drain.coord.isSome ∧ s.drain.st = 3 ∧ e.scope ≠ 0 then { s with drain := { s.drain with coord := none } }.resumeAll.nextDrain else s

/-- A FENCE_DRAIN_ACK from an endpoint of this chip to a head or sector keeper (R114). DESIGN CHOICE: the spec gives it one partition field,
and one answer stands for every partition of the drain; it names the first (log entry 142). -/
def State.sendDrainAck (s : State) (e : Nat) (dst : BitVec 24) : State :=
  s.queueTx e .fresh (s.ownHeader 0x43 4 1023 (s.addrOf e) dst
    (BitVec.ofNat 32 (s.drain.parts.headD 0 + s.drain.number % 2 ^ 22 * 2 ^ 10)) 0) [] 64

/-- The landings of a sector that take part in a drain. -/
def State.sectorLandings (s : State) (k : Nat) : List Nat := s.drainEndpoints.filter (fun l => l < 2048 && sectorKeeper l == k)

/-- What K0 waits for (R114): the special endpoints, a report of each sector keeper that has landings in the drain, and each other chip that
the drain spans. -/
def State.drainAwaits (s : State) : List Nat :=
  let chips := match s.drain.commit with
    | some a => if s.drain.cross then (s.scopeChips a.scope a.part).map (· + 4096) else []
    | none => []
  s.specials ++ ((s.specials.filter (fun k => 2052 ≤ k ∧ k < 2060 ∧ !(s.sectorLandings k).isEmpty)).map (· + 8192)) ++ chips

/-- Every endpoint, and every chip that the drain spans, has answered: the commit is accepted now, or the PREPARE answered READY, or the
head keeper that coordinates the drain is told (R114, R256). -/
def State.drainCheck (s : State) : State :=
  if s.drain.st = 2 ∧ s.drainAwaits.all (fun e => s.drain.acks.contains e) then
    let s := { s with drain := { s.drain with st := 3 } }
    match s.drain.commit, s.drain.prepare, s.drain.coord with
    | some a, _, _ => (s.settle a 4000).drainSweep
    | none, some x, _ => (s.answerPrepare (recordFor x) 0).drainSweep
    | none, none, some k => s.sendDrainAck 2051 k
    | none, none, none => s.resumeAll.nextDrain
  else s

/-- K0 takes an answer to the drain (R114). -/
def State.drainAnswered (s : State) (e : Nat) : State :=
  { s with drain := { s.drain with acks := if s.drain.acks.contains e then s.drain.acks else s.drain.acks ++ [e] } }.drainCheck

/-- A sector keeper takes the answer of a landing; when all its landings have answered it reports to K0 (R114). -/
def State.sectorAnswered (s : State) (k l : Nat) : State :=
  let had := s.drain.acks.contains l
  let s := s.drainAnswered l
  if !had && s.drain.st == 2 && (s.sectorLandings k).all (fun x => s.drain.acks.contains x) then s.sendDrainAck k (s.addrOf 2051) else s

/-- An endpoint that has every mark on every input answers its keeper (R114): a landing its sector keeper, a special endpoint
K0; K0's own answer needs no packet. -/
def State.answerMarks (s : State) (u : UnitId) : State :=
  match epOf u with
  | none => s
  | some e =>
    let n := s.node u
    let ins := if e < 2048 then [1] else outPorts u
    if s.drain.st ≠ 2 ∨ n.marked.contains (4095, 0) ∨ !ins.all (fun i => s.drainKeys.all (fun k => s.inputMarked u i k)) then s
    else
      let s := s.onNode u (fun n => { n with marked := n.marked ++ [(4095, 0)] })
      if e = 2051 then s.drainAnswered e else s.sendDrainAck e (s.addrOf (if e < 2048 then sectorKeeper e else 2051))

/-- Pause the deadlines of the drained partitions and VCs at an endpoint (R114). -/
def State.pauseDeadlines (s : State) (e : Nat) : State :=
  let t := s.now (epUnit e)
  let pause (o : Outst) : Outst :=
    if s.drain.parts.contains o.hdr.part.toNat ∧ s.drain.vcs.contains o.hdr.vc.toNat ∧ o.hdr.cls = 0#1 then
      (match o.deadline with
       | some d => { o with deadline := none, left := max 1 (d - t) }
       | none => o)
    else o
  s.onEp e (fun x => { x with entries := x.entries.map (fun (y : Nat × Entry) => (y.1, { y.2 with outst := y.2.outst.map pause })) })

/-- DRAIN_STOP (R114): at Ts an endpoint stops injecting the drained partitions, and marks its outputs. -/
def execDrainStop (u : UnitId) (s : State) : Host.Outcome State Fault Refusal :=
  upWhen s (fun s => (s.drain.st == 1 || s.drain.st == 2) && (epOf u).isSome && !(s.node u).drainStopped && decide (s.drain.ts ≤ s.now u))
    (fun s =>
      let s := { s with drain := { s.drain with st := 2 } }
      let s := s.onNode u (fun n => { n with drainStopped := true })
      ((s.pauseDeadlines ((epOf u).getD 2048)).sendMarks u).answerMarks u)

/-- A mark of a drain that another chip coordinates brings this chip into it (R114). The spec names no message that carries such a drain
from chip to chip but its marks: DESIGN CHOICE, a chip joins at the first mark that names a head keeper of another chip, at once, and takes
in each further partition that a mark names (log entry 140). -/
def State.joinDrain (s : State) (h : Header) : State :=
  let part := h.aux.toNat % 1024; let number := h.aux.toNat / 2 ^ 10
  if chipOf h.dst = s.chipNo then s
  else if s.drain.coord = some h.dst ∧ s.drain.number = number ∧ s.drain.st = 2 then
    if s.drain.parts.contains part then s
    else
      { s with
        drain := { s.drain with parts := s.drain.parts ++ [part], acks := [] }
        nodes := s.nodes.map (fun (x : Nat × Node) => (x.1, { x.2 with marked := x.2.marked.filter (· != (4095, 0)) })) }
  else if s.drainBusy ∨ (s.drain.st = 4 ∧ s.drain.number = number) then s
  else s.openDrain { st := 2, number := number, parts := [part], vcs := [1, 2, 3, 4, 5], cross := true, ts := s.time, coord := some h.dst
                     waiting := s.drain.waiting }

/-- The input that a mark counts for: on a pavilion's line two marks of a partition and VC come, one for each dateline class (log entry
123), and the second counts for the input after the line's. -/
def State.markInput (s : State) (u : UnitId) (port key : Nat) : Nat :=
  if u.level = 4 ∧ port = 2 ∧ (s.node u).marks.contains (2, key) then 3 else port

/-- FENCE_DRAIN_MARK (R114): consumed by the unit that receives it, noted for its input, VC and partition; marks that have become
due go on, and an endpoint that has them all answers. -/
def State.drainMark (s : State) (u : UnitId) (port : Nat) (p : Packet) : State :=
  let s := s.takeRx u p
  let key := p.hdr.aux.toNat % 1024 * 8 + p.hdr.vc.toNat
  if (headerFault p.hdr).isSome ∨ (checkThree p).isSome then s.discard u port p.hdr
  else
    let s := s.joinDrain p.hdr
    if p.hdr.aux.toNat / 2 ^ 10 ≠ s.drain.number ∨ s.domState u = .rejoining then s
    else
      let i := s.markInput u port key
      let s := s.onNode u (fun n => { n with marks := if n.marks.contains (i, key) then n.marks else n.marks ++ [(i, key)] })
      (s.sendMarks u).answerMarks u

/-- FENCE_DRAIN_MARK. -/
def execFenceDrainMark (u : UnitId) (port : Nat) (p : Packet) (s : State) : Host.Outcome State Fault Refusal :=
  up s (fun s => s.drainMark u port p)

/-- The answer that a FENCE_DRAIN_ACK gives K0: another chip's; a special endpoint's own; or, from a sector keeper that has answered for
itself, its report for its landings (R114). -/
def State.ackCode (s : State) (src : BitVec 24) : Nat :=
  let e := localOf src
  if chipOf src ≠ s.chipNo then 4096 + chipOf src
  else if 2052 ≤ e ∧ e < 2060 ∧ s.drain.acks.contains e then 8192 + e
  else e

/-- FENCE_DRAIN_ACK at a keeper (R114): from an endpoint of this chip, or from the head keeper of another. -/
def execFenceDrainAck (ep : Nat) (p : Packet) (s : State) : Host.Outcome State Fault Refusal :=
  up s (fun s => s.receive (epUnit ep) (epPort ep) p (fun s =>
    if ep < 2051 ∨ 2059 < ep ∨ p.hdr.aux.toNat / 2 ^ 10 ≠ s.drain.number then s.discard (epUnit ep) (epPort ep) p.hdr
    else if ep = 2051 then s.drainAnswered (s.ackCode p.hdr.src) else s.sectorAnswered ep (localOf p.hdr.src)))

/-- Slots that a drain may take (R115). -/
def State.drainLimit (s : State) : Nat := if s.drain.cross then s.val 0x100202 else s.val 0x100201

/-- Whether a drain has outlived its timeout: also a drain that another chip coordinates and whose epoch has not come (R115). -/
def State.drainLate (s : State) : Bool :=
  (s.drain.st == 1 || s.drain.st == 2 || (s.drain.st == 3 && s.drain.coord.isSome)) && decide (s.drain.ts + s.drainLimit ≤ s.time)

/-- DRAIN_TIMEOUT (R115): a snapshot, a fault for each partition, the commit refused with status 7 and its writes left staged, a PREPARE
answered CONFLICT, injection resumed at once. DESIGN CHOICE: the spec does not say from when the timeout counts; it counts from the stop time
Ts (log entry 143). -/
def execDrainTimeout (s : State) : Host.Outcome State Fault Refusal :=
  upWhen s (fun s => s.drainLate) (fun s =>
    let d := s.drain
    let s := s.triggerSnapshot 1 (d.parts.headD 1023)
    let s := d.parts.foldl (fun s p => s.raise .chip 0 0x080 p (ctxMachine 0 d.number)) s
    let s := { s with drain := { d with st := 4, commit := none, prepare := none, coord := none } }.resumeAll
    let s := match d.commit with
      | some a => if a.own then { s with ctl := { s.ctl with kept := s.ctl.kept ++ [a] } } else s.commitAnswered a 7 0 0
      | none => s
    let s := match d.prepare with
      | some x => s.answerPrepare (recordFor x) 4
      | none => s
    s.nextDrain)

end Sys2Proof.Machine
end

