-- ==== Sys2Proof/Machine/Pavilions.lean ====
section
/-!
DEFINITION. Pavilion training (08 R225 to R228), the beacons, delay and fabric time (08 R229 to R234), link failure and
chip loss (08 R226, R236 to R238).
-/
namespace Sys2Proof.Machine

/-- Training states as 0x2810:02 numbers them (R225). -/
def trainCode : Train → Nat
  | .disabled => 0 | .laneSync => 1 | .exchange => 2 | .measure => 3 | .check => 4
  | .upUnmapped => 5 | .up => 6 | .retrain => 7 | .failed => 8 | .miscabled => 9

/-- Time states as 0x2800:04 numbers them (R233). -/
def timeCode : TimeState → Nat
  | .free => 0 | .acquire => 1 | .locked => 2 | .holdover => 3 | .grand => 4 | .timeFault => 5

/-- Enter a training state: its timeout runs from here, and event 0x0009 tells it (12 R325). -/
def State.enter (s : State) (p : Nat) (st : Train) : State :=
  (s.onPav p (fun v => { v with st := st, since := s.time })).post 0x0009 none (p + 16 * trainCode st)

/-- Enter a state of the time servo; event 0x000A tells it. -/
def State.enterTime (s : State) (st : TimeState) : State :=
  let s := { s with mach := { s.mach with st := st, good := 0, bad := 0, rounds := 0, holdSince := s.time } }
  let s := s.post 0x000A none (timeCode st)
  if st = .timeFault then s.raise .chip 11 0x082 1023 (ctxMachine s.chipNo 0) else s

/-! ## Chip loss (R238) -/

/-- Whether the group of a handle holds a chip, and the handle a descriptor here. -/
def State.collHolds (s : State) (h c : Nat) : Bool := s.holdsDesc h && s.inBlock (s.desc h) c

/-- The handles whose collectives are under way on this chip. -/
def State.openColls (s : State) : List Nat := (s.colls.filter (fun x => x.2.st == 1 || x.2.st == 2)).map (·.1)

/-- K0 takes a chip as lost (R238): its bit is set, the collectives that hold it end, and the fault asks for the stop of the
partitions that span it. -/
def State.takeLost (s : State) (c : Nat) : State :=
  if s.mach.lost.contains c then s
  else
    let s := { s with mach := { s.mach with lost := s.mach.lost ++ [c] } }
    let s := s.setWord 0x280102 0 c 0 1
    let s := (s.openColls.filter (fun h => s.collHolds h c)).foldl (fun s h => s.endCollective h 8) s
    (s.post 0x000B none c).raise .chip 0 0x083 1023 (ctxMachine c 0)

/-- This chip declares a neighbour lost: it floods a CHIP_LOST and takes it itself. -/
def State.declareLost (s : State) (c : Nat) : State :=
  if s.mach.lost.contains c then s
  else
    let q := s.mach.floodSeq
    let s := { s with mach := { s.mach with floodSeq := q + 1 } }
    (s.flood none 4 (c % 4096 * 2 ^ 228 + s.chipNo % 4096 * 2 ^ 216 + q.toNat * 2 ^ 200)).takeLost c

/-- The enabled pavilions whose peer is a chip. -/
def State.pavsTo (s : State) (c : Nat) : List Nat :=
  (List.range 16).filter (fun p => s.word 0x281001 (pavInst p) 0 0 == 1 && (s.pav p).peerChip == some c)

/-- A neighbour that has sent GOING_DOWN on a pavilion is lost once every other one has left UP (R238). -/
def State.lossByGoingDown (s : State) (p : Nat) : State :=
  match (s.pav p).peerChip with
  | none => s
  | some c =>
    let ps := s.pavsTo c
    if ps.any (fun q => (s.pav q).sawGoingDown) ∧ ps.all (fun q => !s.pavUp q) then s.declareLost c else s

/-- CHIP_LOSS_TIMEOUT: every enabled pavilion to the chip has been out of UP and UP_UNMAPPED for the chip-loss time. -/
def execChipLossTimeout (c : Nat) (s : State) : Host.Outcome State Fault Refusal :=
  upWhen s (fun s => !(s.pavsTo c).isEmpty && (s.pavsTo c).all (fun p =>
      !s.pavUp p && decide ((s.pav p).downSince + s.val 0x280101 ≤ s.time)))
    (fun s => s.declareLost c)

/-- CHIP_LOST: a flooded message is relayed once and taken by K0 (R222, R238). -/
def execChipLost (p : Nat) (m : BitVec 256) (s : State) : Host.Outcome State Fault Refusal :=
  up s (fun s =>
    let key := 4 * 2 ^ 40 + bitsAt m.toNat 216 12 * 2 ^ 16 + bitsAt m.toNat 200 16
    let r := (s.tookLong p m).seenBefore p key
    let dup := (List.range 16).any (fun q => q != p && (s.pav q).seen.any (fun x => x.1 == key && s.now (.pavilion q) < x.2 + 65536))
    if r.1 || dup then r.2
    else (r.2.flood (some p) 4 (m.toNat % 2 ^ 240)).takeLost (bitsAt m.toNat 228 12))

/-! ## Leaving UP (R226, R233, R236; 03 R82) -/

/-- The partitions that own an entry of a pavilion's cell tables, or of the slot tables of its hall links (03 R80). -/
def State.cellOwners (s : State) (p : Nat) : List Nat :=
  let cells := (s.dict.filter (fun x => (keyId x.1 == 0x183002 || keyId x.1 == 0x183003) && keyInst x.1 == pavInst p &&
    keyWord x.1 == cellOwner && x.2 != 0)).map (fun x => x.2.toNat - 1)
  let links := (s.portOwners.filter (fun o => o.1.1 == instOf (.hall (p / 4)) && (o.1.2 == pavPort p 0 || o.1.2 == pavPort p 1))).map (·.2)
  (cells ++ links).dedup

/-- A failed link under a plan (03 R82): half rate with the failover sections, or a stop of the plan at the next permitted epoch
and a contained fault. A partition that is at half rate already, or about to be, takes its failover sections alone. -/
def State.failover (s : State) (p : Nat) : State :=
  let ps := (s.cellOwners p).filter (fun q => (s.part q).run)
  let has (q : Nat) : Bool := (s.part q).tables.any (fun t => t.pav == p && t.kind == 1)
  let s := ps.foldl (fun s q => s.onPart q (fun x => { x with lostPavs := (x.lostPavs ++ [p]).dedup })) s
  let slow := (ps.filter has).filter (fun q => (s.part q).rate == 1 || (s.part q).rate == 2)
  let ws := slow.flatMap (fun q => s.tablesOf q (fun t => t.kind == 1 && t.pav == p))
  let s := s.changeRate (ps.filter has) 2 (some p)
  let s := if ws.isEmpty then s else if slow.any (fun q => (s.part q).spans) then s.ownCrossCommit ws else s.ownCommit ws
  (ps.filter (fun q => !has q)).foldl (fun s q =>
    let w := ownStaged 0x181004 0 q 0 1
    (if (s.part q).spans then s.ownCrossCommit [w] else s.ownCommit [w]).raise (.pavilion p) 9 0x061 q (ctxLink p 1)) s

/-- The parent is lost: a locked chip holds its last frequency (R233). -/
def State.loseParent (s : State) : State :=
  let s := { s with mach := { s.mach with parent := none } }
  if s.mach.st = .locked then s.enterTime .holdover else s

/-- A pavilion leaves UP or UP_UNMAPPED for a state. -/
def State.leaveUp (s : State) (p : Nat) (st : Train) : State :=
  let was := s.pavUp p
  let s := if was then s.closeLine p else s
  let s := s.onPav p (fun v => { v with downSince := if was then s.time else v.downSince, announce := if was then none else v.announce })
  let s := s.enter p st
  if !was then s
  else
    let s := if s.mach.parent = some p then s.loseParent else s
    (s.failover p).lossByGoingDown p

/-- A pavilion that has just sent its last GOING_DOWN idles (R237). -/
def State.endGoingDown (s : State) (p before : Nat) : State :=
  if before = 1 ∧ (s.pav p).goingDown = 0 then
    (s.onPav p (fun x => { x with txIdle := true, txFirst := none })).leaveUp p .disabled
  else s

/-- CELL_TRANSMIT (R211, R213 to R215): at the last slot of a cell the pavilion sends it. In LANE_SYNC it sends control blocks in the
place of cells (R225). -/
def execCellTransmit (p : Nat) (s : State) : Host.Outcome State Fault Refusal :=
  upWhen s (fun s => s.now (.pavilion p) % 16 == 15 && (sendsCells (s.pav p) || (s.pav p).st == .laneSync)) (fun s =>
    let start := s.now (.pavilion p) - 15
    if sendsCells (s.pav p) then (s.sendCell p start).endGoingDown p (s.pav p).goingDown
    else if start / 16 % 2 = 1 then s.emit (.training p (Config.trainingBlock (start / 32))) else s)

/-- Enter RETRAIN (R226): counted and reported; the pavilion asks its peer in 8 cells and goes on at once to LANE_SYNC, or to FAILED
past the retrain limit. `limited` is false for the entries that the limit leaves out (log entry 27). -/
def State.retrain (s : State) (p : Nat) (limited : Bool) (reason : Nat) : State :=
  let s := (s.bump 0x281203 (pavInst p) 0 0 0 16 1).raise (.pavilion p) 9 0x061 1023 (ctxLink p 1)
  let recent := (s.pav p).retrains.filter (fun t => decide (s.time < t + 2000000000))
  let list := if limited then recent ++ [s.time] else recent
  let s := s.onPav p (fun v => { v with retrains := list, reason := reason, badFrames := 0 })
  if limited ∧ s.val 0x280104 < list.length then
    (s.onPav p (fun v => { v with reason := 6, txIdle := true, retrainCells := 0 })).leaveUp p .failed
  else (s.onPav p (fun v => { v with retrainCells := if s.pavUp p then 8 else 0 })).leaveUp p .laneSync

/-- RXRDY_FALL: a lane loses its signal (R226). -/
def execRxrdyFall (p : Nat) (_lane : Nat) (s : State) : Host.Outcome State Fault Refusal :=
  upWhen s (fun s => s.pavUp p) (fun s => s.retrain p true 0)

/-- SYNC_LOSS: four bad superframes in a row (R226). -/
def execSyncLoss (p : Nat) (s : State) : Host.Outcome State Fault Refusal :=
  upWhen s (fun s => s.pavUp p && 4 ≤ (s.pav p).badFrames / 2) (fun s => s.retrain p true 0)

/-- FEC_LIMIT_EXCEEDED: more uncorrectable codewords than the limit in a window of 2^20 codewords (R226). -/
def execFecLimitExceeded (p : Nat) (s : State) : Host.Outcome State Fault Refusal :=
  upWhen s (fun s => s.pavUp p && decide (s.val 0x280103 < (s.pav p).badWords.length)) (fun s => s.retrain p true 0)

/-- RETRAIN_REQ arrives (R226). -/
def execRetrainReq (p : Nat) (w : BitVec 32) (s : State) : Host.Outcome State Fault Refusal :=
  up s (fun s =>
    let s := s.tookShort p w
    if s.pavUp p then s.retrain p true 0 else s)

/-- GOING_DOWN arrives (R237): RETRAIN at once, outside the retrain limit. -/
def execGoingDown (p : Nat) (w : BitVec 32) (s : State) : Host.Outcome State Fault Refusal :=
  up s (fun s =>
    let s := (s.tookShort p w).onPav p (fun v => { v with sawGoingDown := true })
    if s.pavUp p then s.retrain p false 0 else s.lossByGoingDown p)

/-- TRAINING_TIMEOUT: 10 ms in LANE_SYNC, 100 µs in EXCHANGE (R225). -/
def execTrainingTimeout (p : Nat) (s : State) : Host.Outcome State Fault Refusal :=
  upWhen s (fun s => ((s.pav p).st == .laneSync && decide ((s.pav p).since + 20000000 ≤ s.time)) ||
      ((s.pav p).st == .exchange && decide ((s.pav p).since + 200000 ≤ s.time)))
    (fun s => s.retrain p false (if (s.pav p).st = .laneSync then 1 else 0))

/-! ## Training (R225 to R228) -/

/-- LANE_SYNC_ACHIEVED: EXCHANGE begins; the asymmetry in force is taken, and the chip its requested number if it has none (R225,
R227). -/
def execLaneSyncAchieved (p : Nat) (s : State) : Host.Outcome State Fault Refusal :=
  upWhen s (fun s => (s.pav p).st == .laneSync) (fun s =>
    let a := (BitVec.ofNat 16 (s.word 0x281005 (pavInst p) 0 0)).toInt
    let s := s.onPav p (fun v => { v with alpha := a, retrainCells := 0, txIdle := false, rxHalf := none, txHalf := none, longQ := []
                                          shortQ := [], rxOpen := [], rxWait := [], alarm := false, badFrames := 0, txFirst := none
                                          rxSecond := false, badWords := [] })
    let req := s.val 0x280001
    let s := if s.mach.chipNo.isNone ∧ req < 1024 then { s with mach := { s.mach with chipNo := some req } } else s
    s.enter p .exchange)

/-- Whether this chip's part of the chip map is committed. -/
def State.mapped (s : State) : Bool := s.mach.chipNo.isSome && s.chipPresent s.chipNo

/-- A coordinate of the peer on an axis. -/
def peerCoordOn (c : BitVec 14) (a : Nat) : Nat := bitsAt c.toNat (4 * a) (if a = 3 then 2 else 4)

/-- The cabling check (R228). -/
def State.cabled (s : State) (p : Nat) : Bool :=
  let v := s.pav p
  match v.peerCoord, v.peerChip with
  | some c, some n =>
    let f := facing p; let g := facing v.peerPav
    let a := f.axis
    s.axisSize a != 1 && g.axis == a && g.sib == f.sib && g.pos != f.pos &&
      (List.range 4).all (fun b => if b = a then peerCoordOn c b == stepCoord (s.axisSize b) (s.coord s.chipNo b) f.pos
        else peerCoordOn c b == s.coord s.chipNo b) &&
      s.chipPresent n && s.word 0x101001 0 n 0 % 2 ^ 14 == c.toNat
  | _, _ => false

/-- Whole slots of a delay in 1/64 slot, rounded up. -/
def slotsUp (d : Int) : Nat := ((d + 63) / 64).toNat

/-- The latency that a measured delay needs (R230). -/
def State.neededD (s : State) (p : Nat) : Nat := slotsUp (s.pav p).dRx + 4

/-- The link is up at the end of training: credits start from the peer's sizes (R218); the peer is no longer lost (R238). -/
def State.linkUp (s : State) (p : Nat) (st : Train) : State :=
  let fresh := !s.pavUp p
  let s := if fresh then s.onNode (.pavilion p) (fun n => { n with held := n.held.map (fun x => if x.inp = 2 then { x with buf := 8 } else x) }) else s
  let s := s.onPav p (fun v => if fresh then { v with sent := [], ret := [], got := [], freed := [], told := [], sawGoingDown := false, rounds := 0 } else v)
  let s := if st = .up then (match (s.pav p).peerChip with
      | some c => { s with mach := { s.mach with lost := s.mach.lost.filter (· != c) } }.setWord 0x280102 0 c 0 0
      | none => s) else s
  s.enter p st

/-- The tests of CHECK, in order (R225): chip map, cabling, and the delay against the D in force. -/
def State.runCheck (s : State) (p : Nat) : State :=
  if !s.mapped ∨ (s.pav p).peerCoord.isNone then (if (s.pav p).st = .upUnmapped then s else s.linkUp p .upUnmapped)
  else if !s.cabled p then (s.onPav p (fun v => { v with reason := 5 })).leaveUp p .miscabled
  else if s.latencyD p < s.neededD p then (if (s.pav p).st = .check then s else s.leaveUp p .check)
  else s.linkUp p .up

/-- A pavilion enters CHECK: a D that must grow is published at the next epoch, for which K0 commits itself when none is due
(R230). -/
def State.enterCheck (s : State) (p : Nat) : State :=
  let need := s.neededD p
  let s := s.enter p .check
  let s := if s.latencyD p < need then
      let s := s.onPav p (fun v => { v with newD := some need })
      if s.ctl.pending.isNone ∧ s.ctl.queue.isEmpty then s.ownCommit [ownStaged 0x183004 (pavInst p) 0 0 need] else s
    else s
  s.runCheck p

/-- At an epoch the new delays are in force; pavilions in CHECK and UP_UNMAPPED are tested again, and miscabled ones after a chip-map
commit (R225, R230). -/
def State.pavEpoch (s : State) (mapChanged : Bool) : State :=
  (List.range 16).foldl (fun s p =>
    let s := match (s.pav p).newD with
      | some d => (s.setWord 0x183004 (pavInst p) 0 0 d).onPav p (fun v => { v with newD := none })
      | none => s
    let s := if mapChanged ∧ s.pavUp p then s.sendLong p 6 (s.capability p) else s
    match (s.pav p).st with
    | .check => s.runCheck p
    | .upUnmapped => s.runCheck p
    | .miscabled => if mapChanged then s.enterCheck p else s
    | _ => s) s

/-- CAPABILITY (R223, R224): the peer's fields are taken; in EXCHANGE they decide where training goes. -/
def State.takeCapability (s : State) (p : Nat) (m : BitVec 256) : State :=
  let n := m.toNat
  let α := (BitVec.ofNat 16 (bitsAt n 173 16)).toInt
  let chip := if n.testBit 208 then some (bitsAt n 209 12) else none
  let s := s.onPav p (fun v => { v with
    peerChip := chip, peerPav := bitsAt n 204 4, peerAlpha := α
    peerCoord := if n.testBit 203 then some (BitVec.ofNat 14 (bitsAt n 189 14)) else none
    generation := if n.testBit 237 then 1 else 0
    peerSize := (List.range 9).foldl (fun f b => f.put b (bitsAt n (161 - 12 * b) 12)) v.peerSize })
  match (s.pav p).st with
  | .exchange =>
    if !n.testBit 237 then (s.onPav p (fun v => { v with reason := 2, txIdle := true })).enter p .failed
    else if (s.pav p).alpha ≠ -α then (s.onPav p (fun v => { v with reason := 3, txIdle := true })).enter p .failed
    else match chip, s.mach.chipNo with
      | some c, some own =>
        if c = own then (s.onPav p (fun v => { v with reason := 4 })).enter p .miscabled
        else (s.onPav p (fun v => { v with rounds := 0, dSum := 0, reason := 0 })).enter p .measure
      | _, _ => s
  | .upUnmapped => s.runCheck p
  | _ => s

/-- CAPABILITY. -/
def execCapability (p : Nat) (m : BitVec 256) (s : State) : Host.Outcome State Fault Refusal :=
  up s (fun s =>
    let r := (s.tookLong p m).seenBefore p (linkKey m)
    if r.1 then r.2 else r.2.takeCapability p m)

/-- PAVILION_ENABLE_WRITE: a write of 0x2810:01 (R225, R237). A pavilion that sends cells is disabled after 8 cells of GOING_DOWN; one
in FAILED or MISCABLED waits for the 1 that follows the 0. -/
def State.enablePavilion (s : State) (p v : Nat) : State :=
  let old := s.word 0x281001 (pavInst p) 0 0
  let s := s.setWord 0x281001 (pavInst p) 0 0 v
  if v = 1 ∧ old = 0 then
    match (s.pav p).st with
    | .miscabled => s.enterCheck p
    | .disabled | .failed =>
      (s.onPav p (fun x => { x with reason := 0, txIdle := false, goingDown := 0, sawGoingDown := false })).enter p .laneSync
    | _ => s.onPav p (fun x => { x with goingDown := 0 })
  else if v = 0 ∧ old = 1 then
    match (s.pav p).st with
    | .failed | .miscabled => s
    | .laneSync | .retrain => (s.onPav p (fun x => { x with txIdle := true })).enter p .disabled
    | .disabled => s
    | _ => s.onPav p (fun x => { x with goingDown := 8 })
  else s

/-- PAVILION_ENABLE_WRITE. -/
def execPavilionEnableWrite (path : Path) (sess : Nat) (p : Nat) (v : BitVec 64) (s : State) : Host.Outcome State Fault Refusal :=
  up s (fun s => s.ownWrite path sess 0x281001 (pavInst p) 0 0 v (fun v s => s.enablePavilion p v))

/-! ## Beacons and delay (R229, R230) -/

/-- Half of a value in 1/128 slot, in 1/64 slot. An odd one falls between two values, and the spec states no rounding: which of them
is taken is free (log entry 4). -/
def State.halfOf (s : State) (n : Int) : Int × State :=
  if n % 2 = 0 then (n / 2, s)
  else
    let r := s.fresh 1
    (n / 2 + r.1.toNat, r.2)

/-- The TIME_BEACON packet of a pavilion to K0 of its chip (R230). -/
def State.sendTimeBeacon (s : State) (p : Nat) (tx : BitVec 70) : State :=
  let v := s.pav p
  let r := s.halfOf v.theta
  let s := r.2
  let inl := tx.toNat / 64 * 2 ^ 192 + (BitVec.ofInt 32 v.dRx).toNat * 2 ^ 160 + (BitVec.ofInt 32 r.1).toNat * 2 ^ 128 +
    (v.peerChip.getD 0) % 4096 * 2 ^ 116 + p % 16 * 2 ^ 112 + timeCode s.mach.st * 2 ^ 109 + s.mach.hops % 256 * 2 ^ 101
  let k := s.addrOf 2051
  s.makeAt (.pavilion p) (s.ownHeader 0x34 4 1023 k k 0 (BitVec.ofNat 256 inl)) []

/-- BEACON_ROUND (R229, R231): the pavilion sends its BEACON, in UP and UP_UNMAPPED a TIME_ANNOUNCE with it. The chip's rounds are
those of its lowest linked pavilion: the grand chip's sequence and the wait for a followed one go by them. -/
def State.beaconRound (s : State) (p : Nat) (tx : BitVec 70) : State :=
  let v := s.pav p
  let s := s.onPav p (fun v => { v with roundAt := some (s.now (.pavilion p)) })
  let s := s.sendLong p 1 (tx.toNat * 2 ^ 170 + v.peerTx.toNat * 2 ^ 100 + v.peerRx.toNat * 2 ^ 30)
  if !s.pavUp p then s
  else
    let lead := s.linked.head? = some p
    let m := s.mach
    let s := if !lead then s
      else if m.st = .grand then
        { s with mach := { m with grandSeq := m.grandSeq + 1, seqSeen := m.seqSeen.put s.chipNo (m.grandSeq + 1) } }
      else { s with mach := { m with staleRounds := m.staleRounds + 1 } }
    let g := match s.mach.grand with | some g => g | none => 0xFFF
    let s := s.sendLong p 2 (g % 4096 * 2 ^ 228 + s.mach.grandSeq.toNat * 2 ^ 212 + s.mach.hops % 256 * 2 ^ 204 + timeCode s.mach.st * 2 ^ 201)
    let s := s.onPav p (fun v => { v with rounds := v.rounds + 1 })
    if (s.pav p).st = .up ∧ (s.pav p).rounds % 64 = 0 then s.sendTimeBeacon p tx else s

/-- Whether a beacon round is due: every 16 cells in MEASURE, every 256 cells in UP and UP_UNMAPPED (R225, R229). A time that has been
loaded back does not hold it up. -/
def State.roundDue (s : State) (p : Nat) : Bool :=
  let n := if s.pavUp p then 4096 else 256
  ((s.pav p).st == .measure || s.pavUp p) && (match (s.pav p).roundAt with
    | some t => decide (s.now (.pavilion p) < t ∨ t + n ≤ s.now (.pavilion p))
    | none => true)

/-- BEACON_ROUND. -/
def execBeaconRound (p : Nat) (tx : BitVec 70) (s : State) : Host.Outcome State Fault Refusal :=
  upWhen s (fun s => s.roundDue p) (fun s => s.beaconRound p tx)

/-- The slot nearest an offset in 1/64 slot; halfway the spec states none, and which of the two is taken is free (log entry 4). -/
def State.nearestSlot (s : State) (θ : Int) : Int × State :=
  if θ % 64 = 32 then
    let r := s.fresh 1
    (θ / 64 + r.1.toNat, r.2)
  else ((θ + 32) / 64, s)

/-- K0 sends a load value to every island of the die that is powered (R233; 01 R26). -/
def State.loadAll (s : State) (v : Nat) : State :=
  s.doms.foldl (fun s x => if x.2.st = .sleep then s else s.sendLoad x.1 (rejoinUnits x.1) v)
    (s.sendLoad 140 (s.specials.map UnitId.special) v)

/-- The servo takes a round's offset from the parent (R233): `n` in 1/128 slot. -/
def State.servo (s : State) (n : Int) : State :=
  let θ := Config.filterOffset s.mach.theta n
  let s := { s with mach := { s.mach with theta := θ, rounds := s.mach.rounds + 1 } }
  let a := θ.natAbs
  match s.mach.st with
  | .acquire =>
    if s.mach.rounds = 4 then
      let r := s.nearestSlot θ
      { r.2 with mach := { r.2.mach with theta := θ - 64 * r.1, good := 0 } }.loadAll (BitVec.ofInt 64 (s.time - r.1)).toNat
    else if s.mach.rounds < 4 then s
    else if a ≤ 1 then
      (if s.mach.good = 15 then s.enterTime .locked else { s with mach := { s.mach with good := s.mach.good + 1 } })
    else { s with mach := { s.mach with good := 0 } }
  | .locked =>
    if 2 < a then (if s.mach.bad = 3 then s.enterTime .timeFault else { s with mach := { s.mach with bad := s.mach.bad + 1 } })
    else { s with mach := { s.mach with bad := 0 } }
  | .holdover => if n.natAbs ≤ 4 then s.enterTime .locked else s.enterTime .timeFault
  | _ => s

/-- A beacon of the peer (R229): delay and offset of the round, once the peer echoes a stamp; the delay alarm (R230); the servo for the
parent. -/
def State.takeBeacon (s : State) (p : Nat) (m : BitVec 256) (rx : BitVec 70) : State :=
  let v := s.pav p
  let t1 : Int := bitsAt m.toNat 170 70; let t2 : Int := rx.toNat
  let t3 : Int := bitsAt m.toNat 100 70; let t4 : Int := bitsAt m.toNat 30 70
  let s := s.onPav p (fun v => { v with peerTx := BitVec.ofNat 70 (bitsAt m.toNat 170 70), peerRx := rx })
  if t3 = 0 then s
  else
    let twice : Int := (t2 - t1) + (t4 - t3) + v.alpha
    let off : Int := (t2 - t1) - (t4 - t3) - v.alpha
    let s := s.onPav p (fun v => { v with theta := off })
    if (s.pav p).st = .measure then
      s.onPav p (fun v => if v.rounds < 16 then { v with dSum := v.dSum + twice, rounds := v.rounds + 1 } else v)
    else if !s.pavUp p then s
    else
      let r := s.halfOf twice
      let s := r.2.onPav p (fun v => { v with dRx := r.1 })
      let late := (s.pav p).st = .up ∧ s.latencyD p < slotsUp r.1 + 2
      let s := if late then (s.onPav p (fun v => { v with alarm := true })).raise (.pavilion p) 9 0x062 1023 (ctxLink p 1) else s
      if s.mach.parent = some p then s.servo off else s

/-- BEACON. -/
def execBeacon (p : Nat) (m : BitVec 256) (rx : BitVec 70) (s : State) : Host.Outcome State Fault Refusal :=
  up s (fun s =>
    let r := (s.tookLong p m).seenBefore p (linkKey m)
    if r.1 then r.2 else r.2.takeBeacon p m rx)

/-- MEASURE_COMPLETE (R229, R230): the delay is the mean of 16 rounds, rounded up; the TIME_BEACON goes, and the tests of CHECK
run. -/
def execMeasureComplete (p : Nat) (s : State) : Host.Outcome State Fault Refusal :=
  upWhen s (fun s => (s.pav p).st == .measure && 16 ≤ (s.pav p).rounds) (fun s =>
    let s := s.onPav p (fun v => { v with dRx := (v.dSum + 31) / 32, alarm := false })
    (s.sendTimeBeacon p (BitVec.ofNat 70 (s.now (.pavilion p) * 64))).enterCheck p)

/-- TIME_BEACON at K0 (R230): the report is consumed; what it names the pavilion holds itself. -/
def execTimeBeacon (p : Packet) (s : State) : Host.Outcome State Fault Refusal :=
  up s (fun s => s.receive k0 0 p (fun s => s.takeIn 2051 p.hdr (fun s => s)))

/-! ## Fabric time between chips (R231 to R233) -/

/-- Whether a grand sequence is newer than another. -/
def newer (a b : BitVec 16) : Bool := let d := (a - b).toNat; decide (0 < d ∧ d < 2 ^ 15)

/-- The parent: the linked pavilion whose peer announces the fewest hops, the lower number on a tie (R232); hops from the grand chip that
this chip follows (log entry 146). -/
def State.chooseParent (s : State) : State :=
  let hopsOf (p : Nat) : Option Nat := match (s.pav p).announce with
    | some a => if some a.grand = s.mach.grand then some a.hops else none
    | none => none
  let best := s.linked.foldl (fun (b : Option (Nat × Nat)) p => match hopsOf p, b with
    | some h, none => some (p, h)
    | some h, some (q, k) => if h < k then some (p, h) else some (q, k)
    | none, b => b) none
  match best with
  | none => s
  | some (p, h) =>
    let s := { s with mach := { s.mach with parent := some p, hops := h + 1 } }
    if s.mach.st = .free then s.enterTime .acquire else s

/-- Become the grand chip (R231): hops 0, its own time, no steering. TIME_FAULT is left by a relock alone (R233). -/
def State.becomeGrand (s : State) (own : Nat) : State :=
  let s := { s with mach := { s.mach with grand := some own, hops := 0, parent := none, staleRounds := 0, grandSeq := s.mach.grandSeq + 1
                                          seqSeen := s.mach.seqSeen.put own (s.mach.grandSeq + 1) } }
  if s.mach.st = .timeFault then s else s.enterTime .grand

/-- Follow a grand chip. A chip that was GRAND is FREE again. -/
def State.follow (s : State) (g : Nat) (seq : BitVec 16) : State :=
  let s := { s with mach := { s.mach with grand := some g, grandSeq := seq, staleRounds := 0 } }
  let s := if s.mach.st = .grand then s.enterTime .free else s
  s.chooseParent

/-- TIME_ANNOUNCE (R231): the chip follows the lowest-numbered grand chip whose sequence advances. -/
def State.takeAnnounce (s : State) (p : Nat) (m : BitVec 256) : State :=
  let g := bitsAt m.toNat 228 12; let seq := BitVec.ofNat 16 (bitsAt m.toNat 212 16)
  let a : Announce := { grand := g, seq := seq, hops := bitsAt m.toNat 204 8, state := bitsAt m.toNat 201 3 }
  let s := s.onPav p (fun v => { v with announce := some a })
  let fresh := match s.mach.seqSeen.find g with | some q => newer seq q | none => true
  if 1023 < g ∨ !fresh ∨ s.mach.chipNo = some g then s.chooseParent
  else
    let s := { s with mach := { s.mach with seqSeen := s.mach.seqSeen.put g seq } }
    match s.mach.grand with
    | some k => if g ≤ k then s.follow g seq else s.chooseParent
    | none => s.follow g seq

/-- TIME_ANNOUNCE. -/
def execTimeAnnounce (p : Nat) (m : BitVec 256) (s : State) : Host.Outcome State Fault Refusal :=
  up s (fun s =>
    let r := (s.tookLong p m).seenBefore p (linkKey m)
    if r.1 then r.2 else r.2.takeAnnounce p m)

/-- The grand chips that linked neighbours announce, other than one. -/
def State.announced (s : State) (but : Option Nat) : List Nat :=
  s.linked.filterMap (fun p => match (s.pav p).announce with
    | some a => if some a.grand = but ∨ 1023 < a.grand then none else some a.grand
    | none => none)

/-- The smallest number of a list. -/
def leastOf : List Nat → Option Nat
  | [] => none
  | x :: xs => match leastOf xs with
    | some y => some (min x y)
    | none => some x

/-- GRAND_CHIP_LOST (R231): 16 rounds without an advance, or no neighbour at all. The lowest grand chip still announced is followed; an
eligible chip below it, or with none announced, becomes the grand chip itself. -/
def State.grandLost (s : State) : State :=
  let best := leastOf (s.announced s.mach.grand)
  let s := if s.mach.st = .locked then s.enterTime .holdover else s
  let s := { s with mach := { s.mach with grand := none, parent := none, staleRounds := 0 } }
  match s.mach.chipNo with
  | some own =>
    let lower : Bool := match best with | some g => decide (own < g) | none => true
    if s.val 0x280002 = 1 ∧ lower then s.becomeGrand own
    else match best with
      | some g => s.follow g (s.mach.seqSeen.get 0 g)
      | none => s
  | none => match best with
    | some g => s.follow g (s.mach.seqSeen.get 0 g)
    | none => s

/-- GRAND_CHIP_LOST. -/
def execGrandChipLost (s : State) : Host.Outcome State Fault Refusal :=
  upWhen s (fun s => s.mach.st != .grand && (decide (16 ≤ s.mach.staleRounds) || s.linked.isEmpty)) (fun s => s.grandLost)

/-- HOLDOVER_TIMEOUT (R233): the holdover limit has passed. -/
def execHoldoverTimeout (s : State) : Host.Outcome State Fault Refusal :=
  upWhen s (fun s => s.mach.st == .holdover && decide (s.mach.holdSince + s.val 0x280007 ≤ s.time)) (fun s => s.enterTime .timeFault)

/-- RELOCK_REQUEST: a write of 0x2800:08 (R233). -/
def execRelockRequest (path : Path) (sess : Nat) (v : BitVec 64) (s : State) : Host.Outcome State Fault Refusal :=
  up s (fun s => s.ownWrite path sess 0x280008 0 0 0 v (fun v s =>
    if v = 1 ∧ s.mach.st = .timeFault then s.enterTime .acquire else s))

end Sys2Proof.Machine
end

