-- ==== Sys2Proof/Machine/TilePort.lean ====
section
/-!
DEFINITION. The tile port (05): the injection arbiter and its watchdog, the dynamic descriptors of the tile and of the
host landing, the rows read for sending, the tile's semaphore operations, stream control, an owner's scrub, and the wait
timeout (13 R348).
-/
namespace Sys2Proof.Machine

/-! ## The tile's side of a landing (14 R356) -/

/-- A rise of a line of the tile port wakes the landing's domain from DOZE (14 R356; R280). -/
def State.tileWake (s : State) (l : Nat) : State :=
  match domainOf (.landing l), s.domState (.landing l) with
  | some d, .doze => s.wake d
  | _, _ => s

/-- The frame of what a tile presents: it wakes a dozing domain, and is taken where the domain is then ACTIVE; elsewhere every ready
output and every grant is low (14 R355, R356). -/
def tilePort (s : State) (l : Nat) (f : State → State) : Host.Outcome State Fault Refusal :=
  up s (fun s =>
    let s := s.tileWake l
    if s.domState (.landing l) = .active then f s else s)

/-! ## The injection arbiter (R120, R121) -/

/-- The one-hot grant word of an owner. -/
def grantWord (o : Option Nat) : BitVec 32 :=
  match o with
  | some c => BitVec.ofNat 32 (2 ^ (c % 32))
  | none => 0

/-- Make a client the owner of the injection path: the pointer moves just past it and the idle count starts. -/
def State.grantTo (s : State) (l c : Nat) : State :=
  (s.onTile l (fun t => { t with owner := some c, ptr := (c + 1) % 32, granted := true, idle := 0, presented := false, offered := none })).tpOut l (.tpGrant l (grantWord (some c)))

/-- The path is free: the head of the pending queue gets it, else nobody. -/
def State.serveQueue (s : State) (l : Nat) : State :=
  match (s.tile l).queue with
  | c :: rest => (s.onTile l (fun t => { t with queue := rest })).grantTo l c
  | [] => (s.onTile l (fun t => { t with owner := none, offered := none })).tpOut l (.tpGrant l 0)

/-- A client raises its line (R120): granted when nobody owns the path and nobody waits, else parked; the line of a
detached client is ignored. -/
def State.injectionRequest (s : State) (l c : Nat) : State :=
  let t := s.tile l
  let s := s.onTile l (fun t => { t with ireq := t.ireq ||| grantWord (some c) })
  if t.detached.getLsbD (c % 32) ∨ t.owner = some c ∨ t.queue.contains c then s
  else if t.owner.isNone ∧ t.queue.isEmpty then s.grantTo l c
  else s.onTile l (fun t => { t with queue := t.queue ++ [c] })

/-- INJECTION_REQUEST: the line's level stands until it drops, and the arbiter finds it when the domain is ACTIVE. -/
def execInjectionRequest (l client : Nat) (s : State) : Host.Outcome State Fault Refusal :=
  up s (fun s =>
    let s := s.tileWake l
    if s.domState (.landing l) = .active then s.injectionRequest l client
    else s.onTile l (fun t => { t with ireq := t.ireq ||| grantWord (some client) }))

/-- A client drops its line (R120): the owner's ownership ends and the queue is served; a parked client keeps its place. -/
def execInjectionRequestDrop (l client : Nat) (s : State) : Host.Outcome State Fault Refusal :=
  up s (fun s =>
    let s := s.onTile l (fun t => { t with ireq := t.ireq &&& ~~~ grantWord (some client) })
    if (s.tile l).owner = some client ∧ s.domState (.landing l) = .active then s.serveQueue l else s)

/-- INJECTION_WATCHDOG (R121): the owner has been idle for the watchdog count. -/
def execInjectionWatchdog (l : Nat) (s : State) : Host.Outcome State Fault Refusal :=
  upWhen s (fun s => s.domState (.landing l) == .active && (s.tile l).owner.isSome && s.val 0x042001 ≤ (s.tile l).idle) (fun s =>
    match (s.tile l).owner with
    | none => s
    | some c =>
      let s := s.onTile l (fun t => { t with detached := t.detached ||| grantWord (some c), queue := t.queue.filter (· != c) })
      let s := s.raise (.landing l) 7 0x022 (s.epPart l) (ctxScratch 0 0 c)
      let s := (s.bump 0x800003 (8192 + l) 0 0 0 32 1).setWord 0x800004 (8192 + l) 0 0 1
      s.serveQueue l)

/-! ## Dynamic descriptors (R122 to R127) -/

/-- The greatest local offset of an endpoint's descriptors plus one: the scratchpad, or the host window (02 R52). -/
def localSpace (e : Nat) : Nat := if e < 2048 then 0xC0000 else if e = 2048 then 0x1000000 else 0x200000

/-- The fields of a data transfer (R124, R125): whole units, aligned, in range. -/
def transferOk (e : Nat) (d : Desc) : Bool :=
  d.localAddr.toNat % 64 == 0 && d.remote.toNat % 64 == 0 && 1 ≤ d.length.toNat && d.length.toNat ≤ 12288 &&
    d.localAddr.toNat + 64 * d.length.toNat ≤ localSpace e

/-- The group of a multicast descriptor, in the low 20 bits of its destination; the others are reserved. -/
def descGroup (d : Desc) : Nat := d.dest.toNat % 2 ^ 20

/-- The fields that OPEN_WINDOW uses (R124). -/
def windowOk (d : Desc) : Bool :=
  let x := d.specific.toNat
  let es := bitsAt x 66 2
  let vl := bitsAt x 59 7
  d.localAddr.toNat % 64 == 0 && 1 ≤ d.length.toNat && d.length.toNat ≤ 12288 &&
    d.localAddr.toNat + 64 * d.length.toNat ≤ 0xC0000 &&
    1 ≤ bitsAt x 72 24 && bitsAt x 72 24 ≤ 0xC0000 && es != 3 && 1 ≤ vl && vl ≤ 64 / 2 ^ es

/-- Whether a tap configuration is within its layout (R139). -/
def tapCfgOk (l c : Nat) : Bool := bitsAt c 58 4 < 8 && (c.testBit 62 || bitsAt c 47 11 == l % 2048)

/-- The handle of a COLLECTIVE descriptor (07 R181). -/
def descHandle (d : Desc) : Nat := bitsAt d.specific.toNat 90 12
/-- The member count of a COLLECTIVE descriptor (07 R181). -/
def descCount (d : Desc) : Nat := bitsAt d.specific.toNat 66 24

/-- Whether a COLLECTIVE may launch at a landing (07 R181). -/
def State.launchOk (s : State) (l : Nat) (d : Desc) : Bool :=
  let h := descHandle d
  let x := s.desc h
  !d.vc5 && d.dest == 0 && d.remote == 0 && d.localAddr == 0 && d.length == 0 && d.rsem == 0 && d.rop == 0 &&
    d.operand == 0 && s.holdsDesc h && s.handleOwner h == s.partOf l &&
    (memberIndex x l).isSome && (!dDyn x || descCount d ≤ dCount x)

/-- Whether the fields of a descriptor are in range (R124, R125; 07 R181, R203). A WRITE_INLINE may name any byte (02 R52). Reserved
bits are not looked at (00 R9). -/
def State.descOk (s : State) (e op : Nat) (d : Desc) : Bool :=
  match op with
  | 1 => transferOk e d
  | 2 => !d.vc5 && 1 ≤ d.length.toNat && d.length.toNat ≤ 32 && d.localAddr.toNat + d.length.toNat ≤ localSpace e
  | 3 => !d.vc5 && transferOk e d
  | 4 => !d.vc5 && d.rop.toNat < 2
  | 5 => transferOk e d && d.rop.toNat < 2
  | 6 => d.vc5 && transferOk e d && (s.census e (descGroup d)).isSome
  | 7 => d.vc5 && transferOk e d && (s.census e (descGroup d)).isSome && d.rop.toNat < 2
  | 8 => windowOk d
  | 9 => true
  | 10 => tapCfgOk e (bitsAt d.specific.toNat 36 64)
  | 11 => true
  | 12 => s.launchOk e d
  | _ => false

/-- The entries that plan streams reserve at a landing: the active count or a larger staged one (R122). -/
def State.reservedEntries (s : State) (e : Nat) : Nat :=
  if e < 2048 then
    let k := dkey 0x800101 (8192 + e) 0 0
    (s.allStaged.filter (fun w => w.key == k)).foldl (fun m w => Nat.max m w.value.toNat) (s.wordAt k)
  else 0

/-- The lowest free entry for a dynamic descriptor (R122). -/
def State.freeEntry (s : State) (e : Nat) : Option Nat :=
  (List.range (64 - s.reservedEntries e)).find? (fun k => ((s.ep e).entries.find k).isNone)

/-- The lowest window that is not open (R132). -/
def State.freeWindow (s : State) (l : Nat) : Option Nat :=
  (List.range 64).find? (fun k => ((s.tile l).windows.find k).isNone)

/-- A descriptor whose destination is no endpoint of the machine: a chip or local number out of range, or another chip that is
not present (01 R21, 04 R103). -/
def State.noEndpoint (s : State) (op : Nat) (d : Desc) : Bool :=
  (op == 1 || op == 2 || op == 3 || op == 4 || op == 5) && (!s.endpointHere d.dest ||
    (chipOf d.dest != s.chipNo && !s.chipPresent (chipOf d.dest)))

/-- The number of packets of a descriptor (R126). -/
def packetTotal (op : Nat) (d : Desc) : Nat := if op = 2 ∨ op = 4 then 1 else (d.length.toNat + 63) / 64

/-- The window that a READ opens over its return range (R132). -/
def readWindow (k client : Nat) (d : Desc) : Window :=
  { base := d.localAddr.toNat, length := 64 * d.length.toNat, expected := 64 * d.length.toNat, got := 0, ranges := []
    client := client, order := 0, tag := d.tag, semEn := false, sem := 0, byRead := some k, permute := false, table := 0, esize := 0
    vl := 64, fill := 0, filled := false }

/-- The entry that a descriptor takes: it waits while its after bit is unmet, and a COLLECTIVE while its handle runs (R124;
07 R181). -/
def State.newEntry (s : State) (e client op : Nat) (d : Desc) (window : Option Nat) : Entry :=
  let order := (s.ep e).nextOrder
  let h := descHandle d
  { kind := 1, opcode := op, client := client, desc := some d, order := order
    waits := (d.after && s.olderOpen e client order) || op == 12
    next := 0
    total := if op = 12 then (if dDyn (s.desc h) then descCount d else dCount (s.desc h)) else packetTotal op d
    outst := [], locks := [], bytes := 0, window := window, handle := if op = 12 then h else 0 }

/-- An accepted descriptor that sends packets takes an entry, and a READ its window, and starts unless it must wait. -/
def State.openEntry (s : State) (e k client op : Nat) (d : Desc) : State :=
  let w := if op = 3 ∧ e < 2048 then s.freeWindow e else none
  let en := s.newEntry e client op d w
  let s := s.onEp e (fun x => { x with entries := x.entries.put k en, nextOrder := x.nextOrder + 1 })
  let s := match w with
    | some i => s.openWin e i (readWindow k client d)
    | none => s
  if op = 12 then s.startLaunches e else s.pump e k

/-- The landing accepts a descriptor of a client: the owner's idle count starts anew (R121). -/
def State.acceptDesc (s : State) (l : Nat) : State := s.onTile l (fun t => { t with idle := 0, presented := true, offered := none })

/-- TP_DESC_R is low: the tile goes on presenting its descriptor, and the landing takes it when it can (R122, R132). -/
def State.offerDesc (s : State) (e op : Nat) (d : Desc) : State :=
  if e < 2048 then s.onTile e (fun t => { t with presented := true, offered := some (op, d) }) else s

/-- A descriptor whose fields are in range and that sends packets (R21, R122, R126, R132). One at a landing that no running
partition holds completes with 0x02, as R273 completes the open ones (log entry 26). -/
def State.sendDesc (s : State) (e client op : Nat) (d : Desc) : State :=
  let a := s.acceptDesc e
  if s.noEndpoint op d then a.refuseDesc e client d 0x05
  else if e < 2048 ∧ (512 ≤ s.partOf e ∨ (s.tile e).aborted) then a.refuseDesc e client d 0x02
  else match s.freeEntry e with
    | none => s.offerDesc e op d
    | some k =>
      if op = 3 ∧ e < 2048 ∧ !(s.windowsAt e d.localAddr.toNat (64 * d.length.toNat)).isEmpty then a.refuseDesc e client d 0x80
      else if op = 3 ∧ e < 2048 ∧ (s.freeWindow e).isNone then s.offerDesc e op d
      else a.openEntry e k client op d

/-- A local descriptor: it acts at once, or waits under its after bit (R124, R125). -/
def State.localDesc (s : State) (e client op : Nat) (d : Desc) : State :=
  let order := (s.ep e).nextOrder
  let s := s.onEp e (fun x => { x with nextOrder := order + 1 })
  if d.after && s.olderOpen e client order then
    s.onTile e (fun t => { t with locals := t.locals ++ [{ opcode := op, client := client, desc := d, order := order }] })
  else (s.localAct e client op d order).settleTile e

/-- A descriptor at its endpoint: refused with 0x82 when malformed, else carried out (R125). The local opcodes act at the
landing alone. -/
def State.descriptor (s : State) (e client op : Nat) (d : Desc) : State :=
  let a := s.acceptDesc e
  if !s.descOk e op d then (a.refuseDesc e client d 0x82).settleTile e
  else if 8 ≤ op ∧ op ≤ 11 then a.localDesc e client op d
  else (s.sendDesc e client op d).settleTile e

/-- The idle count of a slot (R121): a slot in which the owner has presented nothing counts, while an entry is free; TP_DESC_R is low
otherwise (R122). -/
def State.countIdle (s : State) (l : Nat) : State :=
  if (s.tile l).presented then s.onTile l (fun t => { t with presented := false })
  else if (s.freeEntry l).isSome then s.onTile l (fun t => { t with idle := t.idle + 1 })
  else s

/-- The tile cycles of a slot at a landing's arbiter (R120, R121). An owner whose line is low in a cycle after its grant cycle loses the
path: the grant cycle ends with the slot, every command being a cycle of its own before that (log entry 126). A descriptor that waits for
TP_DESC_R is presented again; a line that stands high and has neither path nor place, as after a reattachment, is a new request. -/
def State.arbiterSlot (s : State) (l : Nat) : State :=
  let t := s.tile l
  let s := match t.owner with
    | none => s
    | some c =>
      if !t.ireq.getLsbD (c % 32) ∧ !t.granted then s.serveQueue l
      else
        let s := (s.onTile l (fun x => { x with granted := false })).countIdle l
        match t.offered with
        | some (op, d) => s.descriptor l c op d
        | none => s
  let t := s.tile l
  if t.ireq &&& ~~~ (t.detached ||| t.queue.foldl (fun m c => m ||| grantWord (some c)) (grantWord t.owner)) = 0 then s
  else ((List.range 32).map (fun i => (t.ptr + i) % 32)).foldl (fun s c =>
    if t.ireq.getLsbD c then s.injectionRequest l c else s) s

/-- A descriptor on TP_DESC: the owner's; with no owner none is accepted (R120, R124). -/
def State.tileDesc (s : State) (l op : Nat) (d : Desc) : State :=
  match (s.tile l).owner with
  | none => s
  | some c => s.descriptor l c op d

/-- OPCODE_WRITE (R126). -/
def execOpcodeWrite (l : Nat) (d : Desc) (s : State) : Host.Outcome State Fault Refusal := tilePort s l (fun s => s.tileDesc l 1 d)
/-- OPCODE_WRITE_INLINE (R125). -/
def execOpcodeWriteInline (l : Nat) (d : Desc) (s : State) : Host.Outcome State Fault Refusal := tilePort s l (fun s => s.tileDesc l 2 d)
/-- OPCODE_READ (R126, R132). -/
def execOpcodeRead (l : Nat) (d : Desc) (s : State) : Host.Outcome State Fault Refusal := tilePort s l (fun s => s.tileDesc l 3 d)
/-- OPCODE_SIGNAL (R125). -/
def execOpcodeSignal (l : Nat) (d : Desc) (s : State) : Host.Outcome State Fault Refusal := tilePort s l (fun s => s.tileDesc l 4 d)
/-- OPCODE_WRITE_SIGNAL (R126). -/
def execOpcodeWriteSignal (l : Nat) (d : Desc) (s : State) : Host.Outcome State Fault Refusal := tilePort s l (fun s => s.tileDesc l 5 d)
/-- OPCODE_MCAST_WRITE (07 R203). -/
def execOpcodeMcastWrite (l : Nat) (d : Desc) (s : State) : Host.Outcome State Fault Refusal := tilePort s l (fun s => s.tileDesc l 6 d)
/-- OPCODE_MCAST_WRITE_SIGNAL (07 R203). -/
def execOpcodeMcastWriteSignal (l : Nat) (d : Desc) (s : State) : Host.Outcome State Fault Refusal := tilePort s l (fun s => s.tileDesc l 7 d)
/-- OPEN_WINDOW (R132). -/
def execOpenWindow (l : Nat) (d : Desc) (s : State) : Host.Outcome State Fault Refusal := tilePort s l (fun s => s.tileDesc l 8 d)
/-- CLOSE_WINDOW (R132). -/
def execCloseWindow (l : Nat) (d : Desc) (s : State) : Host.Outcome State Fault Refusal := tilePort s l (fun s => s.tileDesc l 9 d)
/-- TAP_ARM (R139). -/
def execTapArm (l : Nat) (d : Desc) (s : State) : Host.Outcome State Fault Refusal := tilePort s l (fun s => s.tileDesc l 10 d)
/-- TAP_DISARM (R125). -/
def execTapDisarm (l : Nat) (d : Desc) (s : State) : Host.Outcome State Fault Refusal := tilePort s l (fun s => s.tileDesc l 11 d)
/-- COLLECTIVE (07 R181). -/
def execCollective (l : Nat) (d : Desc) (s : State) : Host.Outcome State Fault Refusal := tilePort s l (fun s => s.tileDesc l 12 d)

/-! ## Rows read for sending (R119) -/

/-- The request that a READ_RESP in the making answers. -/
def State.jobRequest (s : State) (e : Nat) (h : Header) : Option Packet :=
  (s.ep e).reads.find? (fun p => p.hdr.src == h.dst && p.hdr.stream == h.stream && p.hdr.seq == h.seq)

/-- Remove a source read. -/
def State.dropJob (s : State) (e : Nat) (j : ReadJob) : State := s.onEp e (fun x => { x with jobs := x.jobs.erase j })

/-- The whole data of a packet whose source bytes have been read: a contribution ends in elements of the identity (07
R183). -/
def State.jobUnits (s : State) (j : ReadJob) (bs : List Byte) : List Payload :=
  let n := j.hdr.length.toNat
  let d := s.desc (collHandle j.hdr)
  let all := if j.hdr.command = 0x20#8 then bs ++ identityBytes d ((64 * n - bs.length) / dElem d) else bs
  payloadsOf n all

/-- A built packet of a stream: for the frame that departs now, or for the next, where that has been decided on already (03 R69). -/
def TxStream.take (x : TxStream) (p : Packet) : TxStream :=
  if x.ahead ∧ p.hdr.seq + 1 = x.seq then { x with aheadBuilt := some p } else { x with built := some p }

/-- The source bytes of a packet have been read (02 R58): it is queued, or built for its slot; a first sending passes the
transmit taps (R139). A READ_RESP keeps its request's place in the read-service queue until it leaves (04 R109). -/
def State.jobDone (s : State) (e : Nat) (j : ReadJob) (bs : List Byte) : State :=
  let s := s.dropJob e j
  let h := if j.hdr.command = 0x02#8 then { j.hdr with inl := BitVec.ofNat 256 (ofBytes bs) } else j.hdr
  let us := if j.hdr.command = 0x02#8 then [] else s.jobUnits j bs
  let seen := if us.isEmpty then bs else us.flatMap payloadBytes
  let tapped (s : State) : State := if j.kind = .fresh ∧ e < 2048 then s.tapBytes e false 0 h.stream h.seq seen else s
  match j.use with
  | .response => s.queueTx e .answer h us 64
  | .entry k => (tapped s).queueTx e j.kind h us k
  | .stream k =>
    if j.kind = .fresh then
      (tapped s).onTile e (fun t => match t.txs.find k with
        | some x => { t with txs := t.txs.put k (x.take { hdr := h, data := us, tail := 0, trunc := false, resend := false }) }
        | none => t)
    else s.queueTx e .resend h us k

/-- The source bytes of a packet cannot be read (R119; 02 R51): its transaction ends with a code, its stream fails, or the
reader is answered. -/
def State.jobFailed (s : State) (e : Nat) (j : ReadJob) (code : Nat) : State :=
  let s := s.dropJob e j
  match j.use with
  | .entry k => s.endEntry e k code
  | .stream k => s.failStream e k j.hdr
  | .response => match s.jobRequest e j.hdr with
    | some p => (s.onEp e (fun x => { x with reads := x.reads.erase p })).error (epUnit e) p.hdr code
    | none => s

/-- The entry and client of a source read, for a fault's context. -/
def State.jobContext (s : State) (l : Nat) (j : ReadJob) (row : Nat) : Nat :=
  match j.use with
  | .entry k => ctxScratch (128 * row) k (s.entry l k).client
  | .stream k => ctxScratch (128 * row) k 0
  | .response => ctxScratch (128 * row) 0 0

/-- The source read that the next row of this number belongs to: rows come in request order (R117). -/
def State.jobOfRow (s : State) (l row : Nat) : Option ReadJob :=
  (s.ep l).jobs.find? (fun j => (rowsOf j.base j.bytes).contains row && (j.rows.find row).isNone)

/-- The source bytes of a read whose rows have all come. -/
def jobBytes (j : ReadJob) : List Byte :=
  (List.range j.bytes).map (fun i => BitVec.ofNat 8 ((j.rows.get 0 ((j.base + i) / 128)).toNat / 2 ^ (8 * ((j.base + i) % 128))))

/-- A row comes back on TP_SRD (R119): corrected words are reported, an uncorrectable word stops the packet. A forced error
of 11 R305 is met by the next row. -/
def State.sourceRow (s : State) (l row : Nat) (data : BitVec 1024) (corrected : Nat) (bad : Bool) : State :=
  match s.jobOfRow l row with
  | none => s
  | some j =>
    let force := (s.tile l).rowForces.headD 0
    let s := s.onTile l (fun t => { t with rowForces := t.rowForces.tail })
    let ctx := s.jobContext l j row
    let part := s.epPart l
    let u := UnitId.landing l
    let s := (List.range corrected).foldl (fun s _ => s.raise u 6 0x020 part ctx) s
    let s := if force = 1 then s.raise u 6 0x020 part (ctx + ctxForced) else s
    if bad ∨ force = 2 then
      let s := (s.raise u 6 0x021 part (if force = 2 then ctx + ctxForced else ctx)).bump 0x800503 (8192 + l) 0 0 0 16 1
      s.jobFailed l j 0x0A
    else
      let j' := { j with rows := j.rows.put row data }
      let s := s.onEp l (fun x => { x with jobs := x.jobs.map (fun y => if y = j then j' else y) })
      if (rowsOf j.base j.bytes).all (fun r => (j'.rows.find r).isSome) then s.jobDone l j' (jobBytes j') else s

/-- SOURCE_ROW_READ. -/
def execSourceRowRead (l row : Nat) (data : BitVec 1024) (corrected : Nat) (bad : Bool) (s : State) :
    Host.Outcome State Fault Refusal :=
  up s (fun s => s.sourceRow l row data corrected bad)

/-! ## Tile semaphore operations (R134, R135) -/

/-- A tile operation on TP_SEMQ: not accepted while the client has a wait pending. -/
def State.tileSem (s : State) (l client : Nat) (f : State → State) : State :=
  if ((s.tile l).waits.find client).isSome then s else f s

/-- SEM_READ. -/
def execSemRead (l client : Nat) (sem : BitVec 8) (s : State) : Host.Outcome State Fault Refusal :=
  tilePort s l (fun s => s.tileSem l client (fun s => s.tpOut l (.tpSemr l (semResp client 0 (s.sem l sem)))))

/-- A tile operation that sets a semaphore: its response is the new value, then the waits on it are tested. -/
def State.tileSet (s : State) (l client : Nat) (sem : BitVec 8) (v : BitVec 32) : State :=
  ((s.setSem l sem v).tpOut l (.tpSemr l (semResp client 0 v))).wakeWaits l

/-- SEM_ADD. -/
def execSemAdd (l client : Nat) (sem : BitVec 8) (operand : BitVec 32) (s : State) : Host.Outcome State Fault Refusal :=
  tilePort s l (fun s => s.tileSem l client (fun s => s.tileSet l client sem (s.sem l sem + operand)))

/-- SEM_SET. -/
def execSemSet (l client : Nat) (sem : BitVec 8) (operand : BitVec 32) (s : State) : Host.Outcome State Fault Refusal :=
  tilePort s l (fun s => s.tileSem l client (fun s => s.tileSet l client sem operand))

/-- A wait of a client begins, and ends at once if it is satisfied. -/
def State.beginWait (s : State) (l client : Nat) (sem : BitVec 8) (operand : BitVec 32) (take : Bool) : State :=
  let w : Wait := { sem := sem, take := take, operand := operand, start := s.now (.landing l), timedOut := false, suspended := false }
  (s.onTile l (fun t => { t with waits := t.waits.put client w })).wakeWaits l

/-- SEM_WAIT. -/
def execSemWait (l client : Nat) (sem : BitVec 8) (operand : BitVec 32) (s : State) : Host.Outcome State Fault Refusal :=
  tilePort s l (fun s => s.tileSem l client (fun s => s.beginWait l client sem operand false))

/-- SEM_WAIT_TAKE. -/
def execSemWaitTake (l client : Nat) (sem : BitVec 8) (operand : BitVec 32) (s : State) : Host.Outcome State Fault Refusal :=
  tilePort s l (fun s => s.tileSem l client (fun s => s.beginWait l client sem operand true))

/-- WAIT_TIMEOUT (13 R348): a wait pending for the wait timeout is marked, counted and reported; it stays pending. -/
def execWaitTimeout (l client : Nat) (s : State) : Host.Outcome State Fault Refusal :=
  up s (fun s => match (s.tile l).waits.find client with
    | none => s
    | some w =>
      if w.timedOut ∨ w.suspended ∨ s.now (.landing l) < w.start + s.val 0x384001 then s
      else
        let s := s.onTile l (fun t => { t with waits := t.waits.put client { w with timedOut := true } })
        (s.bump 0x800302 (8192 + l) 0 0 0 32 1).raise (.landing l) 6 0x026 (s.epPart l) (ctxScratch w.sem.toNat 0 client))

/-! ## Stream control (R131) -/

/-- A record on TP_SCTL for an entry that holds a scheduled stream; for any other it does nothing. -/
def State.streamControl (s : State) (l : Nat) (entry : BitVec 6) (f : TxStream → TxStream) : State :=
  s.onTile l (fun t => match t.txs.find entry.toNat with
    | some x => { t with txs := t.txs.put entry.toNat (f x) }
    | none => t)

/-- STREAM_READY: the ready frame of an entry. -/
def execStreamReady (l : Nat) (entry : BitVec 6) (frame : BitVec 16) (s : State) : Host.Outcome State Fault Refusal :=
  tilePort s l (fun s => s.streamControl l entry (fun x => { x with ready := frame }))

/-- STREAM_CLOSE: the close frame of an entry; a stream whose packets are all settled closes at once. -/
def execStreamClose (l : Nat) (entry : BitVec 6) (frame : BitVec 16) (s : State) : Host.Outcome State Fault Refusal :=
  tilePort s l (fun s => (s.streamControl l entry (fun x => { x with close := some frame })).tryClose l entry.toNat)

/-! ## An owner's scrub (10 R275) -/

/-- OWNER_SCRUB_REQUEST: a write of 0x8005:04 at a landing. -/
def execOwnerScrubRequest (path : Path) (sess : Nat) (l : Nat) (v : BitVec 64) (s : State) : Host.Outcome State Fault Refusal :=
  up s (fun s => s.ownWrite path sess 0x800504 (8192 + l) 0 0 v (fun v s => s.startScrub l (bitsAt v 0 24) (bitsAt v 24 14) none))

end Sys2Proof.Machine
end

