-- ==== Sys2Proof/Machine/Ending.lean ====
section
/-!
DEFINITION. Stopping and ending a partition (10 R271, R273 to R276): the stop bits, the abort at each landing, the scrubs
that the sector keepers order, the removal epoch, and the return of landings and numbers.
-/
namespace Sys2Proof.Machine

/-! ## The decision (R271, R273) -/

/-- Stop and end a partition on this chip: it is ENDING at once, and K0 commits its removal; one that is FREE or ENDING
already takes nothing more (R273). The removal is the write of the partition's row of ending progress, which no session can
make. -/
def State.beginEnding (s : State) (p : Nat) : State :=
  if p < 512 ∧ (s.part p).st = .held then
    let s := s.onPart p (fun x => { x with st := .ending, stopped := true, removal := true })
    (s.post 0x0008 (some p) (p + 2 * 2 ^ 10)).ownCommit [ownStaged 0x080204 0 p 0 1]
  else s

/-- KILL_REQUEST: a write of 0x0802:01 (R273). The value 0xFFFF names no partition. -/
def execKillRequest (path : Path) (sess : Nat) (v : BitVec 64) (s : State) : Host.Outcome State Fault Refusal :=
  up s (fun s => s.ownWrite path sess 0x080201 0 0 0 v (fun v s => s.beginEnding v))

/-! ## The stop bit at a unit (R271) -/

/-- Close a held packet of a stopped partition: one of which nothing has gone is discarded, an open one ends in a truncation
unit towards each port that it has begun on, and its rest is discarded. -/
def State.cutHeld (s : State) (u : UnitId) (x : Held) : State :=
  let begun := x.outs.filter (fun o => o.sent != 0)
  let m := (begun.map (·.sent)).foldl Nat.max 0
  let s := s.freeBuf u x.inp x.buf (x.units.length - x.freed)
  let s := if x.closed ∨ x.inp = 4095 then s else s.dropRest u x.inp x.lane x.buf false
  let resend := (x.units.head?.map (·.resend)).getD false
  if begun.isEmpty then s.onNode u (fun n => { n with held := n.held.filter (fun y => y.id != x.id) })
  else s.onHeld u x.id (fun y => { y with
    units := y.units.take m ++ [truncationUnit resend], outs := begun, closed := true, buf := 8, freed := 0 })

/-- Discard the packets of a stopped partition that a unit is putting together. -/
def State.cutAssembling (s : State) (u : UnitId) (part : Nat) : State :=
  let mine (a : Assembling) : Bool := a.hdr.part.toNat == part
  let s := (s.node u).assembling.foldl (fun s a =>
    if mine a then s.dropRest u a.inp a.lane (s.inBuffer u a.inp a.lane a.hdr) false else s) s
  s.onNode u (fun n => { n with assembling := n.assembling.filter (fun a => !mine a)
                                rxDone := n.rxDone.filter (fun p => p.hdr.part.toNat != part) })

/-- What a switch or pavilion drops of a stopped partition: its combining entries (06 R164), its report records, and the
rest of what is open on a pavilion's line. -/
def State.cutUnit (s : State) (u : UnitId) (part : Nat) : State :=
  let gone := ((s.sw u).resvs.filter (fun r => r.part == part)).map (·.handle)
  let s := if gone.isEmpty ∧ (s.sw u).reports.isEmpty then s else s.onSw u (fun w => { w with
    resvs := w.resvs.filter (fun r => r.part != part)
    chunks := w.chunks.filter (fun c => !gone.contains c.handle)
    reports := w.reports.filter (fun r => r.2.hdr.part.toNat != part) })
  match u with
  | .pavilion p => s.onPav p (fun v => { v with
      rxOpen := v.rxOpen.map (fun (x : Lane × Header × Nat × Bool) =>
        if x.2.1.part.toNat = part then (x.1, x.2.1, x.2.2.1, true) else x) })
  | _ => s

/-! ## The abort at a landing (R273 step 2) -/

/-- Disarm the taps of a landing, keeping their results. -/
def State.disarmTaps (s : State) (l : Nat) : State :=
  let s := (List.range 4).foldl (fun s k => s.setWord (0x800401 + k) (8192 + l) 0 0 0) s
  s.onTile l (fun t => { t with taps := t.taps.map (fun (x : Nat × Tap) => (x.1, { x.2 with cfg := 0 })) })

/-- A landing of a stopped partition aborts: descriptors complete with status 0x02, those that wait under their after bit among them, scheduled streams end with no close
signal, windows end, locks and entries are released, waits end with status 2, and its taps are disarmed. -/
def State.abortLanding (s : State) (l : Nat) : State :=
  let s := (s.tile l).rxs.foldl (fun s x => s.forgetStream l x.2.desc) s
  let s := (s.tile l).locals.foldl (fun s x => s.refuseDesc l x.client x.desc 2) s
  let s := s.onTile l (fun t => { t with locals := [], aborted := true, txs := [], rxs := [], resendQ := [], scrubTries := 0, scrubDue := none, scrubOk := false })
  let open_ := (s.ep l).entries.filter (fun x => x.2.kind == 1)
  let s := open_.foldl (fun s x => s.endEntry l x.1 2) s
  let s := (s.tile l).windows.foldl (fun s w => s.closeWin l w.1 2) s
  let s := s.onEp l (fun x => { x with
    entries := [], tx := x.tx.filter (fun t => t.hdr.part == 1023#10), jobs := x.jobs.filter (fun j => j.hdr.part == 1023#10)
    reads := x.reads.filter (fun p => p.hdr.part == 1023#10) })
  let s := s.onTile l (fun t => { t with launches := [] })
  let s := (s.tile l).waits.foldl (fun s w => s.endWait l w.1 2 (s.sem l w.2.sem) w.2) s
  s.disarmTaps l

/-- Endpoints discard what they still have queued of a stopped partition; a landing of it aborts. -/
def State.cutEndpoint (s : State) (u : UnitId) (part : Nat) : State :=
  match epOf u with
  | none => s
  | some e =>
    let s := s.onEp e (fun x => { x with tx := x.tx.filter (fun t => t.hdr.part.toNat != part) })
    if e < 2048 ∧ s.partOf e = part then s.abortLanding e else s

/-- STOP_BIT_SET at a unit (R271): it sets the bit, closes and discards the traffic of the partition. -/
def State.stopAt (s : State) (u : UnitId) (part : Nat) : State :=
  let s := s.onNode u (fun n => { n with stop := n.stop ++ [part] })
  let s := ((s.node u).held.filter (fun x => x.hdr.part.toNat == part)).foldl (fun s x => s.cutHeld u x) s
  ((s.cutAssembling u part).cutUnit u part).cutEndpoint u part

/-- STOP_BIT_SET: K0 has decided to stop the partition, and the unit does not hold its bit yet. -/
def execStopBitSet (u : UnitId) (part : Nat) (s : State) : Host.Outcome State Fault Refusal :=
  upWhen s (fun s => (s.part part).stopped && !(s.node u).stop.contains part) (fun s => s.stopAt u part)

/-! ## Scrubs (R274) -/

/-- The sector keeper of a landing sends a SCRUB_REQ for its whole scratchpad. -/
def State.orderScrub (s : State) (l : Nat) : State :=
  let k := sectorKeeper l
  let h := s.ownHeader 0x40 4 1023 (s.addrOf k) (s.addrOf l) (BitVec.ofNat 32 12288) 0
  let s := s.onTile l (fun t => { t with scrubTries := t.scrubTries + 1, scrubDue := some (s.time + s.val 0x080203) })
  s.queueTx k .fresh h [] 64

/-- ABORTED_REPORT: the keeper orders the scrub of a landing that has aborted. -/
def execAbortedReport (l : Nat) (s : State) : Host.Outcome State Fault Refusal :=
  upWhen s (fun s => (s.tile l).aborted && (s.tile l).scrubTries == 0) (fun s => s.orderScrub l)

/-- The partition that a landing's scrub serves: the ending one that owns it or left it in quarantine. -/
def State.scrubPart (s : State) (l : Nat) : Option Nat :=
  (s.parts.map (·.1)).find? (fun p => s.partOf l == p || (s.part p).quarantined.contains l)

/-- A scrub has failed once: it is ordered once more; the second failure leaves the landing quarantined and is reported. -/
def State.scrubFailed (s : State) (l : Nat) : State :=
  let s := (s.scrubPart l).elim s (fun p => s.onPart p (fun x => { x with scrubFails := x.scrubFails + 1 }))
  if (s.tile l).scrubTries < 2 then s.orderScrub l
  else
    let k := sectorKeeper l
    (s.onTile l (fun t => { t with scrubDue := none })).raise (.special k) 14 0x085 1023 (ctxMachine l 0)

/-- A scrub has zeroed the whole scratchpad: a landing already in quarantine returns at the next permitted epoch (R273
step 4). -/
def State.scrubDone (s : State) (l : Nat) : State :=
  let s := s.onTile l (fun t => { t with scrubDue := none, scrubOk := true })
  if s.partOf l = 0xFFFE then s.ownCommit [ownStaged 0x080001 0 l 0 0xFFFF] else s

/-- SCRUB_DONE at a keeper (05 R138; R274). -/
def execScrubDone (ep : Nat) (p : Packet) (s : State) : Host.Outcome State Fault Refusal :=
  up s (fun s => s.receive (epUnit ep) (epPort ep) p (fun s => s.takeIn ep p.hdr (fun s =>
    let l := localOf p.hdr.src
    if l < 2048 ∧ chipOf p.hdr.src = s.chipNo ∧ (s.tile l).scrubDue.isSome ∧ sectorKeeper l = ep then
      (if 12288 ≤ p.hdr.aux.toNat % 2 ^ 14 then s.scrubDone l else s.scrubFailed l)
    else s)))

/-- SCRUB_TIMEOUT: no SCRUB_DONE has come within the scrub timeout. -/
def execScrubTimeout (l : Nat) (s : State) : Host.Outcome State Fault Refusal :=
  upWhen s (fun s => match (s.tile l).scrubDue with
    | some d => decide (d ≤ s.time)
    | none => false) (fun s => s.scrubFailed l)

/-! ## The removal epoch and the return (R266, R273, R276) -/

/-- Empty every word of the committed view that a test names. -/
def State.clearWords (s : State) (f : Nat → BitVec 64 → Bool) : State :=
  let ks := (s.dict.filter (fun x => f x.1 x.2)).map (·.1)
  ks.foldl (fun s k => s.setWord (keyId k) (keyInst k) (keyRow k) (keyWord k) (objDefault (keyId k) (keyRow k) (keyWord k))) s

/-- Remove the slot-table and cell-table entries of a partition: those whose owner word names it. -/
def State.clearTables (s : State) (p : Nat) : State :=
  let owned := (s.dict.filter (fun x =>
    ((keyId x.1 == 0x182003 && keyWord x.1 == 1) || ((keyId x.1 == 0x183002 || keyId x.1 == 0x183003) && keyWord x.1 == cellOwner)) &&
      x.2.toNat == p + 1)).map (fun x => x.1 / 16)
  s.clearWords (fun k _ => owned.contains (k / 16))

/-- Whether a partition owns a table entry, a handle or a replication entry still. -/
def State.ownsEntry (s : State) (p : Nat) : Bool :=
  s.dict.any (fun x =>
    (((keyId x.1 == 0x182003 && keyWord x.1 == 1) || ((keyId x.1 == 0x183002 || keyId x.1 == 0x183003) && keyWord x.1 == cellOwner)) &&
      x.2.toNat == p + 1) ||
    (keyId x.1 == 0x220002 && keyWord x.1 == 2 && x.2.getLsbD 63 && bitsAt x.2.toNat 53 10 == p) ||
    (keyId x.1 == 0x210002 && x.2.toNat == p))

/-- The combining entries of a handle are freed at every switch (06 R164). -/
def State.freeHandle (s : State) (h : Nat) : State :=
  { s with switches := s.switches.map (fun (x : Nat × Switch) =>
      (x.1, { x.2 with resvs := x.2.resvs.filter (fun r => r.handle != h), chunks := x.2.chunks.filter (fun c => c.handle != h) })) }

/-- A landing returns to the pool: its own objects, its tile's tables and its receipt filter take their defaults (R276); its sequence
numbers go on, as other landings' filters may still hold records of them (05 R123). -/
def State.returnLanding (s : State) (l : Nat) : State :=
  let own (id : Nat) : Bool := match findObj id with
    | some o => o.acc == .own || o.acc == .ctr
    | none => false
  let s := s.clearWords (fun k _ => keyInst k == 8192 + l && own (keyId k))
  let t := s.tile l
  let t' : Tile :=
    { ireq := t.ireq, owner := t.owner, ptr := t.ptr, queue := t.queue, idle := t.idle, offered := t.offered
      presented := t.presented, granted := t.granted, scratch := t.scratch, rowForces := t.rowForces }
  let s := { s with tiles := s.tiles.put l t' }
  let s := s.onEp l (fun x => { x with filter := [], entries := [], nextOrder := 0 })
  { s with obs := { s.obs with ctrs := (s.obs.ctrs.del ((UnitId.landing l).code * 256)).del ((UnitId.landing l).code * 256 + 1) } }

/-- The removal epoch of a partition (R273 step 3). -/
def State.removePartition (s : State) (p : Nat) : State :=
  let ls := s.landingsOf p
  let s := s.stopPlan p
  let handles := (List.range 4096).filter (fun h => s.handleOwner h == p)
  let s := s.clearTables p
  let s := (s.replicationClears p).foldl (fun s w => s.setWord (keyId w.1) (keyInst w.1) (keyRow w.1) (keyWord w.1) w.2.toNat) s
  let s := s.clearWords (fun k _ => (keyId k == 0x800103 || keyId k == 0x800104) && ls.contains (keyInst k % 8192))
  let s := s.clearWords (fun k _ => (keyId k == 0x210001 || keyId k == 0x210002) && handles.contains (keyRow k))
  let s := handles.foldl (fun s h => { s.freeHandle h with colls := s.colls.del h }) s
  let s := (List.range 16).foldl (fun s i =>
    let i := 5 * 8192 + i
    let w := s.word 0x281101 i 0 (p / 64)
    if w.testBit (p % 64) then s.setWord 0x281101 i 0 (p / 64) (w - 2 ^ (p % 64)) else s) s
  let q := ls.filter (fun l => !(s.tile l).scrubOk)
  let s := ls.foldl (fun s l =>
    if (s.tile l).scrubOk then (s.setWord 0x080001 0 l 0 0xFFFF).returnLanding l else s.setWord 0x080001 0 l 0 0xFFFE) s
  s.onPart p (fun x => { x with quarantined := q, oldHandles := handles, removal := false })

/-- Landings whose map entry has come to the pool leave quarantine, at any epoch. -/
def State.leaveQuarantine (s : State) : State :=
  let back := (s.parts.flatMap (fun p => p.2.quarantined)).filter (fun l => s.partOf l == 0xFFFF)
  let s := back.foldl (fun s l => s.returnLanding l) s
  { s with parts := s.parts.map (fun (p : Nat × Partition) =>
      (p.1, { p.2 with quarantined := p.2.quarantined.filter (fun l => !back.contains l) })) }

/-- A partition in ENDING that owns nothing any more is FREE, and its stop bits clear (R266, R271). -/
def State.freeEnded (s : State) (p : Nat) : State :=
  let x := s.part p
  if x.st = .ending ∧ !x.removal ∧ x.quarantined.isEmpty ∧ (s.landingsOf p).isEmpty ∧ !s.ownsEntry p then
    let s := s.onPart p (fun x => { oldHandles := x.oldHandles })
    let s := { s with nodes := s.nodes.map (fun (n : Nat × Node) => (n.1, { n.2 with stop := n.2.stop.filter (fun q => q != p) })) }
    s.post 0x0008 (some p) p
  else s

/-- A number that a map first gives a landing is HELD, and the rows of its last job are cleared (R266, R276). -/
def State.holdNew (s : State) (p : Nat) : State :=
  let x := s.part p
  if x.st = .free ∧ !(s.landingsOf p).isEmpty then
    let rows := x.oldHandles
    let s := s.clearWords (fun k _ =>
      (([0x184001, 0x184002, 0x184003, 0x184004] : List Nat).contains (keyId k) && keyRow k == p) ||
      (([0x210201, 0x210202, 0x210203, 0x210301, 0x385001] : List Nat).contains (keyId k) && rows.contains (keyRow k)))
    (s.onPart p (fun x => { x with st := .held, oldHandles := [] })).post 0x0008 (some p) (p + 2 ^ 10)
  else s

/-- What an epoch does to the partitions of the chip once its writes are in force: quarantined landings return, ended
numbers become FREE, and new ones HELD. -/
def State.settleParts (s : State) : State :=
  let s := s.leaveQuarantine
  (List.range 512).foldl (fun s p => (s.freeEnded p).holdNew p) s

end Sys2Proof.Machine
end

