-- ==== Sys2Proof/Machine/Power.lean ====
section
/-!
DEFINITION. Power domains and hard limits (10 R277 to R289): targets, doze, going down, sleep, the rejoin and its table digest,
the supply and thermal limits, and the power cap.
-/
namespace Sys2Proof.Machine

/-! ## Units of a domain -/

/-- The units that a unit still holds. -/
def State.unitHolds (s : State) (u : UnitId) : Nat :=
  let n := s.node u
  ((n.held.map (fun x => x.units.length - x.freed)).sum + (n.ins.map (fun p => p.2.align.length)).sum)

/-! ## Loss of a domain's state (R277, R285; 13 R336) -/

/-- A neighbour closes the packets that were open on a link from a domain that it loses, and forgets the link's open lanes and
counts (02 R59; R285). -/
def State.cutLink (s : State) (v : UnitId) (port : Nat) : State :=
  let p := s.inPort v port
  let cut (s : State) (x : Option Nat) : State := match x with
    | none => s
    | some id => s.onHeld v id (fun y => if y.closed then y else
        { y with units := y.units ++ [truncationUnit ((y.units.head?.map (·.resend)).getD false)], closed := true })
  let s := cut (cut (cut s p.norm) p.esc) p.resend
  let broken := (s.node v).assembling.filter (fun a => a.inp == port)
  let s := s.onNode v (fun n => { n with
    assembling := n.assembling.filter (fun a => a.inp != port)
    rxDone := n.rxDone ++ broken.map (fun a => { hdr := a.hdr, data := a.data, tail := 0, trunc := true, resend := a.resend })
    held := (n.held.map (fun x =>
      let x := if x.inp = port then { x with buf := 8 } else x
      if x.outs.any (fun o => o.port == port) then
        { x with outs := x.outs.filter (fun o => o.port != port), closed := x.closed || x.outs.any (fun o => o.port == port && o.sent != 0) }
      else x)).filter (fun x => !(x.outs.isEmpty && x.units.length != 0 && x.freed != 0)) })
  (s.onIn v port (fun _ => {})).onOut v port (fun _ => {})

/-- The unit loses all its state; the scratchpad of a landing lies outside it (R277). -/
def State.loseUnit (s : State) (u : UnitId) : State :=
  let ports := (List.range (portCount u)).map (fun p => u.code * 256 + p)
  let s := { s with
    nodes := s.nodes.del u.code, srcs := s.srcs.del u.code, govs := s.govs.del u.code
    switches := if (s.switches.find u.code).isSome then s.switches.put u.code { alu := (s.sw u).alu } else s.switches
    obs := { s.obs with traces := s.obs.traces.del u.code, ctrs := ports.foldl (fun c k => c.del k) s.obs.ctrs } }
  let counts (id : Nat) : Bool := match findObj id with
    | some o => o.range == .zero
    | none => false
  let s := s.clearWords (fun k _ => keyInst k == instOf u && keyInst k != 0 && counts (keyId k))
  match u with
  | .landing l =>
    let t := s.tile l
    let t' : Tile := { ireq := t.ireq, scratch := t.scratch, aborted := t.aborted, scrubTries := t.scrubTries, scrubDue := t.scrubDue
                       scrubOk := t.scrubOk }
    { s with eps := s.eps.del l, tiles := s.tiles.put l t' }
  | .pavilion p => s.onPav p (fun v => { peerChip := v.peerChip, generation := v.generation, downSince := s.time })
  | _ => s

/-- A domain's islands lose their state, and its neighbours the links into it. -/
def State.loseDomain (s : State) (d : Nat) : State :=
  let us := rejoinUnits d
  let s := us.foldl (fun s u => (List.range (portCount u)).foldl (fun s q => match peer u q with
    | some (v, port) => if us.contains v then s else s.cutLink v port
    | none => s) s) s
  us.foldl (fun s u => s.loseUnit u) { s with loads := s.loads.del d }

/-- A domain is power-gated (R277); one whose target is ACTIVE again is powered at once. -/
def State.enterSleep (s : State) (d : Nat) : State :=
  let s := (s.loseDomain d).onDom d (fun x => { x with st := .sleep, since := s.time })
  if (s.dom d).target = 0 then s.wake d else s

/-- A domain begins to go down (R279). -/
def State.enterGoingDown (s : State) (d : Nat) : State :=
  s.onDom d (fun x => { x with st := .goingDown, since := s.time })

/-! ## Targets, doze and sleep (R277, R278, R280) -/

/-- The effect of a permitted target: 0 ACTIVE, 1 DOZE, 2 SLEEP. A write wakes a domain in DOZE; one whose target is SLEEP then
goes down (R280, log entry 28). -/
def State.setTarget (s : State) (d target : Nat) : State :=
  let s := s.onDom d (fun x => { x with target := target })
  match (s.dom d).st, target with
  | .active, 1 => s.onDom d (fun x => { x with st := .doze, since := s.time })
  | .active, 2 => s.enterGoingDown d
  | .doze, 0 => s.wake d
  | .doze, 2 => (s.wake d).enterGoingDown d
  | .sleep, 0 => s.wake d
  | _, _ => s

/-- DOMAIN_TARGET_WRITE: a write of 0x8020:01 at a domain's unit. -/
def execDomainTargetWrite (path : Path) (sess : Nat) (u : UnitId) (v : BitVec 64) (s : State) : Host.Outcome State Fault Refusal :=
  up s (fun s => s.ownWrite path sess 0x802001 (instOf u) 0 0 v (fun v s => match domainOf u with
    | some d => s.setTarget d v
    | none => s))

/-- Whether a domain is idle: none of its units holds or awaits anything. -/
def State.domainIdle (s : State) (d : Nat) : Bool := (rejoinUnits d).all s.unitEmpty

/-- Whether a domain has been ACTIVE and idle for some slots (log entry 153). -/
def State.idleFor (s : State) (d n : Nat) : Bool :=
  s.domainIdle d && decide ((s.dom d).since + n ≤ s.time) && (rejoinUnits d).all (fun u => decide ((s.node u).busyAt + n ≤ s.time))

/-- DOZE_DELAY_EXPIRY (R277): an idle domain enters DOZE once the doze delay has passed, where DOZE is permitted. -/
def execDozeDelayExpiry (u : UnitId) (s : State) : Host.Outcome State Fault Refusal :=
  upWhen s (fun s => match domainOf u with
      | some d => (s.dom d).st == .active && s.val 0x041201 != 0 && s.idleFor d (s.val 0x041201) && s.domainMay d 1
      | none => false)
    (fun s => match domainOf u with
      | some d => s.onDom d (fun x => { x with st := .doze, since := s.time })
      | none => s)

/-- DOZE_WAKE (R280; 14 R356): a wake reaches a domain in DOZE. -/
def execDozeWake (u : UnitId) (s : State) : Host.Outcome State Fault Refusal :=
  upWhen s (fun s => s.domState u == .doze) (fun s => match domainOf u with
    | some d => s.wake d
    | none => s)

/-- GOING_DOWN_END (R277): every buffer is empty and every answer sent, or 8,000 slots have passed; what is left is discarded
and counted. -/
def execGoingDownEnd (u : UnitId) (s : State) : Host.Outcome State Fault Refusal :=
  upWhen s (fun s => match domainOf u with
      | some d => (s.dom d).st == .goingDown && (s.domainIdle d || decide ((s.dom d).since + 8000 ≤ s.time))
      | none => false)
    (fun s => match domainOf u with
      | some d =>
        let left := ((rejoinUnits d).map s.unitHolds).sum
        let s := s.enterSleep d
        if left = 0 then s else s.bump 0x802004 (instOf (domainUnit d)) 0 0 0 16 left
      | none => s)

/-! ## The rejoin (R282) -/

/-- A domain enters REJOINING: K0 sends its islands the fabric time to load, and its units' tables are loaded from the master copy as it
stands. -/
def State.enterRejoining (s : State) (d : Nat) : State :=
  (s.sendLoad d (rejoinUnits d) s.time).onDom d
    (fun x => { x with st := .rejoining, since := s.time, attempts := 0, matched := [], epochAt := s.ctl.epoch })

/-- WAKING_COMPLETE (R277): 40,000 slots after power-up. At start-up the self-test ends WAKING instead (14 R352). -/
def execWakingComplete (u : UnitId) (s : State) : Host.Outcome State Fault Refusal :=
  upWhen s (fun s => match domainOf u with
      | some d => (s.dom d).st == .waking && !(s.dom d).supplyReset && s.boot.progress == 3 && decide ((s.dom d).poweredAt + 40000 ≤ s.time)
      | none => false)
    (fun s => match domainOf u with
      | some d => s.enterRejoining d
      | none => s)

/-- The tables of a unit: object, rows, words of an entry, bytes of an entry (R282; log entry 29): slot tables of its ports (03
R65), cell tables (03 R84), replication entries (07 R199), stream descriptors (05 R129, R130). -/
def unitTables (u : UnitId) : List (Nat × List Nat × Nat × Nat) :=
  let ports := (List.range (portCount u)).filter (hasTable u)
  let slots := ports.flatMap (fun p => (List.range 4096).map (fun i => p * 4096 + i))
  match u with
  | .landing _ => [(0x182003, slots, 1, 2), (0x800103, List.range 64, 4, 32), (0x800104, List.range 64, 4, 32)]
  | .pavilion _ => [(0x183002, List.range 512, 2, 16), (0x183003, List.range 512, 1, 4)]
  | .special _ => []
  | .chip => []
  | _ => [(0x182003, slots, 1, 2), (0x220002, List.range 4096, 3, 24)]

/-- The bytes of one bank of a table, by the value of a word. -/
def bankBytes (t : Nat × List Nat × Nat × Nat) (word : Nat → Nat → Nat) : List Byte :=
  t.2.1.flatMap (fun row =>
    bytesOf t.2.2.2 ((List.range t.2.2.1).foldl (fun a w => a + word row w * 2 ^ (64 * w)) 0))

/-- The reference digest of a unit's tables (R282 step 3): each table's active bank, then its shadow bank, which holds the
committed values with the staged ones over them, then the epoch number. -/
def State.tableDigest (s : State) (u : UnitId) : BitVec 64 :=
  let staged := s.allStaged
  let inst := instOf u
  let shadow (id row w : Nat) : Nat := match staged.find? (fun x => x.key == dkey id inst row w) with
    | some x => x.value.toNat
    | none => s.word id inst row w
  let bytes := (unitTables u).flatMap (fun t =>
    bankBytes t (fun row w => s.word t.1 inst row w) ++ bankBytes t (fun row w => shadow t.1 row w))
  crc64 (bytes ++ bytesOf 4 s.ctl.epoch.toNat) 0

/-- A domain is ACTIVE: its neighbours' link-state bits are set (R282 step 4), enabled pavilions train, the stairs that wait for
their gallery are powered, and the commits that waited for it are placed. -/
def State.domainActive (s : State) (d : Nat) : State :=
  let x := s.dom d
  let s := s.onDom d (fun x => { x with st := .active, since := s.time, supplyReset := false })
  let s := s.setWord 0x802003 (instOf (domainUnit d)) 0 0 (x.attempts % 256 * 2 ^ 24 + (s.time - x.poweredAt) % 2 ^ 24)
  let s := if d < 136 then s else (List.range 4).foldl (fun s i =>
    let p := 4 * (d - 136) + i
    if s.word 0x281001 (pavInst p) 0 0 = 1 ∧ (s.pav p).st = .disabled then s.enter p .laneSync else s) s
  let s := if d < 128 ∨ 136 ≤ d then s else (List.range 16).foldl (fun s i =>
    let e := 16 * (d - 128) + i
    if (s.dom e).st = .sleep ∧ (s.dom e).target = 0 then s.wake e else s) s
  s.settleWaiting

/-- REJOIN_CHECK: a unit's digest and epoch number against K0's (R282). An epoch since the load makes the check repeat and counts
as no mismatch; the third mismatch is reported. -/
def State.rejoinCheck (s : State) (d : Nat) (u : UnitId) (digest : BitVec 64) (epoch : BitVec 32) : State :=
  let x := s.dom d
  if x.epochAt ≠ s.ctl.epoch then s.onDom d (fun x => { x with matched := [], epochAt := s.ctl.epoch })
  else if digest = s.tableDigest u ∧ epoch = s.ctl.epoch then
    let m := if x.matched.contains u.code then x.matched else x.matched ++ [u.code]
    let s := s.onDom d (fun x => { x with matched := m })
    if (rejoinUnits d).all (fun v => m.contains v.code) then s.domainActive d else s
  else
    let s := s.onDom d (fun x => { x with attempts := x.attempts + 1, matched := [] })
    if x.attempts + 1 = 3 then s.raise .chip 5 0x084 1023 (ctxMachine d 3) else s

/-- REJOIN_CHECK. -/
def execRejoinCheck (u : UnitId) (digest : BitVec 64) (epoch : BitVec 32) (s : State) : Host.Outcome State Fault Refusal :=
  upWhen s (fun s => match domainOf u with
      | some d => (s.dom d).st == .rejoining && decide ((s.dom d).attempts < 3) && (rejoinUnits d).contains u && !s.loadDue u
      | none => false)
    (fun s => match domainOf u with
      | some d => s.rejoinCheck d u digest epoch
      | none => s)

/-! ## Supply limits (R283 to R285; 14 R365) -/

/-- A supply reading as the limits take it: an invalid one lies just below the warning threshold. -/
def State.supplyOf (s : State) (reading : Nat) : Nat := if reading = 0x3FFF then s.val 0x041103 * 100 - 1 else reading

/-- Keep a supply reading (0x0411:07), and the times from which its two recoveries count (log entry 154). -/
def State.readSupply (s : State) (d reading : Nat) : State :=
  let v := s.supplyOf reading
  let w := s.val 0x041103 * 100
  { s with lim := { s.lim with
      supply := s.lim.supply.put d reading
      warnAt := if v < w + 100 then s.lim.warnAt.put d s.time else s.lim.warnAt
      lowAt := if v < w then s.lim.lowAt.put d s.time else s.lim.lowAt } }

/-- The unit that a domain's supply records name; the chip for the control domain. -/
def supplyUnit (d : Nat) : UnitId := if d < 140 then domainUnit d else .chip

/-- Set the clock stretch of a domain's islands (R284). -/
def State.stretch (s : State) (d : Nat) (on : Bool) : State :=
  if d < 140 then (rejoinUnits d).foldl (fun s u => s.onGov u (fun g => { g with stretched := on })) s else s

/-- SUPPLY_WARNING (R284): a reading below the warning threshold. -/
def execSupplyWarning (d : Nat) (reading : Nat) (s : State) : Host.Outcome State Fault Refusal :=
  up s (fun s =>
    let s := s.readSupply d reading
    if s.supplyOf reading < s.val 0x041103 * 100 ∧ !s.lim.warn.contains d then
      let s := { s with lim := { s.lim with warn := s.lim.warn ++ [d] } }
      (s.stretch d true).raise (supplyUnit d) 12 0x0A0 1023 (ctxValue reading)
    else s)

/-- SUPPLY_WARNING_CLEAR (R284): the reading has stayed a percentage point above the threshold for 20,000 slots. -/
def execSupplyWarningClear (d : Nat) (reading : Nat) (s : State) : Host.Outcome State Fault Refusal :=
  up s (fun s =>
    let s := s.readSupply d reading
    if s.val 0x041103 * 100 + 100 ≤ s.supplyOf reading ∧ s.lim.warnAt.get 0 d + 20000 ≤ s.time ∧ s.lim.warn.contains d then
      { s with lim := { s.lim with warn := s.lim.warn.filter (fun x => x != d) } }.stretch d false
    else s)

/-- The partitions with a landing or a table entry in a domain. -/
def State.domainParts (s : State) (d : Nat) : List Nat :=
  let us := rejoinUnits d
  let ls := us.filterMap (fun u => match u with
    | .landing l => some (s.partOf l)
    | _ => none)
  let insts := us.map instOf
  let here := s.dict.filter (fun x => insts.contains (keyInst x.1))
  let owners := (here.filter (fun x => (keyId x.1 == 0x182003 && keyWord x.1 == 1) ||
    ((keyId x.1 == 0x183002 || keyId x.1 == 0x183003) && keyWord x.1 == cellOwner))).map (fun x => x.2.toNat - 1)
  let trees := (here.filter (fun x => keyId x.1 == 0x220002 && keyWord x.1 == 2 && x.2.getLsbD 63)).map (fun x => bitsAt x.2.toNat 53 10)
  ((ls ++ owners ++ trees).filter (fun p => p < 512)).dedup

/-- SUPPLY_RESET (R285): the domain's islands are held in reset, its state is lost, and its partitions are stopped and ended. In
the control domain it is a fatal fault. -/
def execSupplyReset (d : Nat) (reading : Nat) (s : State) : Host.Outcome State Fault Refusal :=
  up s (fun s =>
    let s := s.readSupply d reading
    if s.supplyOf reading < s.val 0x041104 * 100 ∧ !s.lim.reset.contains d then
      let s := { s with lim := { s.lim with reset := s.lim.reset ++ [d] } }
      if 140 ≤ d then s.raise .chip 12 0x0A2 1023 (ctxValue reading)
      else if (s.dom d).st = .sleep then s
      else
        let ps := s.domainParts d
        let s := (s.loseDomain d).onDom d (fun x => { x with st := .waking, since := s.time, poweredAt := s.time, supplyReset := true })
        ps.foldl (fun s p => (s.beginEnding p).raiseFor k0 (domainUnit d) 12 0x0A1 p (ctxValue reading)) s
    else s)

/-- SUPPLY_RESET_RELEASE (R285): the reading has stayed at or above the warning threshold for 20,000 slots, and the domain
rejoins. -/
def execSupplyResetRelease (d : Nat) (reading : Nat) (s : State) : Host.Outcome State Fault Refusal :=
  up s (fun s =>
    let s := s.readSupply d reading
    if s.val 0x041103 * 100 ≤ s.supplyOf reading ∧ s.lim.lowAt.get 0 d + 20000 ≤ s.time ∧ s.lim.reset.contains d then
      let s := { s with lim := { s.lim with reset := s.lim.reset.filter (fun x => x != d) } }
      if d < 140 ∧ (s.dom d).supplyReset then (s.onDom d (fun x => { x with supplyReset := false })).enterRejoining d else s
    else s)

/-! ## Temperature (R286, R287; 14 R365) -/

/-- A thermal reading as the limits take it: an invalid one lies at the throttle temperature. -/
def State.thermalOf (s : State) (reading : Int) : Int := if reading = -2048 then 16 * (s.val 0x041101 : Int) else reading

/-- Keep a reading of a thermal input that is used, and the time from which the end of the throttle counts (log entry 154). -/
def State.readThermal (s : State) (i : Nat) (reading : Int) : State :=
  if i < s.build.thermalInputs then { s with lim := { s.lim with
    thermal := s.lim.thermal.put i reading
    hotAt := if 16 * (s.val 0x041101 : Int) - 80 < s.thermalOf reading then s.time else s.lim.hotAt } } else s

/-- Whether every thermal input in use reads at or below a temperature in 1/16 °C. -/
def State.coolTo (s : State) (t : Int) : Bool := s.lim.thermal.all (fun x => decide (s.thermalOf x.2 ≤ t))

/-- THERMAL_THROTTLE (R286): an input at or above the throttle temperature. -/
def execThermalThrottle (i : Nat) (reading : Int) (s : State) : Host.Outcome State Fault Refusal :=
  up s (fun s =>
    let s := s.readThermal i reading
    if i < s.build.thermalInputs ∧ 16 * (s.val 0x041101 : Int) ≤ s.thermalOf reading ∧ !s.lim.throttle then
      let s := { s with lim := { s.lim with throttle := true, stage := max s.lim.stage 2, above := 0, below := 0 } }
      (s.changeRate s.heldParts 2 none).raise .chip 13 0x0A3 1023 (ctxValue (patternOf 16 reading))
    else s)

/-- The partitions that nothing holds at half rate any more: no governor asks for it, no pavilion that they use is down (03
R83). -/
def State.returning (s : State) : List Nat :=
  let asked := s.govs.flatMap (fun g => if g.2.request then
    s.heldParts.filter (fun p => s.dict.any (fun x => keyId x.1 == 0x182003 && keyWord x.1 == 1 && x.2.toNat == p + 1 &&
      (unitOfInst (keyInst x.1)).code == g.1)) else [])
  let broken := (List.range 16).flatMap (fun p => if (s.pav p).st = .up then [] else s.cellOwners p)
  s.heldParts.filter (fun p => !asked.contains p && !broken.contains p)

/-- Full rate returns where no throttle and no cap stage 3 asks for half rate. -/
def State.returnRate (s : State) : State :=
  if s.lim.throttle ∨ s.lim.stage = 3 then s else s.changeRate s.returning 0 none

/-- THROTTLE_END (R286): every input has read 5 °C below the throttle temperature for 10 ms. -/
def execThrottleEnd (s : State) : Host.Outcome State Fault Refusal :=
  upWhen s (fun s => s.lim.throttle && decide (s.lim.hotAt + 20000000 ≤ s.time) && s.coolTo (16 * (s.val 0x041101 : Int) - 80)) (fun s =>
    { s with lim := { s.lim with throttle := false, below := 0 } }.returnRate)

/-- THERMAL_TRIP (R287): pavilions that are linked send GOING_DOWN, every switchable domain is gated, a hall as soon as its
pavilions idle, and the fatal record is made. -/
def execThermalTrip (i : Nat) (reading : Int) (s : State) : Host.Outcome State Fault Refusal :=
  up s (fun s =>
    let s := s.readThermal i reading
    if i < s.build.thermalInputs ∧ 16 * (s.val 0x041102 : Int) ≤ s.thermalOf reading ∧ !s.lim.tripped then
      let linked := s.linked
      let s := { s with lim := { s.lim with tripped := true } }
      let s := linked.foldl (fun s p => s.onPav p (fun v => { v with goingDown := 8 })) s
      let s := s.doms.foldl (fun s x =>
        let s := s.onDom x.1 (fun y => { y with target := 2 })
        if x.2.st = .sleep then s
        else if linked.any (fun p => 136 + p / 4 == x.1) then
          s.onDom x.1 (fun y => { y with st := .goingDown, since := s.time - 6000 })
        else s.enterSleep x.1) s
      s.raise .chip 13 0x0A4 1023 (ctxValue (patternOf 16 reading))
    else s)

/-! ## The power cap (R288, R289; 14 R366) -/

/-- The cap in force: the least of the ceiling and the three requests. -/
def State.capInForce (s : State) : Nat :=
  min (min (s.val 0x041001) (s.val 0x041002)) (min (s.val 0x041003) s.lim.capCore)

/-- The lowest stage that the throttle or the power-emergency input allows. -/
def State.leastStage (s : State) : Nat := if s.lim.throttle ∨ s.lim.emergency then 2 else 0

/-- POWER_ESTIMATE_WINDOW (R288): the estimate of the window is a free value, as the spec gives neither the weights nor the
leakage (log entry 30); the stages follow from it. -/
def State.powerWindow (s : State) : State :=
  let e := s.fresh 10
  let est := e.1.toNat
  let s := e.2
  let l := s.lim
  let exceeds := decide (s.capInForce < est)
  let low := decide (10 * est ≤ 9 * s.capInForce)
  let held := l.above + 1
  let below := if low then l.below + 1 else 0
  let l := { l with estimate := est, above := held, below := below, unmet := l.unmet && exceeds }
  let s := { s with lim := l }
  if l.stage = 0 then (if exceeds then { s with lim := { l with stage := 1, above := 0 } } else s)
  else if exceeds ∧ l.stage < 3 ∧ 4 ≤ held then
    let s := { s with lim := { l with stage := l.stage + 1, above := 0 } }
    if l.stage + 1 = 3 then s.changeRate s.heldParts 2 none else s
  else if exceeds ∧ l.stage = 3 ∧ 64 ≤ held ∧ !l.unmet then
    { s with lim := { l with unmet := true } }.raise .chip 0 0x0A5 1023 (ctxValue est)
  else if 16 ≤ below ∧ s.leastStage < l.stage then
    let s := { s with lim := { l with stage := l.stage - 1, above := 0, below := 0 } }
    if l.stage = 3 then s.returnRate else s
  else s

/-- POWER_ESTIMATE_WINDOW. -/
def execPowerEstimateWindow (s : State) : Host.Outcome State Fault Refusal := up s (fun s => s.powerWindow)

/-- PL_CAP_CHANGE (14 R366): the power-management core's request, clamped to 100 to 240 W. -/
def execPlCapChange (v : BitVec 8) (s : State) : Host.Outcome State Fault Refusal :=
  up s (fun s => { s with lim := { s.lim with capCore := max 100 (min 240 v.toNat) } })

/-- POWER_EMERGENCY (R288, R289): the input is asserted. -/
def execPowerEmergency (s : State) : Host.Outcome State Fault Refusal :=
  up s (fun s => { s with lim := { s.lim with
    emergency := true, stage := max s.lim.stage 2, above := if s.lim.stage < 2 then 0 else s.lim.above } })

/-- POWER_EMERGENCY_RELEASE (R289): the input is released. -/
def execPowerEmergencyRelease (s : State) : Host.Outcome State Fault Refusal :=
  up s (fun s => { s with lim := { s.lim with emergency := false } })

/-- Whether a power emergency is in force (R289). -/
def State.powerEmergency (s : State) : Bool := s.lim.emergency || s.lim.stage == 3

/-- Whether an emergency defers firmware activation (R289; 12 R322). -/
def State.emergency (s : State) : Bool := s.powerEmergency || s.lim.throttle

/-! ## The combining ALU of a node (06 R173) -/

/-- ALU_REINSTATEMENT_REQUEST: a write of 0x2000:05, staged; its self-test starts at the epoch. -/
def execAluReinstatementRequest (path : Path) (sess : Nat) (u : UnitId) (v : BitVec 64) (s : State) : Host.Outcome State Fault Refusal :=
  up s (fun s => s.ownWrite path sess 0x200005 (instOf u) 0 0 v (fun _ s => s))

/-- ALU_SELF_TEST_COMPLETE: a node that passes is healthy from the next epoch on; one that fails stays failed. -/
def execAluSelfTestComplete (u : UnitId) (passed : Bool) (s : State) : Host.Outcome State Fault Refusal :=
  upWhen s (fun s => (s.sw u).alu == 2) (fun s =>
    if passed then s.onSw u (fun w => { w with aluReady := true })
    else (s.onSw u (fun w => { w with alu := 1, aluReady := false })).raise u 3 0x044 1023 (ctxColl 0 0))

end Sys2Proof.Machine
end

