-- ==== Sys2Proof/Machine/Faults.lean ====
section
/-!
DEFINITION. Fault collection and reaction (11 R294 to R306): repeat timers, outboxes sent on behalf of cut-off units, the
gatehouse, the reaction engine, clearing and forcing.
-/
namespace Sys2Proof.Machine

/-! ## Sources (R294 to R296) -/

/-- The time that a source counts: its island's, K0's for the chip level. -/
def State.sourceTime (s : State) (u : UnitId) : Nat := if u = .chip then s.time else s.now u

/-- Whether the timer of a suppression slot has run out. -/
def State.slotDue (s : State) (u : UnitId) (k : Nat) : Bool :=
  match (s.src u).slots.find k with
  | some x => x.active && decide (x.timer ≤ s.sourceTime u)
  | none => false

/-- A suppression slot's timer expires: its count goes out in one message of at most 63 while the outbox has room, and a slot
with nothing left to report is IDLE (R294, R295). -/
def expireSlot (f : FaultSource) (k now interval : Nat) : FaultSource :=
  let x := f.slots.get {} k
  if 0 < x.count then
    let n := min x.count 63
    if f.outbox.length < 8 then
      { f with outbox := f.outbox ++ [withRepeat x.latest n], slots := f.slots.put k { x with count := x.count - n, timer := now + interval } }
    else { f with slots := f.slots.put k { x with timer := now + interval } }
  else if x.waiting.isSome then { f with slots := f.slots.put k { x with timer := now + interval } }
  else { f with slots := f.slots.del k }

/-- REPEAT_TIMER_EXPIRY. -/
def execRepeatTimerExpiry (u : UnitId) (slot : Nat) (s : State) : Host.Outcome State Fault Refusal :=
  upWhen s (fun s => s.slotDue u slot) (fun s =>
    s.onSrc u (fun f => expireSlot f slot (s.sourceTime u) (s.val 0x300201)))

/-- The keeper that sends a unit's messages on its behalf: the sector keeper, or K0 for a hall or a pavilion (R296). -/
def rescuer : UnitId → Nat
  | .landing l => 2052 + l / 256
  | .stair n => 2052 + n / 16
  | .gallery g => 2052 + g
  | _ => 2051

/-- OUTBOX_RESCUE (R296): the links towards every hall have been down for 2,000 slots, and the keeper sends the unit's messages,
the oldest first. -/
def State.rescueOutbox (s : State) (u : UnitId) : State :=
  let f := s.src u
  let held := f.slots.filterMap (fun x => x.2.waiting)
  let k := rescuer u
  let s := s.onSrc u (fun f => { f with
    outbox := [], slots := f.slots.map (fun (x : Nat × Slot) => (x.1, { x.2 with waiting := none })) })
  (f.outbox ++ held).foldl (fun s m =>
    s.queueTx k .fresh (s.ownHeader 0x32 4 1023 (s.addrOf k) (s.addrOf 2050) 0 (m.setWidth 256)) [] 64) s

/-- OUTBOX_RESCUE. -/
def execOutboxRescue (u : UnitId) (s : State) : Host.Outcome State Fault Refusal :=
  upWhen s (fun s => s.hallsCut u && decide ((s.node u).joinedAt + 2000 ≤ s.time) && !(s.src u).outbox.isEmpty) (fun s => s.rescueOutbox u)

/-! ## The gatehouse (R297 to R299) -/

/-- The latest fabric time no later than `now` with some low 32 bits (R297 step 2). -/
def extendTime (now low : Nat) : Nat := now - (now + 2 ^ 32 - low) % 2 ^ 32

/-- The key of a source and a kind. -/
def sourceKey (level inst kind : Nat) : Nat := (level * 4096 + inst) * 1024 + kind

/-- Whether a message fails the check of R297: a reserved class or level, or a kind not listed for its level. -/
def badFault (m : BitVec 128) : Bool :=
  fmClass m == 3 || fmLevel m == 7 || !(match findKind (fmKind m) with
    | some f => f.levels.contains (fmLevel m) && f.code != 0x0E0 && f.code != 0x0E1
    | none => false)

/-- Write an entry into the record FIFO, with its trace record (R298; 13 R339). -/
def State.fifoPut (s : State) (m : BitVec 128) (time part : Nat) : State :=
  let n := s.gate.recNo
  let s := { s with gate := { s.gate with fifo := s.gate.fifo ++ [fifoEntry m time n.toNat], recNo := n + 1 } }
  s.trace (.special 2050) 4 part time (m.toNat * 2 ^ 24 + n.toNat * 2 ^ 8)

/-- Admission limit of a class (R298). -/
def fifoLimit (cls : Nat) : Nat := if cls = 0 then 448 else if cls = 1 then 504 else 512

/-- Count a record that the FIFO does not take in (R298). -/
def State.fifoDrop (s : State) (cls time : Nat) : State :=
  let d : Drops := match s.gate.drops with
    | some d => { d with count := d.count + 1, cls := max d.cls cls, last := time }
    | none => { count := 1, cls := cls, first := time, last := time }
  { s with gate := { s.gate with drops := some d, dropped := (s.gate.dropped + 1) % 2 ^ 64 } }

/-- The drop marker of pending drops (R298). -/
def dropMarker (d : Drops) : BitVec 128 :=
  faultMessage 6 0 0 0x0E0 d.cls 1023 d.first (min d.count 65535 * 2 ^ 31 + d.last % 2 ^ 31) 0

/-- Latch the first-fault and first-fatal records (R299). A record number that no FIFO entry has is free (log entry 4). -/
def State.latchFirst (s : State) (m : BitVec 128) (cls time : Nat) (recNo : Option Nat) : State :=
  if cls = 0 ∨ (s.gate.first ≠ 0 ∧ (cls ≠ 2 ∨ s.gate.fatal ≠ 0)) then s
  else
    let r := match recNo with
      | some n => (n, s)
      | none => let x := s.fresh 16; (x.1.toNat, x.2)
    let e := fifoEntry m time r.1
    { r.2 with gate := { r.2.gate with
        first := if r.2.gate.first = 0 then e else r.2.gate.first
        fatal := if cls = 2 ∧ r.2.gate.fatal = 0 then e else r.2.gate.fatal } }

/-! ## The reaction queue (R301) -/

/-- Hand a reaction to the queue: merged, queued in order of class, or, where the queue is full, its partition is stopped and
ended at once. -/
def State.queueReaction (s : State) (kind part : Nat) (fatal : Bool) (ctx : Nat) : State :=
  let r : Reaction := { kind := kind, part := part, fatal := fatal, ctx := BitVec.ofNat 48 ctx, step := 0, inst := bitsAt ctx 35 12 }
  let x := s.react
  let same (y : Reaction) : Bool := y.kind == kind && y.part == part && !y.fatal
  if x.st = 3 then s
  else if fatal then
    let fs := x.queue.filter (·.fatal)
    { s with react := { x with queue := fs ++ [r] ++ x.queue.filter (fun y => !y.fatal), st := max x.st 1 } }
  else if x.queue.any same || x.suspended.any same || (match x.running with | some y => same y | none => false) then
    { s with react := { x with merged := x.merged + 1 } }
  else if 64 ≤ x.queue.length then
    { s with react := { x with overflow := x.overflow + 1 } }.beginEnding part
  else { s with react := { x with queue := x.queue ++ [r], st := 1 } }

/-- FAULT_MSG at the gatehouse (R297). -/
def State.faultMsg (s : State) (m : BitVec 128) : State :=
  let now := s.time
  let bad := badFault m
  let level := if bad then 6 else fmLevel m
  let inst := if bad then 0 else fmInst m
  let kind := if bad then 0x0E1 else fmKind m
  let cls := if bad then 1 else fmClass m
  let part := if bad then 1023 else fmPart m
  let time := if bad then now else extendTime now (fmTime m)
  let key := sourceKey level inst kind
  let first := bad || fmRepeat m == 0
  let g := s.gate
  let g := { g with summary := g.summary.modify 0 key (fun c => c + (if first then 1 else fmRepeat m)) }
  let g := if s.val 0x300301 ≤ cls ∧ !g.flags.contains key then { g with flags := g.flags ++ [key] } else g
  let s := { s with gate := g }
  let s :=
    if first then
      let n := s.gate.recNo.toNat
      let fits := decide (s.gate.fifo.length < fifoLimit cls)
      let s := if fits then s.fifoPut m time part else s.fifoDrop cls time
      let s := s.latchFirst m cls time (if fits then some n else none)
      if s.val 0x300302 ≤ cls then s.post 0x0001 (if part < 512 then some part else none) m.toNat else s
    else s
  match findKind kind with
  | some f => if f.k0 then s.queueReaction kind part (cls == 2) (fmCtx m) else s
  | none => s

/-- FAULT_MSG: it is consumed as it arrives. The packet that carried it must pass check 3, and is discarded otherwise (02 R60). -/
def execFaultMsg (port : Nat) (msg : BitVec 128) (s : State) : Host.Outcome State Fault Refusal :=
  up s (fun s =>
    match (s.node (.special 2050)).rxDone.find? (fun p => p.hdr.command == 0x32#8 && p.hdr.inl.setWidth 128 == msg) with
    | some p => s.receive (.special 2050) port p (fun s => s.faultMsg msg)
    | none => s.faultMsg msg)

/-! ## The reaction engine (R301, R302; 13 R348) -/

/-- The partitions of this chip that span chips. -/
def State.spanning (s : State) : List Nat := (s.parts.filter (fun p => p.2.spans && p.2.st == .held)).map (·.1)

/-- Stop and end some partitions. -/
def State.endAll (s : State) (ps : List Nat) : State := ps.foldl (fun s p => s.beginEnding p) s

/-- The first step of a wait timeout's reaction (13 R348): a snapshot, counted where one is under way or held, and the notice
that suspends the wait timers of the partition and ends its marked waits at ts. -/
def State.waitNotice (s : State) (p : Nat) : State :=
  let ts := if s.obs.snap.st = 1 ∧ s.obs.snap.part = p ∧ s.obs.snap.cause = 2 then s.obs.snap.ts else s.time + 4000
  let s := s.triggerSnapshot 2 p
  let s := (s.landingsOf p).foldl (fun s l => s.onTile l (fun t => { t with
    waits := t.waits.map (fun (w : Nat × Wait) => (w.1, { w.2 with suspended := true })) })) s
  { s with obs := { s.obs with notices := s.obs.notices ++ [(p, ts)] } }

/-- One step of a contained reaction; the step that follows it, if any. The second step of a wait timeout waits for its
notice. -/
def State.reactStep (s : State) (r : Reaction) : State × Option Nat :=
  match r.kind, r.step with
  | 0x026, 0 => (s.waitNotice r.part, some 1)
  | 0x026, _ => if s.obs.notices.any (fun n => n.1 == r.part) then (s, some 1) else (s.beginEnding r.part, none)
  | 0x080, _ => (s, none)
  | 0x081, _ => (s.endAll s.spanning, none)
  | 0x082, _ => (s.endAll s.spanning, none)
  | 0x083, _ => (s.endAll (s.spanning.filter (fun p => (s.part p).binding.contains r.inst)), none)
  | _, _ => (s.beginEnding r.part, none)

/-- The fatal reaction (R302): every tenant partition is stopped, linked pavilions go down, and no pending epoch takes place. -/
def State.fatalStep (s : State) (step : Nat) : State × Option Nat :=
  match step with
  | 0 => (s.endAll ((s.parts.filter (fun p => p.2.st == .held)).map (·.1)), some 1)
  | 1 => (s.linked.foldl (fun s p => if (s.pav p).goingDown = 0 then s.onPav p (fun v => { v with goingDown := 8 }) else s) s, some 2)
  | _ => ({ s with ctl := { s.ctl with pending := none, queue := [], kept := [], waiting := [] } }, none)

/-- K0 runs one step: a fatal reaction first, which subsumes every contained one; else the suspended or queued reaction at the
head. -/
def State.react1 (s : State) : State :=
  let x := s.react
  if x.st = 3 then
    match x.running with
    | none => s
    | some r =>
      let y := s.fatalStep r.step
      { y.1 with react := { y.1.react with running := y.2.map (fun n => { r with step := n }) } }
  else match x.queue.find? (·.fatal) with
    | some r =>
      let n := (x.queue.filter (fun y => !y.fatal)).length + x.suspended.length + x.running.toList.length
      let y := { s with react := { x with st := 3, queue := [], suspended := [], running := some r, subsumed := x.subsumed + n } }.fatalStep 0
      { y.1 with react := { y.1.react with running := y.2.map (fun n => { r with step := n }) } }
    | none =>
      let pick : Option (Reaction × List Reaction × List Reaction) := match x.running with
        | some r => some (r, x.suspended, x.queue)
        | none => match x.suspended with
          | r :: rest => some (r, rest, x.queue)
          | [] => match x.queue with
            | r :: rest => some (r, [], rest)
            | [] => none
      match pick with
      | none => { s with react := { x with st := 0 } }
      | some (r, sus, q) =>
        let y := { s with react := { x with st := 1, running := some r, suspended := sus, queue := q } }.reactStep r
        match y.2 with
        | some n => { y.1 with react := { y.1.react with running := some { r with step := n } } }
        | none => { y.1 with react := { y.1.react with running := none, st := if sus.isEmpty ∧ q.isEmpty then 0 else 1 } }

/-- REACTION_STEP. The keepers take no step while a change-over runs (12 R320). -/
def execReactionStep (s : State) : Host.Outcome State Fault Refusal :=
  upWhen s (fun s => s.fw.changing.isNone && (s.react.running.isSome || !s.react.queue.isEmpty || !s.react.suspended.isEmpty))
    (fun s => s.react1)

/-! ## Pins, pops and clears (R298, R299, R303, R304) -/

/-- FAULT_N is driven low while an outstanding flag is set (R303). -/
def State.faultLow (s : State) : Bool := !s.gate.flags.isEmpty

/-- WARN_N is driven low while a warning condition holds (10 R284, R286, R288; 14 R364). -/
def State.warnLow (s : State) : Bool := !s.lim.warn.isEmpty || s.lim.throttle || s.lim.unmet

/-- Remove the head of the record FIFO; pending drops take the place that frees (R298). -/
def State.fifoPop (s : State) : State :=
  if s.gate.fifo.isEmpty then s
  else
    let s := { s with gate := { s.gate with fifo := s.gate.fifo.tail } }
    match s.gate.drops with
    | none => s
    | some d => { s with gate := { s.gate with drops := none } }.fifoPut (dropMarker d) d.first 1023

/-- FIFO_POP: a write of 0x3001:02. -/
def execFifoPop (path : Path) (sess : Nat) (v : BitVec 64) (s : State) : Host.Outcome State Fault Refusal :=
  up s (fun s => s.ownWrite path sess 0x300102 0 0 0 v (fun v s => if v = 1 then s.fifoPop else s))

/-- FIRST_FAULT_CLEAR: a write of 0x3004:02. -/
def execFirstFaultClear (path : Path) (sess : Nat) (v : BitVec 64) (s : State) : Host.Outcome State Fault Refusal :=
  up s (fun s => s.ownWrite path sess 0x300402 0 0 0 v (fun v s => if v = 1 then { s with gate := { s.gate with first := 0 } } else s))

/-- Clear outstanding flags (R304): every flag that is not fatal, or the flag of one source and kind. -/
def State.clearFlags (s : State) (v : Nat) : State :=
  let keep (k : Nat) : Bool :=
    if v.testBit 31 then kindClass (k % 1024) == 2 else k != sourceKey (bitsAt v 28 3) (bitsAt v 16 12) (v % 1024)
  { s with gate := { s.gate with flags := s.gate.flags.filter keep } }

/-- FAULT_CLEAR: a write of 0x3005:02. -/
def execFaultClear (path : Path) (sess : Nat) (v : BitVec 64) (s : State) : Host.Outcome State Fault Refusal :=
  up s (fun s => s.ownWrite path sess 0x300502 0 0 0 v (fun v s => s.clearFlags v))

/-! ## Forces (R305, R306) -/

/-- Arm a force at the source that a force object names. A control-domain source has no port field. -/
def State.armForce (s : State) (inst v : Nat) : State :=
  let u := forceUnit inst v
  let f : Force := { kind := bitsAt v 22 10, act := v.testBit 21, sub := bitsAt v 16 5, port := if inst = 0 then 0 else bitsAt v 8 8
                     left := v % 16, next := s.sourceTime u }
  s.onSrc u (fun x => { x with force := some f })

/-- FAULT_FORCE: a write of 0x3020:01 at a unit, or of 0x3021:01 for a control-domain source. -/
def execFaultForce (path : Path) (sess : Nat) (u : UnitId) (v : BitVec 64) (s : State) : Host.Outcome State Fault Refusal :=
  up s (fun s => s.ownWrite path sess (if instOf u = 0 then 0x302101 else 0x302001) (instOf u) 0 0 v (fun v s => s.armForce (instOf u) v))

/-- The context of a forced occurrence that is only reported: the port, where the kind's format has one, and FORCED. -/
def forcedContext (f : Force) : Nat :=
  ctxForced + (if f.kind < 0x20 ∨ ([0x023, 0x024, 0x025, 0x060, 0x061, 0x062] : List Nat).contains f.kind then f.port * 2 ^ 39 else 0)

/-- Make one forced occurrence of a source: reported, or made as a condition that the unit which meets it reports. -/
def State.forceOnce (s : State) (u : UnitId) (f : Force) : State :=
  if f.act ∧ (f.kind = 0x001 ∨ f.kind = 0x002) then s.onOut u f.port (fun o => { o with flips := o.flips ++ [f.kind] })
  else if f.act ∧ (f.kind = 0x020 ∨ f.kind = 0x021) then s.onTile u.inst (fun t => { t with rowForces := t.rowForces ++ [f.kind - 0x01F] })
  else if f.act ∧ (f.kind = 0x040 ∨ f.kind = 0x041) then s.onSw u (fun w => { w with aluForces := w.aluForces ++ [f.kind - 0x03B] })
  else s.raise u f.sub f.kind 1023 (forcedContext f)

/-- FORCED_OCCURRENCE: one every 16 slots until the force's count is used up. -/
def execForcedOccurrence (u : UnitId) (s : State) : Host.Outcome State Fault Refusal :=
  upWhen s (fun s => match (s.src u).force with
      | some f => decide (f.next ≤ s.sourceTime u)
      | none => false)
    (fun s => match (s.src u).force with
      | some f =>
        let s := s.onSrc u (fun x => { x with force := if f.left ≤ 1 then none else some { f with left := f.left - 1, next := f.next + 16 } })
        s.forceOnce u f
      | none => s)

end Sys2Proof.Machine
end

