-- ==== Sys2Proof/Machine/Observe.lean ====
section
/-!
DEFINITION. Counters, trace, the belvedere and the stillness snapshot (13).
-/
namespace Sys2Proof.Machine

/-! ## Counters (R331 to R336) -/

/-- COUNTER_FREEZE (R335): an armed freeze time has come. -/
def execCounterFreeze (s : State) : Host.Outcome State Fault Refusal :=
  upWhen s (fun s => s.obs.ctrState = 1 ∧ s.obs.freezeAt ≤ s.time)
    (fun s => { s with obs := { s.obs with ctrState := 2, frozenAt := s.time } })

/-- A new configuration of programmable counter `n` at a port: the counter restarts from 0 (R333). -/
def State.setCounterCfg (s : State) (u : UnitId) (port n v : Nat) : State :=
  s.onCtrs u port (fun c => { c with cfg := c.cfg.put n (BitVec.ofNat 32 v), prog := c.prog.put n 0 })

/-- COUNTER_CONFIG_WRITE: a write of a row of 0x3810:03 at the port that the session selects. -/
def execCounterConfigWrite (path : Path) (sess : Nat) (u : UnitId) (n : Nat) (v : BitVec 64) (s : State) : Host.Outcome State Fault Refusal :=
  up s (fun s => s.ownWrite path sess 0x381003 (instOf u) n 0 v (fun v s =>
    s.setCounterCfg u (s.selector (sessKey path sess) 0x381001 (instOf u)) n v))

/-- Set every counter of the chip to 0: those of the ports and the collective counters; the gatehouse's stay (R335). -/
def State.clearCounters (s : State) : State :=
  { s with
    obs := { s.obs with ctrs := s.obs.ctrs.map (fun (c : Nat × PortCtrs) => (c.1, { c.2 with fixed := [], prog := [] })) }
    dict := s.dict.filter (fun (kv : Nat × BitVec 64) => keyId kv.1 != 0x385001) }

/-- What an epoch at `e` does to the counters (R335): clear, then thaw, then arm the freeze time in force. -/
def State.counterEpoch (s : State) (clear thaw : Bool) (freeze : Option Nat) (e : Nat) : State :=
  let s := if clear then s.clearCounters else s
  let s := if thaw ∧ s.obs.ctrState = 2 then { s with obs := { s.obs with ctrState := 0 } } else s
  match freeze with
  | none => s
  | some 0 => if s.obs.ctrState = 1 then { s with obs := { s.obs with ctrState := 0 } } else s
  | some t => if s.obs.ctrState = 2 then s else { s with obs := { s.obs with ctrState := 1, freezeAt := max t e } }

/-! ## Trace (R339 to R343) -/

/-- Records that a gallery's or a hall's buffer holds at most (R341). -/
def traceRoom (u : UnitId) : Nat := match u with | .gallery _ => 32768 | _ => 8192

/-- A unit's loss count as a LOSS record. -/
def lossRecord (u : UnitId) (now n at_ : Nat) : BitVec 256 := traceRecord 0x0F u.level u.inst 1023 now (lossBody n at_)

/-- A record reaches the buffer of a gallery or hall; one that meets a full buffer is counted (R342). -/
def State.bufferPut (s : State) (u : UnitId) (r : BitVec 256) : State :=
  if (s.sw u).trace.length < traceRoom u then s.onSw u (fun w => { w with trace := w.trace ++ [r] })
  else (s.onSw u (fun w => { w with traceLost := w.traceLost + 1
                                    traceLostAt := if w.traceLost = 0 then s.now u else w.traceLostAt })).bump
    0x382204 (instOf u) 0 0 0 64 1

/-- A record on its way up: captured by a buffer, or taken into the belvedere's queue (R341, R343). -/
def State.traceTake (s : State) (u : UnitId) (r : BitVec 256) : State :=
  if r.toNat / 2 ^ 248 = 0 then s
  else match u with
    | .gallery _ | .hall _ => s.bufferPut u r
    | _ => if s.streaming then s.bvPut r else s.bvLose 1

/-- The records of a TRACE packet, two in a data unit. -/
def traceRecords (p : Packet) : List (BitVec 256) := p.data.flatMap (fun (d : Payload) => [d.setWidth 256, (d >>> 256).setWidth 256])

/-- TRACE: a gallery or a hall that captures the packet, or the belvedere, takes its records. -/
def execTrace (u : UnitId) (port : Nat) (p : Packet) (s : State) : Host.Outcome State Fault Refusal :=
  up s (fun s => s.receive u port p (fun s => match u with
    | .gallery _ | .hall _ | .special 2060 => (traceRecords p).foldl (fun s r => s.traceTake u r) s
    | _ => match epOf u with
      | some e => s.takeIn e p.hdr id
      | none => s.discard u port p.hdr))

/-- Whether a source sends its trace records: two wait, or one has waited 64 slots (R340). -/
def State.traceDue (s : State) (u : UnitId) : Bool :=
  let o := s.obs.traces.get {} u.code
  decide (2 ≤ o.recs.length) || (!o.recs.isEmpty && decide (o.since + 64 ≤ s.now u))

/-- A source sends the records of its outbox, an empty place padding an odd one; a LOSS record takes the first freed
place (R340, R342). A gallery or hall that captures writes its own records into its buffer (R341). -/
def State.flushTrace (s : State) (u : UnitId) : State :=
  let o := s.obs.traces.get {} u.code
  let left : TraceOut := if o.lost = 0 then {} else { recs := [lossRecord u (s.now u) o.lost o.lostAt], since := s.now u }
  let s := { s with obs := { s.obs with traces := s.obs.traces.put u.code left } }
  let own : Bool := match u with | .gallery _ | .hall _ => !s.streaming | .special e => e == 2060 | _ => false
  if own then o.recs.foldl (fun s r => s.traceTake u r) s
  else
    let at_ (i : Nat) : Payload := (o.recs.getD i 0).setWidth 512
    let data := (List.range ((o.recs.length + 1) / 2)).map (fun i => at_ (2 * i) ||| (at_ (2 * i + 1) <<< 256))
    let dst := s.addrOf 2060
    let src := match epOf u with | some e => s.addrOf e | none => dst
    s.makeFrom u { s.ownHeader 0x33 4 1023 src dst 0 0 with length := BitVec.ofNat 7 data.length } data

/-- TRACE_FLUSH. -/
def execTraceFlush (u : UnitId) (s : State) : Host.Outcome State Fault Refusal :=
  upWhen s (fun s => s.traceDue u && s.running u) (fun s => s.flushTrace u)

/-- Remove the head of a trace buffer; a LOSS record takes the freed place (R342). -/
def State.popTrace (s : State) (u : UnitId) : State :=
  s.onSw u (fun w =>
    let w' : Switch := { w with trace := w.trace.tail }
    if w.traceLost = 0 then w'
    else { w' with trace := w'.trace ++ [lossRecord u (s.now u) w.traceLost w.traceLostAt], traceLost := 0, traceLostAt := 0 })

/-- TRACE_BUFFER_POP: a write of 0x3822:02 at a gallery or a hall. -/
def execTraceBufferPop (path : Path) (sess : Nat) (u : UnitId) (v : BitVec 64) (s : State) : Host.Outcome State Fault Refusal :=
  up s (fun s => s.ownWrite path sess 0x382202 (instOf u) 0 0 v (fun v s => if v = 1 then s.popTrace u else s))

/-- BELVEDERE_LINK_CHANGE (R343): a link that is lost while the belvedere streams discards its queue, counted. -/
def execBelvedereLinkChange (ready : Bool) (s : State) : Host.Outcome State Fault Refusal :=
  up s (fun s =>
    let s' := { s with obs := { s.obs with bvReady := ready } }
    if !ready && s.streaming then
      ({ s' with obs := { s'.obs with bvQueue := [], bvRun := 0 } }).bvLose s.obs.bvQueue.length
    else s')

/-! ## The stillness snapshot (R345 to R348) -/

/-- SNAPSHOT_REQUEST: a write of 0x3860:01. -/
def execSnapshotRequest (path : Path) (sess : Nat) (v : BitVec 64) (s : State) : Host.Outcome State Fault Refusal :=
  up s (fun s => s.ownWrite path sess 0x386001 0 0 0 v (fun v s => if v = 1 then s.triggerSnapshot 0 1023 else s))

/-- A snapshot record (R347). -/
def snapRecord (type level inst sub part body : Nat) : BitVec 256 :=
  BitVec.ofNat 256 (type * 2 ^ 252 + level % 8 * 2 ^ 249 + inst % 4096 * 2 ^ 237 + sub % 256 * 2 ^ 229 +
    part % 1024 * 2 ^ 219 + body % 2 ^ 219)

/-- INITIATOR records of an endpoint. -/
def State.snapEntries (s : State) (u : UnitId) (e : Nat) : List (BitVec 256) :=
  (s.ep e).entries.filterMap (fun (kv : Nat × Entry) =>
    let en := kv.2
    if en.kind = 0 then none
    else
      let o := en.outst.head?
      let h : Nat → (Outst → Nat) → Nat := fun w f => (match o with | some x => f x % 2 ^ w | none => 0)
      let paused : Bool := en.outst.any (fun x => x.deadline.isNone && x.left != 0)
      let due : Nat := match o with
        | some x => (match x.deadline with | some d => min (d - s.time) (2 ^ 32 - 1) | none => 0)
        | none => 0
      some (snapRecord 1 u.level u.inst kv.1 (s.epPart e)
        ((if en.kind = 1 then 1 else 2) * 2 ^ 217 + min en.outst.length 8 * 2 ^ 213 + h 24 (·.hdr.dst.toNat) * 2 ^ 189 +
          h 16 (·.hdr.seq.toNat) * 2 ^ 173 + h 8 (·.hdr.command.toNat) * 2 ^ 165 + h 2 (·.attempt) * 2 ^ 163 + due * 2 ^ 131 +
          en.client % 32 * 2 ^ 126 + (if paused then 2 ^ 125 else 0))))

/-- SEM_WAIT records of a landing. -/
def State.snapWaits (s : State) (u : UnitId) (l : Nat) : List (BitVec 256) :=
  let t := s.tile l
  t.waits.map (fun (kv : Nat × Wait) =>
    let w := kv.2
    snapRecord 2 u.level u.inst kv.1 (s.epPart l)
      (w.sem.toNat * 2 ^ 211 + (if w.take then 4 else 3) * 2 ^ 208 + w.operand.toNat * 2 ^ 176 +
        (t.sems.get 0 w.sem.toNat).toNat * 2 ^ 144 + w.start * 2 ^ 80 + (t.semSrc.get 0 w.sem.toNat).toNat * 2 ^ 56 +
        (if w.timedOut then 2 ^ 55 else 0)))

/-- The credit counts of a port, and what they are with every buffer free. -/
def State.snapCredits (s : State) (u : UnitId) (o : Nat) : List Nat × List Nat :=
  match u, o with
  | .pavilion p, 2 => ((List.range 9).map (fun b => (s.pav p).credit b), (List.range 9).map (fun b => (s.pav p).peerSize.get 0 b))
  | _, _ => ((List.range 8).map (fun b => (s.outPort u o).credit b) ++ [0], (List.range 8).map bufferSize ++ [0])

/-- The packet that has waited longest for a port. -/
def State.snapOldest (s : State) (u : UnitId) (o : Nat) : Option Held :=
  ((s.node u).held.filter (fun x => x.outs.any (fun d => d.port == o && (d.sent < x.units.length || !x.closed)))).foldl
    (fun (b : Option Held) x => match b with
      | none => some x
      | some y => if x.rel < y.rel then some x else some y) none

/-- The CREDIT record of a port, where one is due. The stall reason of a port that did not stall in the slot before is not
stated, and free (log entry 4). -/
def State.snapPort (s : State) (u : UnitId) (o : Nat) : State × List (BitVec 256) :=
  let c := s.snapCredits u o
  let x := s.snapOldest u o
  let p := s.outPort u o
  let lanes : Bool := p.norm.isSome || p.esc.isSome || p.resend.isSome
  if c.1 == c.2 && !lanes && x.isNone then (s, [])
  else
    let r : Nat × State := match p.stall with
      | some r => (r, s)
      | none => (let f := s.fresh 4; (f.1.toNat, f.2))
    let vc : Nat := match p.norm with
      | some id => (match (s.node u).held.find? (fun y => y.id == id) with | some y => y.hdr.vc.toNat | none => 0)
      | none => 0
    let waited : Nat := match x with | some y => min (s.now u - y.rel) 65535 | none => 0
    let part : Nat := match x with | some y => y.hdr.part.toNat | none => 1023
    let counts := (List.range 9).foldl (fun a i => a + c.1.getD i 0 % 4096 * 2 ^ (207 - 12 * i)) 0
    (r.2, [snapRecord 3 u.level u.inst o part
      (counts + (if p.norm.isSome then 2 ^ 110 else 0) + (if p.esc.isSome then 2 ^ 109 else 0) +
        (if p.resend.isSome then 2 ^ 108 else 0) + vc * 2 ^ 105 + waited * 2 ^ 89 + r.1 * 2 ^ 85)])

/-- COMBINING records of a switch. -/
def State.snapColls (s : State) (u : UnitId) : List (BitVec 256) :=
  let w := s.sw u
  w.resvs.map (fun (r : Resv) =>
    let mine := w.chunks.filter (fun c => c.handle == r.handle)
    let covered : Nat := match mine.head? with
      | some c => onesIn 2048 (c.cover.foldl (fun a b => a &&& b) (2 ^ 2048 - 1))
      | none => 0
    snapRecord 5 u.level u.inst 0 r.part
      (r.handle % 4096 * 2 ^ 207 + r.entries % 65536 * 2 ^ 191 + min mine.length 255 * 2 ^ 183 + covered * 2 ^ 159 +
        (membersBelow (s.desc r.handle) u).length * 2 ^ 135 + w.alu % 4 * 2 ^ 133))

/-- PLAN_POSITION records. -/
def State.snapPlans (s : State) : List (BitVec 256) :=
  s.parts.filterMap (fun (kv : Nat × Partition) =>
    let x := kv.2
    if !x.run then none
    else
      let f := s.frameAt kv.1 s.time
      let resends := s.tiles.foldl (fun (n : Nat) (t : Nat × Tile) => if s.partOf t.1 = kv.1 then n + t.2.resendQ.length else n) 0
      some (snapRecord 4 6 0 0 kv.1
        (s.planFrame kv.1 f % 2 ^ 32 * 2 ^ 187 + (s.slotInFrame kv.1 s.time).getD 0 % 4096 * 2 ^ 175 + x.holds % 2 ^ 32 * 2 ^ 143 +
          x.rate % 4 * 2 ^ 141 + min resends 1023 * 2 ^ 131 + x.e0 % 2 ^ 64 * 2 ^ 67)))

/-- The codes of the units that hold something a snapshot may show, in rising order. -/
def State.snapUnits (s : State) : List Nat :=
  let put (m : FMap Unit) (k : Nat) : FMap Unit := m.put k ()
  let m := s.nodes.foldl (fun m kv => put m kv.1) []
  let m := s.eps.foldl (fun m kv => put m (epUnit kv.1).code) m
  let m := s.tiles.foldl (fun m kv => put m kv.1) m
  let m := s.switches.foldl (fun m kv => put m kv.1) m
  (s.pavs.foldl (fun m kv => put m (UnitId.pavilion kv.1).code) m).map (·.1)

/-- The unit of a code. -/
def unitOfCode (c : Nat) : UnitId :=
  let i := c % 4096
  match c / 4096 with
  | 0 => .landing i | 1 => .stair i | 2 => .gallery i | 3 => .hall i | 4 => .pavilion i | 5 => .special i
  | _ => .chip

/-- The records of a unit, in order of type and sub (R347). -/
def State.snapUnit (s : State) (u : UnitId) : State × List (BitVec 256) :=
  let a : List (BitVec 256) := match epOf u with
    | some e => (if e ≤ 2048 then s.snapEntries u e else []) ++ (match u with | .landing l => s.snapWaits u l | _ => [])
    | none => []
  let ports := match u with | .pavilion _ => [0, 1, 2] | _ => outPorts u
  let r := ports.foldl (fun (x : State × List (BitVec 256)) o =>
    let y := x.1.snapPort u o
    (y.1, x.2 ++ y.2)) (s, a)
  (r.1, r.2 ++ (if isSwitch u then r.1.snapColls u else []))

/-- The area's first 64 bytes (R346). -/
def State.snapHeader (s : State) (x : Snapshot) (written left : Nat) : BitVec 512 :=
  BitVec.ofNat 512 (x.number % 2 ^ 32 * 2 ^ 480 + x.ts % 2 ^ 64 * 2 ^ 416 + x.cause * 2 ^ 408 + s.chipNo % 4096 * 2 ^ 396 +
    x.part % 1024 * 2 ^ 386 + written * 2 ^ 354 + left % 2 ^ 32 * 2 ^ 322 + s.ctl.epoch.toNat * 2 ^ 290 +
    (if 0 < left then 2 ^ 289 else 0) + (if x.omitted then 2 ^ 288 else 0))

/-- Whether a unit is omitted: asleep, waking or rejoining (R345). -/
def State.snapOmits (s : State) (u : UnitId) : Bool :=
  s.domState u == .sleep || s.domState u == .waking || s.domState u == .rejoining

/-- The capture at ts (R345, R347): every unit latches its records; those that the area does not hold are counted. -/
def State.capture (s : State) : State :=
  let us := s.snapUnits.map unitOfCode
  let r := (us.filter (fun u => !s.snapOmits u)).foldl (fun (x : State × List (BitVec 256)) u =>
    let y := x.1.snapUnit u
    (y.1, x.2 ++ y.2)) (s, [])
  let all := r.2 ++ s.snapPlans
  let s := r.1
  let room := (s.val 0x386004 - 64) / 32
  let asleep : Bool := s.doms.any (fun d => d.2.st == .sleep || d.2.st == .waking || d.2.st == .rejoining)
  let x : Snapshot := { s.obs.snap with omitted := asleep, records := all.take room, st := 2 }
  let s := { s with obs := { s.obs with snap := { x with header := s.snapHeader x (min all.length room) (all.length - room) } } }
  s.trace k0 0x07 1023 s.time (x.number % 2 ^ 32 * 2 ^ 120 + x.cause * 2 ^ 112 + x.ts % 2 ^ 64 * 2 ^ 48)

/-- The bytes of a captured area: the header, then the records. -/
def Snapshot.bytes (x : Snapshot) : List Byte := bytesOf 64 x.header.toNat ++ x.records.flatMap (fun r => bytesOf 32 r.toNat)

/-- The keepers write the captured area to the host window in requests of at most 64 units (14 R360). -/
def State.writeArea (s : State) : State :=
  if s.val 0x386002 = 0 then s
  else
    let us := payloadsOf (s.obs.snap.records.length / 2 + 2) s.obs.snap.bytes
    (List.range ((us.length + 63) / 64)).foldl (fun (s : State) i =>
      let part := (us.drop (64 * i)).take 64
      s.hostRequest { req := { use := 4, beats := part.length, hdr := none }, read := false, addr := s.val 0x386003 + 4096 * i, data := part }) s

/-- A wait-timeout notice at its ts (R348): every wait of the partition that is marked timed out ends with status 1. -/
def State.endTimedOut (s : State) (p : Nat) : State :=
  (s.landingsOf p).foldl (fun s l =>
    ((s.tile l).waits.filter (fun (w : Nat × Wait) => w.2.timedOut)).foldl (fun (s : State) (w : Nat × Wait) => s.endWait l w.1 1 ((s.tile l).sems.get 0 w.2.sem.toNat) w.2) s) s

/-- SNAPSHOT_CAPTURE: ts has come for the snapshot that is capturing, or for a notice. -/
def execSnapshotCapture (s : State) : Host.Outcome State Fault Refusal :=
  upWhen s (fun s => (s.obs.snap.st == 1 && decide (s.obs.snap.ts ≤ s.time)) || s.obs.notices.any (fun n => n.2 ≤ s.time))
    (fun s =>
      let s := if s.obs.snap.st = 1 ∧ s.obs.snap.ts ≤ s.time then s.capture.writeArea else s
      let due := s.obs.notices.filter (fun (n : Nat × Nat) => n.2 ≤ s.time)
      let s := due.foldl (fun (s : State) n => s.endTimedOut n.1) s
      { s with obs := { s.obs with notices := s.obs.notices.filter (fun (n : Nat × Nat) => !decide (n.2 ≤ s.time)) } })

/-- Whether the area still has requests under way. -/
def State.areaBusy (s : State) : Bool :=
  s.host.outReqs.any (fun r => r.2.use == 4) || s.host.asks.any (fun a => a.req.use == 4)

/-- SNAPSHOT_WRITE_COMPLETE (R345, R346): the area is complete, and the snapshot is held. -/
def execSnapshotWriteComplete (s : State) : Host.Outcome State Fault Refusal :=
  upWhen s (fun s => s.obs.snap.st == 2 && !s.areaBusy) (fun s =>
    let s := if s.val 0x386002 = 0 then s.sramSet (s.val 0x386003) s.obs.snap.bytes else s
    { s with obs := { s.obs with snap := { s.obs.snap with st := 3 } } })

/-- Release a held snapshot. -/
def State.releaseSnapshot (s : State) : State :=
  if s.obs.snap.st = 3 then { s with obs := { s.obs with snap := { s.obs.snap with st := 0, records := [], header := 0 } } } else s

/-- SNAPSHOT_RELEASE: a write of 0x3860:06. -/
def execSnapshotRelease (path : Path) (sess : Nat) (v : BitVec 64) (s : State) : Host.Outcome State Fault Refusal :=
  up s (fun s => s.ownWrite path sess 0x386006 0 0 0 v (fun v s => if v = 1 then s.releaseSnapshot else s))

end Sys2Proof.Machine
end

