-- ==== Sys2Proof/Machine/Firmware.lean ====
section
/-!
DEFINITION. The keeper firmware, the driver, the ring sets and the lodge channels (12).
-/
namespace Sys2Proof.Machine

/-! ## Closing sessions (09 R242) -/

/-- Close the session of a key: its staged writes are discarded and its selectors released; a commit already accepted still
takes place. -/
def State.closeSession (s : State) (k : Nat) : State :=
  let s := s.dropStaged k
  { s with ctl := { s.ctl with sessions := s.ctl.sessions.del k
                               selectors := s.ctl.selectors.filter (fun x => x.1 / 2 ^ 40 != k) } }

/-- Close the sessions that a test names. -/
def State.closeSessions (s : State) (f : Nat → Session → Bool) : State :=
  (s.ctl.sessions.filter (fun (x : Nat × Session) => f x.1 x.2)).foldl (fun (s : State) x => s.closeSession x.1) s

/-- Whether a session was opened on a host ring set. -/
def onHost (x : Session) : Bool := match x.path with | .host _ => true | _ => false

/-! ## The firmware image (R311, R312) -/

/-- The fields of a firmware image header (R311). -/
structure FwHeader where
  magic : Nat
  major : Nat
  generation : Nat
  version : Nat
  iface : Nat
  features : Nat
  schema : Nat
  low : Nat
  high : Nat
  sections : Nat
  length : Nat
deriving DecidableEq, Repr

/-- Read a firmware image header from its first 64 bytes. -/
def fwHeader (bs : List Byte) : FwHeader :=
  let v := ofBytes (bs.take 64)
  { magic := bitsAt v 480 32, major := bitsAt v 472 8, generation := bitsAt v 462 2, version := bitsAt v 416 32
    iface := bitsAt v 384 32, features := bitsAt v 320 64, schema := bitsAt v 304 16, low := bitsAt v 288 16
    high := bitsAt v 272 16, sections := bitsAt v 256 16, length := bitsAt v 224 32 }

/-- A section of a firmware image: type, load offset, offset, length. -/
structure FwSection where
  type : Nat
  load : Nat
  offset : Nat
  length : Nat
deriving DecidableEq, Repr

/-- Directory entry `i` of an image. -/
def fwSection (bs : List Byte) (i : Nat) : FwSection :=
  let v := ofBytes ((bs.drop (64 + 16 * i)).take 16)
  { type := bitsAt v 112 16, load := bitsAt v 64 32, offset := bitsAt v 32 32, length := bitsAt v 0 32 }

/-- Bytes of a memory bank outside the handoff area (R307). -/
def bankRoom (type : Nat) : Nat :=
  match type with
  | 1 => 256 * 1024 | 2 => 224 * 1024 | 3 => 128 * 1024 | 4 => 96 * 1024
  | _ => 0

/-- What an image names. -/
def imageOf (h : FwHeader) (digest : BitVec 384) : Image :=
  { version := BitVec.ofNat 32 h.version, iface := BitVec.ofNat 32 h.iface, features := BitVec.ofNat 64 h.features
    schema := BitVec.ofNat 16 h.schema, lowSchema := BitVec.ofNat 16 h.low, highSchema := BitVec.ofNat 16 h.high, digest := digest }

/-- The approved digest (0x4400:09). -/
def State.approved (s : State) : Nat := (List.range 6).foldl (fun a i => a + s.word 0x440009 0 0 i * 2 ^ (64 * i)) 0

/-- The checks of R312 in order: the image, or the refusal code. -/
def State.checkFirmware (s : State) (bs : List Byte) : Image ⊕ Nat :=
  let h := fwHeader bs
  let secs := (List.range h.sections).map (fwSection bs)
  let last := secs.getLast?
  let digest := match last with
    | some x => ofBytes ((bs.drop x.offset).take 48)
    | none => 0
  if h.magic ≠ 0x5A564657 ∨ h.major ≠ 1 ∨ h.generation ≠ 1 ∨ secs.any (fun x => !([1, 2, 3, 4, 0xFF] : List Nat).contains x.type) then .inr 8
  else if (match last with
      | some x => x.type != 0xFF || (sha384 (bs.take x.offset)).toNat != digest
      | none => true) then .inr 9
  else if s.approved ≠ 0 ∧ s.approved ≠ digest then .inr 10
  else if secs.any (fun x => x.offset % 64 != 0 || decide (h.length < x.offset + x.length) ||
      (if x.type = 0xFF then x.length != 48 else x.load % 64 != 0 || decide (bankRoom x.type < x.load + x.length))) then .inr 11
  else if !s.fw.cold && (s.fw.st == .attached || s.fw.st == .hostless) && h.iface / 2 ^ 16 != s.fw.driverMajor.toNat then .inr 12
  else if !s.fw.cold && (match s.fw.running with
      | some r => decide (r.schema.toNat < h.low) || decide (h.high < r.schema.toNat)
      | none => false) then .inr 13
  else .inl (imageOf h (BitVec.ofNat 384 digest))

/-- Begin to load an image (R314, R319). -/
def State.startFirmware (s : State) : State :=
  let cold : Bool := s.fw.st != .attached && s.fw.st != .hostless
  let s := { s with fw := { s.fw with loading := true, cold := cold, status := 1, host := [], hostError := false } }
  if s.val 0x440001 = 1 then s.loadMore 3 (s.val 0x440002) 0 64 else s

/-- FIRMWARE_LOAD_START: a write of 0x4400:03. -/
def execFirmwareLoadStart (path : Path) (sess : Nat) (v : BitVec 64) (s : State) : Host.Outcome State Fault Refusal :=
  up s (fun s => s.ownWrite path sess 0x440003 0 0 0 v (fun v s => if v = 1 then s.startFirmware else s))

/-- The bytes of the image being loaded, once they have been read. -/
def State.firmwareBytes (s : State) : Option (List Byte) :=
  if s.val 0x440001 = 1 then
    (if s.fw.hostError ∨ (64 ≤ s.fw.host.length ∧ (fwHeader s.fw.host).length ≤ s.fw.host.length) then some s.fw.host else none)
  else
    let a := s.val 0x440002
    some (sramRead s.lodge.sram a (min (fwHeader (sramRead s.lodge.sram a 64)).length (0x200000 - a)))

/-- A cold load has passed: the image runs in READY, and every session is closed (R314). -/
def State.coldStart (s : State) (i : Image) : State :=
  let s := s.closeSessions (fun _ _ => true)
  { s with fw := { s.fw with running := some i, st := .ready, status := 0 } }

/-- FIRMWARE_LOAD_COMPLETE (R312, R314, R319). -/
def execFirmwareLoadComplete (s : State) : Host.Outcome State Fault Refusal :=
  upWhen s (fun s => s.fw.loading && s.firmwareBytes.isSome) (fun s =>
    let bs := s.firmwareBytes.getD []
    let r := if s.fw.hostError then Sum.inr 8 else s.checkFirmware bs
    let s := { s with fw := { s.fw with loading := false, host := [], hostError := false } }
    match r with
    | .inr c => { s with fw := { s.fw with status := c } }
    | .inl i => if s.fw.cold then s.coldStart i else { s with fw := { s.fw with standby := some i, status := 3 } })

/-! ## Activation (R320 to R322) -/

/-- Firmware activation at an epoch `e`: the change-over begins, or an emergency defers it. -/
def State.activateAt (s : State) (e : Nat) : State :=
  if s.emergency then
    let s := ({ s with fw := { s.fw with status := 5, deferred := true } }).bump 0x44000A 0 0 0 0 32 1
    s.post 0x0005 none (s.val 0x44000A)
  else { s with fw := { s.fw with status := 4, changing := some e } }

/-- ACTIVATION_FAILURE (R321): the previous image resumes. -/
def execActivationFailure (keeper : Nat) (s : State) : Host.Outcome State Fault Refusal :=
  upWhen s (fun s => s.fw.changing.isSome) (fun s =>
    ({ s with fw := { s.fw with changing := none, status := 6 } }).post 0x0006 none (keeper % 256))

/-- ACTIVATION_RECOMMIT (R322): no emergency is in force any more, and K0 commits the activation. -/
def execActivationRecommit (s : State) : Host.Outcome State Fault Refusal :=
  upWhen s (fun s => s.fw.deferred && !s.emergency)
    (fun s => ({ s with fw := { s.fw with status := 4, deferred := false } }).ownCommit [ownStaged 0x440008 0 0 0 1])

/-! ## The driver (R313 to R318) -/

/-- The attach of R315: `k` is the session that writes it. -/
def State.attachDriver (s : State) (k : Nat) (w1 w0 : BitVec 64) : State :=
  let f := s.fw
  let major : BitVec 16 := match f.running with | some i => (i.iface >>> 16).setWidth 16 | none => 0
  let features : BitVec 64 := match f.running with | some i => i.features | none => 0
  let asked : BitVec 32 := (w0 >>> 32).setWidth 32
  let theirs : BitVec 16 := (w0 >>> 16).setWidth 16
  if theirs ≠ major then
    { s with fw := { f with attachResult := 2, st := if f.st = .ready then .refused else f.st } }
  else
    let joined (r : BitVec 8) (n : BitVec 32) : Firmware :=
      { f with st := .attached, attachResult := r, attachNo := n, driverMajor := theirs, agreed := features &&& w1, beatAt := s.time }
    if asked ≠ 0 ∧ asked = f.attachNo then ({ s with fw := joined 1 f.attachNo }).post 0x0007 none f.attachNo.toNat
    else
      let n := if f.attachNo + 1 = 0 then 1 else f.attachNo + 1
      { s.closeSessions (fun i x => onHost x && i != k) with fw := joined 0 n }

/-- Whether the message that a command is may write 0x4010:01: ATTACH carries both words, word 1 first. -/
def State.attachMessage (s : State) (path : Path) (sess : Nat) (w1 w0 : BitVec 64) : State :=
  let w := s.who path sess
  if !s.hears path then s
  else match w.1 with
  | none => w.2.emit (.dictResp path (msgHeader 2 0 sess 2 0) [] 0)
  | some x =>
    let a := w.2.writeEntry x path (writeOf 0x401001 0 1 0 w1)
      (fun _ v s => { s with fw := { s.fw with attachWord := some (BitVec.ofNat 64 v) } })
    let b := a.1.writeEntry x path (writeOf 0x401001 0 0 0 w0)
      (fun _ v s => s.attachDriver x.key (s.fw.attachWord.getD 0) (BitVec.ofNat 64 v))
    let s := { b.1 with fw := { b.1.fw with attachWord := none } }
    s.emit (.dictResp path (msgHeader 2 0 sess (if a.2.outcome = 0#8 ∧ b.2.outcome = 0#8 then 0 else 1) 2) [a.2, b.2] 0)

/-- ATTACH: a message that writes both words of the attach request. -/
def execAttach (path : Path) (sess : Nat) (w1 w0 : BitVec 64) (s : State) : Host.Outcome State Fault Refusal :=
  up s (fun s => s.attachMessage path sess w1 w0)

/-- A write of 1 to detach: from ATTACHED to READY; running partitions run on (R313). -/
def State.detachDriver (s : State) : State :=
  if s.fw.st = .attached then { s with fw := { s.fw with st := .ready } } else s

/-- DETACH: a write of 0x4010:04. -/
def execDetach (path : Path) (sess : Nat) (v : BitVec 64) (s : State) : Host.Outcome State Fault Refusal :=
  up s (fun s => s.ownWrite path sess 0x401004 0 0 0 v (fun v s => if v = 1 then s.detachDriver else s))

/-- One beat: the heartbeat timer restarts (R316). -/
def State.beat (s : State) (v : Nat) : State := ({ s with fw := { s.fw with beatAt := s.time } }).setVal 0x000006 v

/-- HOST_HEARTBEAT: a write of 0x0000:06. -/
def execHostHeartbeat (path : Path) (sess : Nat) (v : BitVec 64) (s : State) : Host.Outcome State Fault Refusal :=
  up s (fun s => s.ownWrite path sess 0x000006 0 0 0 v (fun v s => s.beat v))

/-- GRACE_TIME_EXPIRY (R316, R317): HOSTLESS; under policy 1 every running plan stops at its next permitted epoch. -/
def execGraceTimeExpiry (s : State) : Host.Outcome State Fault Refusal :=
  upWhen s (fun s => s.fw.st == .attached && decide (s.fw.beatAt + s.val 0x043001 ≤ s.time)) (fun s =>
    let s := { s with fw := { s.fw with st := .hostless, hostlessAt := s.time } }
    if s.val 0x043003 = 1 then
      (s.parts.filter (fun (p : Nat × Partition) => p.2.run)).foldl (fun (s : State) p =>
        let w := ownStaged 0x181004 0 p.1 0 1
        if p.2.spans then s.ownCrossCommit [w] else s.ownCommit [w]) s
    else s)

/-- HOSTLESS_LIMIT_EXPIRY (R318): every tenant partition ends, the host sessions close, the ring sets but set 0 are disabled,
its indices are zero, and the state is READY. -/
def execHostlessLimitExpiry (s : State) : Host.Outcome State Fault Refusal :=
  upWhen s (fun s => s.fw.st == .hostless && decide (s.fw.hostlessAt + s.val 0x043002 ≤ s.time)) (fun s =>
    let s := s.endAll ((s.parts.filter (fun p => p.2.st == .held)).map (·.1))
    let s := s.closeSessions (fun _ x => onHost x)
    let s := s.setVal 0x400001 (s.val 0x400001 % 2)
    let s := { s with lodge := { s.lodge with rings := s.lodge.rings.filter (fun r => decide (r.1 < 4)), bells := [] } }
    let s := (List.range 4).foldl (fun s r => s.sramSet (16 * r) (bytesOf 8 0)) s
    { s with fw := { s.fw with st := .ready } })

/-! ## Ring sets (R323) -/

/-- A doorbell: the producer index lands in SRAM, and K0 is notified of an enabled set. -/
def State.ringBell (s : State) (set : Nat) : State :=
  if s.ringOn set ∧ !s.lodge.bells.contains set then { s with lodge := { s.lodge with bells := s.lodge.bells ++ [set] } } else s

/-- DOORBELL. -/
def execDoorbell (set : Nat) (producer : BitVec 32) (s : State) : Host.Outcome State Fault Refusal :=
  upWhen s (fun s => s.boot.present && decide (set < 32)) (fun s =>
    (s.sramSet (64 * set + 4) (bytesOf 4 producer.toNat)).ringBell set)

/-- K0 reads the descriptors of a set (R323). -/
def State.readRings (s : State) (set : Nat) : State :=
  { s with lodge := { s.lodge with
      rings := (s.ringDescs set).foldl (fun m d => m.put (4 * set + d.1) (d.2.1, d.2.2.1)) s.lodge.rings } }

/-- A new value of the ring-set enables: an added set's descriptors are read, and its commands are to be served; a removed
set's sessions close. -/
def State.enableRings (s : State) (v : Nat) : State :=
  let old := s.val 0x400001
  let s := s.setVal 0x400001 v
  (List.range 32).foldl (fun s i =>
    if v.testBit i ∧ !old.testBit i then (s.readRings i).ringBell i
    else if old.testBit i ∧ !v.testBit i then
      let s := s.closeSessions (fun _ x => x.path == .host i)
      { s with lodge := { s.lodge with
          rings := s.lodge.rings.filter (fun r => r.1 / 4 != i)
          bells := s.lodge.bells.filter (fun b => b != i)
          busy := s.lodge.busy.filter (fun b => b != i) } }
    else s) s

/-- RING_SET_ENABLE: a write of 0x4000:01. -/
def execRingSetEnable (path : Path) (sess : Nat) (v : BitVec 64) (s : State) : Host.Outcome State Fault Refusal :=
  up s (fun s => s.ownWrite path sess 0x400001 0 0 0 v (fun v s => s.enableRings v))

/-! ## Lodge channels (R327 to R329) -/

/-- A channel. -/
def State.chan (s : State) (ch : Nat) : Chan := s.lodge.chans.get {} ch

/-- Change a channel. -/
def State.onChan (s : State) (ch : Nat) (f : Chan → Chan) : State :=
  { s with lodge := { s.lodge with chans := s.lodge.chans.modify {} ch f } }

/-- A new configuration of a channel: its sessions close, and the owner is told. -/
def State.configureChan (s : State) (ch v : Nat) : State :=
  let s := s.closeSessions (fun _ x => x.path == .lodge ch)
  ((s.setWord 0x402001 0 ch 0 v).onChan ch (fun c => { c with ackOwner := 0x0014 }))

/-- CHANNEL_CONFIG_WRITE: a write of a row of 0x4020:01. -/
def execChannelConfigWrite (path : Path) (sess : Nat) (ch : Nat) (v : BitVec 64) (s : State) : Host.Outcome State Fault Refusal :=
  up s (fun s => s.ownWrite path sess 0x402001 0 ch 0 v (fun v s => s.configureChan ch v))

/-- Which end of a channel an identity is: true the owner, false the peer. -/
def State.chanEnd (s : State) (ch : Nat) (ident : BitVec 16) : Option Bool :=
  let c := s.chanCfg ch
  if ident.toNat = c % 2 ^ 16 then some true
  else if s.chanPlain ch ∧ ident.toNat = bitsAt c 32 16 then some false
  else none

/-- A bus error (R329): counted, and nothing changes. -/
def State.busError (s : State) (ch : Nat) : State := s.onChan ch (fun c => { c with errors := min (c.errors + 1) 65535 })

/-- A write of words into a channel (R328, R329): 0 done, 3 bus error, 4 full queue. -/
def State.chanWrite (s : State) (ch : Nat) (ident : BitVec 16) (ws : List (BitVec 32)) : Nat × State :=
  let c := s.chan ch
  let put := ws.map (fun w => (w, ident))
  if !s.chanOn ch then (3, s.busError ch)
  else match s.chanEnd ch ident with
    | none => (3, s.busError ch)
    | some true =>
      if 16 < c.inq.length + ws.length then (4, s.busError ch)
      else
        let s := s.onChan ch (fun c => { c with inq := c.inq ++ put })
        (0, if s.chanPlain ch ∨ s.lodge.mail.contains ch then s
            else { s with lodge := { s.lodge with mail := s.lodge.mail ++ [ch] } })
    | some false =>
      if 16 < c.outq.length + ws.length then (4, s.busError ch)
      else (0, s.onChan ch (fun c => { c with outq := c.outq ++ put }))

/-- A read of up to `n` words of the queue that an identity reads (R328, R329): the owner its outbound queue, the peer its
inbound one. -/
def State.chanRead (s : State) (ch : Nat) (ident : BitVec 16) (n : Nat) : Option (List (BitVec 32 × BitVec 16)) × State :=
  let c := s.chan ch
  if !s.chanOn ch then (none, s.busError ch)
  else match s.chanEnd ch ident with
    | none => (none, s.busError ch)
    | some true =>
      if c.outq.isEmpty then (none, s.busError ch)
      else (some (c.outq.take n), s.onChan ch (fun c => { c with outq := c.outq.drop n }))
    | some false =>
      if c.inq.isEmpty then (none, s.busError ch)
      else (some (c.inq.take n), s.onChan ch (fun c => { c with inq := c.inq.drop n }))

/-- A write of an ack code (R328): the owner writes the peer-side register, the peer the owner-side one. -/
def State.chanAck (s : State) (ch : Nat) (ident : BitVec 16) (code : BitVec 16) : Bool × State :=
  if !s.chanOn ch then (false, s.busError ch)
  else match s.chanEnd ch ident with
    | none => (false, s.busError ch)
    | some true => (true, s.onChan ch (fun c => { c with ackPeer := code }))
    | some false => (true, s.onChan ch (fun c => { c with ackOwner := code }))

/-- The CH_STATUS word (R328). -/
def State.chanStatus (s : State) (ch : Nat) : Nat :=
  let c := s.chan ch
  c.ackOwner.toNat + c.ackPeer.toNat * 2 ^ 16 + c.inq.length * 2 ^ 32 + c.outq.length * 2 ^ 40

/-- HL_NOTIFY (14 R358): a channel's outbound queue holds a word and its owner is an HL_ identity, below 0x8000. -/
def State.hlNotify (s : State) (ch : Nat) : Bool :=
  s.chanOn ch && !(s.chan ch).outq.isEmpty && !(s.chanCfg ch).testBit 15

/-- Header of an HL_IRS response (14 R359). -/
def hlHeader (tag : BitVec 8) (status beats extra : Nat) : BitVec 64 :=
  BitVec.ofNat 64 (tag.toNat * 2 ^ 56 + status * 2 ^ 52 + beats * 2 ^ 45 + extra)

/-- A message header of a lodge answer: the operation, request number, channel, status, and word count. -/
def lodgeHeader (op : Nat) (tag : BitVec 8) (ch status n : Nat) : BitVec 32 := msgHeader op tag (ch % 256) status n

/-- Words joined with word 0 lowest. -/
def joinWords (ws : List (BitVec 32)) : Nat := ws.zipIdx.foldl (fun a x => a + x.1.toNat * 2 ^ (32 * x.2)) 0

/-- Identities joined with identity 0 lowest. -/
def joinIdents (is_ : List (BitVec 16)) : Nat := is_.zipIdx.foldl (fun a x => a + x.1.toNat * 2 ^ (16 * x.2)) 0

/-- CH_WRITE: an MBOX_WRITE on HL_ of 1 to 16 words, or a lodge operation of 1 to 13 words. -/
def execChWrite (viaHl : Bool) (ident : BitVec 16) (tag : BitVec 8) (ch : Nat) (ws : List (BitVec 32)) (s : State) : Host.Outcome State Fault Refusal :=
  upWhen s (fun s => !viaHl || s.boot.present) (fun s =>
    if viaHl then
      if ws.length = 0 ∨ 16 < ws.length ∨ 64 ≤ ch then s.emit (.hlResp (hlHeader tag 3 0 0) [])
      else let r := s.chanWrite ch ident ws; r.2.emit (.hlResp (hlHeader tag (if r.1 = 0 then 0 else 1) 0 0) [])
    else
      if ws.length = 0 ∨ 13 < ws.length ∨ 64 ≤ ch then s.emit (.lodgeResp ident (lodgeHeader 0xC tag ch 5 0) [] [])
      else let r := s.chanWrite ch ident ws; r.2.emit (.lodgeResp ident (lodgeHeader 0xC tag ch r.1 0) [] []))

/-- CH_READ. -/
def execChRead (viaHl : Bool) (ident : BitVec 16) (tag : BitVec 8) (ch : Nat) (n : Nat) (s : State) : Host.Outcome State Fault Refusal :=
  upWhen s (fun s => !viaHl || s.boot.present) (fun s =>
    if viaHl then
      if n = 0 ∨ 16 < n ∨ 64 ≤ ch then s.emit (.hlResp (hlHeader tag 3 0 0) [])
      else
        let r := s.chanRead ch ident n
        match r.1 with
        | none => r.2.emit (.hlResp (hlHeader tag 1 0 0) [])
        | some ws => r.2.emit (.hlResp (hlHeader tag 0 2 (ws.length * 2 ^ 40))
            [BitVec.ofNat 512 (joinWords (ws.map (·.1))), BitVec.ofNat 512 (joinIdents (ws.map (·.2)))])
    else
      if n = 0 ∨ 13 < n ∨ 64 ≤ ch then s.emit (.lodgeResp ident (lodgeHeader 0xD tag ch 5 0) [] [])
      else
        let r := s.chanRead ch ident n
        match r.1 with
        | none => r.2.emit (.lodgeResp ident (lodgeHeader 0xD tag ch 3 0) [] [])
        | some ws => r.2.emit (.lodgeResp ident (lodgeHeader 0xD tag ch 0 ws.length) (ws.map (·.1)) (ws.map (·.2))))

/-- ACK_WRITE. -/
def execAckWrite (viaHl : Bool) (ident : BitVec 16) (tag : BitVec 8) (ch : Nat) (code : BitVec 16) (s : State) : Host.Outcome State Fault Refusal :=
  upWhen s (fun s => !viaHl || s.boot.present) (fun s =>
    if 64 ≤ ch then
      s.emit (if viaHl then .hlResp (hlHeader tag 3 0 0) [] else .lodgeResp ident (lodgeHeader 0xE tag ch 5 0) [] [])
    else
      let r := s.chanAck ch ident code
      r.2.emit (if viaHl then .hlResp (hlHeader tag (if r.1 then 0 else 1) 0 0) []
        else .lodgeResp ident (lodgeHeader 0xE tag ch (if r.1 then 0 else 3) 0) [] []))

/-- CH_STATUS. -/
def execChStatus (viaHl : Bool) (ident : BitVec 16) (tag : BitVec 8) (ch : Nat) (s : State) : Host.Outcome State Fault Refusal :=
  upWhen s (fun s => !viaHl || s.boot.present) (fun s =>
    if 64 ≤ ch then
      s.emit (if viaHl then .hlResp (hlHeader tag 3 0 0) [] else .lodgeResp ident (lodgeHeader 0xF tag ch 5 0) [] [])
    else
      let v := s.chanStatus ch
      s.emit (if viaHl then .hlResp (hlHeader tag 0 1 0) [BitVec.ofNat 512 v]
        else .lodgeResp ident (lodgeHeader 0xF tag ch 0 0) [BitVec.ofNat 32 v, BitVec.ofNat 32 (v / 2 ^ 32)] []))

end Sys2Proof.Machine
end

