-- ==== Sys2Proof/Machine/Live.lean ====
section
/-!
DEFINITION. What a read of an object finds (09 R254): the committed view, and for the objects that the block itself keeps
their present state.
-/
namespace Sys2Proof.Machine

/-- A signed value as a 64-bit word (09 R248: I32 and wider two's complement). -/
def signedWord (v : Int) : Nat := (v % 2 ^ 64).toNat

/-- Word `i` of a value. -/
def wordOf (v i : Nat) : Nat := v / 2 ^ (64 * i) % 2 ^ 64

/-- Domain states as 0x8020:02 numbers them. -/
def domCode : DomState → Nat
  | .active => 0 | .doze => 1 | .goingDown => 2 | .sleep => 3 | .waking => 4 | .rejoining => 5

/-- Firmware states as 0x4401:01 numbers them. -/
def fwCode : FwState → Nat
  | .rom => 0 | .ready => 1 | .refused => 2 | .attached => 3 | .hostless => 4

/-- Partition states as 0x0801:01 numbers them. -/
def partCode : PartState → Nat
  | .free => 0 | .held => 1 | .ending => 2

/-- The code of a path in the sessions object (0x0000:05). -/
def pathCode : Path → Nat
  | .host _ => 0 | .lodge _ => 1 | .mgmt => 2 | .remote _ => 3 | .keeper => 0

/-- The name of the build (14 R369), first character lowest. -/
def buildName (b : Build) : Nat :=
  let digits (n : Nat) : List Nat := (toString n).toList.map (fun c => c.toNat)
  ofBytes (((80 :: digits (256 * b.galleries)) ++ (if b.pavilions then [] else [83])).map (fun c => BitVec.ofNat 8 c))

/-- The limit state (0x0411:05). -/
def State.limitState (s : State) : Nat :=
  let droop : Bool := s.govs.any (fun g => g.2.request && g.2.cause == some .droop)
  (if s.lim.warn.isEmpty then 0 else 1) + (if s.lim.reset.isEmpty then 0 else 2) + (if droop then 4 else 0) +
    (if s.lim.throttle then 8 else 0) + (if s.lim.tripped then 16 else 0) + s.lim.stage % 4 * 32 +
    (if s.lim.unmet then 128 else 0) + (if s.powerEmergency then 256 else 0)

/-- The build parameters (0x0441:03). -/
def buildWord (b : Build) : Nat :=
  b.galleries % 16 + (if b.pavilions then 16 else 0) + b.thermalInputs % 32 * 2 ^ 8 + b.securityId.toNat * 2 ^ 16 +
    b.i3cStatic.toNat * 2 ^ 32 + b.tapMfr.toNat * 2 ^ 39

/-- The rows of a tap's results (0x8004:11 to :14): four counts, minimum, maximum, status, digest, and the sum's image. -/
def tapRow (t : Tap) (row : Nat) : Nat :=
  match row with
  | 0 => t.count | 1 => t.nans | 2 => t.infs | 3 => t.zeros
  | 4 => (match t.min with | some v => v.toNat | none => 0)
  | 5 => (match t.max with | some v => v.toNat | none => 0)
  | 6 => (if t.order then 4 else 0) + (if t.overflow then 2 else 0) + (if t.min.isNone then 1 else 0)
  | 7 => t.digest.toNat
  | r => wordOf (t.sum % 2 ^ 384).toNat (r - 8)

/-- Objects of dictionary control and identity. -/
def State.live00 (s : State) (id row word : Nat) : Option Nat :=
  match id with
  | 0x000001 => some s.ctl.epoch.toNat
  | 0x000002 => some (s.ctl.epoch.toNat + (if s.ctl.pending.isSome then 1 else 0))
  | 0x000003 => some (match s.ctl.pending with | some e => e.time | none => 0)
  | 0x000004 => some (s.ctl.lastEpoch.getD 0)
  | 0x000005 => some (match s.ctl.sessions.find row with
    | some x => 2 ^ 31 + x.right % 4 * 2 ^ 29 + x.part % 1024 * 2 ^ 19 + pathCode x.path * 2 ^ 17 + x.ident.toNat
    | none => 0)
  | 0x000007 => some (wordOf (s.ctl.clampLog.get 0 row).toNat word)
  | 0x000008 => some ((if s.ctl.clampWrapped then 2 ^ 31 else 0) + s.ctl.clampPos)
  | 0x00000B => some (match s.ctl.queue[row]? with | some e => e.time | none => 0)
  | 0x010004 => some (wordOf (buildName s.build) word)
  | 0x010006 => some (match s.fw.running with | some i => i.iface.toNat | none => 0)
  | 0x010007 => some (match s.fw.running with | some i => i.version.toNat | none => 0)
  | 0x010008 => some (match s.fw.running with | some i => wordOf i.digest.toNat word | none => 0)
  | 0x01000A => some s.mgmt.eid.toNat
  | _ => none

/-- Objects of limits, partitions, domains and start-up. -/
def State.live04 (s : State) (id inst row word : Nat) : Option Nat :=
  match id with
  | 0x041004 => some s.lim.capCore
  | 0x041005 => some s.capInForce
  | 0x041006 => some s.lim.estimate
  | 0x041105 => some s.limitState
  | 0x041106 => some (signedWord (s.lim.thermal.get 0 row))
  | 0x041107 => some (s.lim.supply.get 0 row)
  | 0x044101 => some s.boot.progress
  | 0x044102 => some (s.boot.selfTest.get 0 row)
  | 0x044103 => some (buildWord s.build)
  | 0x080101 =>
    let x := s.part row
    some (x.job.toNat * 2 ^ 48 + partCode x.st * 2 ^ 46 + (s.landingsOf row).length * 2 ^ 34 + (if x.spans then 2 ^ 33 else 0))
  | 0x080102 => let v := (s.part row).shares; some (v.1 * 2 ^ 32 + v.2.1 * 2 ^ 16 + v.2.2)
  | 0x080103 => let v := (s.part row).quotas; some (v.1 * 2 ^ 32 + v.2.1 * 2 ^ 16 + v.2.2)
  | 0x080202 => some ((List.range 64).foldl (fun a i => if (s.part (64 * word + i)).stopped then a + 2 ^ i else a) 0)
  | 0x080204 =>
    let x := s.part row
    some ((if x.st = .ending then ((s.landingsOf row).filter (fun l => !(s.tile l).scrubOk)).length else 0) * 2 ^ 20 +
      x.scrubFails % 4096 * 2 ^ 8)
  | 0x802001 => some (match domainOf (unitOfInst inst) with | some d => (s.dom d).target | none => 0)
  | 0x802002 => some (domCode (s.domState (unitOfInst inst)))
  | _ => none

/-- Objects of routing, plans, time and pavilions. The active plan's row shows its digest and then, 16 bits each, the chips that it binds, as
far as the 16 words of a row reach (R244; log entry 99). -/
def State.live10 (s : State) (id inst row word : Nat) : Option Nat :=
  match id with
  | 0x100203 => some s.drain.st
  | 0x100204 => some s.drain.number
  | 0x101002 => some s.chipNo
  | 0x101102 =>
    let u := unitOfInst inst
    some ((List.range 64).foldl (fun a i => if s.usable u (64 * word + i) then a + 2 ^ i else a) 0)
  | 0x180004 => some (if s.plan.running then 1 else 0)
  | 0x180005 => some s.plan.status
  | 0x180006 => some s.plan.section_
  | 0x180007 => some (wordOf s.plan.digest.toNat word)
  | 0x180101 =>
    let x := s.part row
    if word < 6 then some (wordOf x.digest.toNat word)
    else if x.binding.isEmpty then some 0
    else some ((List.range 4).foldl (fun a i => a + x.binding.getD (4 * (word - 6) + i) 0xFFFF % 2 ^ 16 * 2 ^ (16 * i)) 0)
  | 0x181001 => some (s.part row).frameLen
  | 0x181002 => some (s.part row).repair
  | 0x181003 => some ((s.part row).holdLead * 2 ^ 16 + (s.part row).ackLag)
  | 0x181004 => some (s.part row).e0
  | 0x181005 => some (s.part row).rate
  | 0x280003 => some (s.mach.grand.getD 0xFFFF)
  | 0x280004 => some (timeCode s.mach.st)
  | 0x280005 => some (if s.mach.grand.isNone then 0xFFFF else s.mach.hops % 256 * 256 + s.mach.parent.getD 0xFF)
  | 0x280006 => some (signedWord s.mach.theta)
  | 0x281002 => some (trainCode (s.pav (inst % 4096)).st)
  | 0x281003 => some (s.pav (inst % 4096)).reason
  | 0x281004 =>
    let v := s.pav (inst % 4096)
    some (match v.peerChip with
      | some c => c % 4096 * 2 ^ 20 + v.peerPav % 16 * 2 ^ 16 + v.generation % 8 * 2 ^ 13
      | none => 0)
  | 0x281006 => some ((s.pav (inst % 4096)).dRx % 2 ^ 32).toNat
  | 0x281007 => some (if (s.pav (inst % 4096)).alarm then 1 else 0)
  | _ => none

/-- Objects of combining and collectives. -/
def State.live20 (s : State) (id inst row : Nat) : Option Nat :=
  let u := unitOfInst inst
  match id with
  | 0x200001 => some (storeEntries u)
  | 0x200002 => some (freeEntries u (s.sw u))
  | 0x200003 => some (s.sw u).resvs.length
  | 0x200004 => some (s.sw u).alu
  | 0x210201 => some (s.coll row).st
  | 0x210202 =>
    if s.holdsDesc row then
      let n := (s.coll row).count
      let x := s.selection row (if n = 0 then dCount (s.desc row) else n)
      some (x.cross % 4 * 2 ^ 14 + x.form % 4 * 2 ^ 12 + x.plane % 4 * 2 ^ 10 + x.chunks % 128)
    else some 0
  | 0x210203 => some (s.coll row).settled
  | 0x220003 => some ((List.range 4096).filter (fun r => (s.word 0x220002 inst r 2).testBit 63)).length
  | _ => none

/-- Objects of fault collection. -/
def State.live30 (s : State) (k id row word : Nat) : Option Nat :=
  match id with
  | 0x300101 => some (match s.gate.fifo with | r :: _ => wordOf r.toNat word | [] => 0)
  | 0x300103 => some s.gate.fifo.length
  | 0x300104 => some s.gate.dropped
  | 0x300401 => some (wordOf s.gate.first.toNat word)
  | 0x300403 => some (wordOf s.gate.fatal.toNat word)
  | 0x300501 => some s.gate.flags.length
  | 0x300503 => some (match s.gate.flags[row]? with
    | some f => f / 2 ^ 22 % 8 * 2 ^ 28 + f / 2 ^ 10 % 4096 * 2 ^ 16 + f % 1024 + (if 256 < s.gate.flags.length then 2 ^ 31 else 0)
    | none => 0)
  | 0x300601 =>
    let r := s.react
    some (r.st % 4 * 2 ^ 30 + (match r.running with | some x => x.kind % 1024 | none => 0) * 2 ^ 20 + min r.queue.length 127 * 2 ^ 13 +
      min r.suspended.length 31 * 2 ^ 8 + min r.overflow 15 * 2 ^ 4 + min r.subsumed 15)
  | 0x301002 =>
    let v := s.selector k 0x301001 0
    some (s.gate.summary.get 0 (sourceKey (bitsAt v 28 3) (bitsAt v 16 12) (v % 1024)))
  | _ => none

/-- A fixed counter summed over the units of a level. -/
def State.levelTotal (s : State) (level i : Nat) : Nat :=
  s.obs.ctrs.foldl (fun (a : Nat) (c : Nat × PortCtrs) =>
    if c.1 / 2 ^ 20 = level then (a + c.2.fixed.get 0 i) % 2 ^ 48 else a) 0

/-- Objects of observation. -/
def State.live38 (s : State) (k id inst row word : Nat) : Option Nat :=
  let u := unitOfInst inst
  let port := s.selector k 0x381001 inst
  match id with
  | 0x380004 => some s.obs.ctrState
  | 0x380006 => some s.obs.frozenAt
  | 0x381002 => some ((s.ctrs u port).fixed.get 0 row)
  | 0x381003 => some ((s.ctrs u port).cfg.get 0 row).toNat
  | 0x381004 => some ((s.ctrs u port).prog.get 0 row)
  | 0x381101 => some (s.levelTotal (row / 8) (row % 8))
  | 0x382102 => some (if s.streaming then 1 else if !s.obs.bvReady && s.val 0x382101 != 0 then 2 else 0)
  | 0x382201 => some (match (s.sw u).trace with | r :: _ => wordOf r.toNat word | [] => 0)
  | 0x382203 => some (s.sw u).trace.length
  | 0x386005 => some s.obs.snap.st
  | _ => none

/-- Objects of the lodge and the firmware. -/
def State.live40 (s : State) (id row word : Nat) : Option Nat :=
  match id with
  | 0x401002 => some (s.fw.attachNo.toNat * 2 ^ 32 + s.fw.attachResult.toNat * 2 ^ 8 +
      (match s.fw.running with | some i => i.iface.toNat / 2 ^ 16 % 256 | none => 0))
  | 0x401003 => some s.fw.agreed.toNat
  | 0x402002 =>
    let c := s.chan row
    some (c.inq.length * 2 ^ 59 + c.outq.length * 2 ^ 54 + c.ackOwner.toNat * 2 ^ 32 + c.ackPeer.toNat * 2 ^ 16 + c.errors)
  | 0x440003 => some (if s.fw.loading then 1 else 0)
  | 0x440004 => some s.fw.status
  | 0x440005 => some (match s.fw.standby with | some i => wordOf i.digest.toNat word | none => 0)
  | 0x440006 => some (match s.fw.standby with | some i => i.version.toNat * 2 ^ 32 + i.iface.toNat | none => 0)
  | 0x44000B => some s.fw.activatedAt
  | 0x440101 => some (fwCode s.fw.st)
  | 0x440201 => some (s.dict.filter (fun x => !(keyId x.1 == 0x182003 && keyWord x.1 == 1))).length
  | _ => none

/-- Objects of a landing. -/
def State.live80 (s : State) (id inst row : Nat) : Option Nat :=
  let l := inst % 4096
  let t := s.tile l
  match id with
  | 0x102001 => some ((s.ep l).entries.filter (fun (e : Nat × Entry) => e.2.kind != 0)).length
  | 0x800001 => some t.detached.toNat
  | 0x800102 => some (match (s.ep l).entries.find row with
    | some e => if e.kind = 1 ∧ (t.txs.find row).isSome then 3 else e.kind
    | none => 0)
  | 0x800201 => some (t.windows.foldl (fun (a : Nat) (w : Nat × Window) => a + 2 ^ w.1) 0)
  | 0x800301 => some (signedWord (t.sems.get 0 row).toInt)
  | 0x800411 => some (tapRow (t.taps.get {} 0) row)
  | 0x800412 => some (tapRow (t.taps.get {} 1) row)
  | 0x800413 => some (tapRow (t.taps.get {} 2) row)
  | 0x800414 => some (tapRow (t.taps.get {} 3) row)
  | 0x800501 => some t.scrubState
  | _ => none

/-- The committed value of an entry of an object, for a session's selectors (R249, R254): a write-only object reads 0, a
selector its value for the session. -/
def State.liveObj (s : State) (k : Nat) (o : Obj) (inst row word : Nat) : Nat :=
  let id := o.id
  let kept : Option Nat :=
    if id < 0x020000 then s.live00 id row word
    else if id < 0x100000 then s.live04 id inst row word
    else if 0x802000 ≤ id ∧ id < 0x803000 then s.live04 id inst row word
    else if id < 0x200000 then (if id = 0x102001 then s.live80 id inst row else s.live10 id inst row word)
    else if id < 0x280000 then s.live20 id inst row
    else if id < 0x300000 then s.live10 id inst row word
    else if id < 0x380000 then s.live30 k id row word
    else if id < 0x400000 then s.live38 k id inst row word
    else if id < 0x800000 then s.live40 id row word
    else s.live80 id inst row
  if o.acc = .wo then 0
  else if o.takes = .selector then s.selector k id inst
  else kept.getD (s.wordAt (s.placeOf k id inst row word))

end Sys2Proof.Machine
end

