-- ==== Sys2Proof/Machine/Boundary.lean ====
section
/-!
DEFINITION. Resets and start-up, the host landing's port, the management target and the test access port (14).
-/
namespace Sys2Proof.Machine

/-! ## Resets and start-up (R349 to R354) -/

/-- Whether a block reset is accepted: out of a thermal trip only while every input in use reads below the throttle
temperature (10 R287). -/
def State.resetAccepted (s : State) : Bool :=
  !s.lim.tripped || (List.range s.build.thermalInputs).all (fun i =>
    decide (s.thermalOf (s.lim.thermal.get 0 i) < 16 * (s.val 0x041101 : Int)))

/-- The state of a block held in reset: nothing survives but the TAP, the build, and what the model keeps beside the machine. -/
def State.wiped (s : State) : State :=
  { State.reset with pending := s.pending, build := s.build, free := s.free, tap := s.tap }

/-- BLOCK_RESET: PWR_OK or RST_N low (R350). -/
def execBlockReset (s : State) : Host.Outcome State Fault Refusal :=
  .next (if s.resetAccepted then s.wiped else { s with outs := [] })

/-- RESET_RELEASE (R352): supplies and temperatures are in range; the slot generators lock, and K0 sends every island of the control
domain the time 0 to load. The control domain's self-test begins. -/
def execResetRelease (s : State) : Host.Outcome State Fault Refusal :=
  .next (let s := { s with outs := [] }
    if s.boot.inReset then
      ({ s with boot := { s.boot with inReset := false, progress := 1 } }).sendLoad 140 (s.specials.map UnitId.special) 0
    else s)

/-- The domains of the build, in SUP_CODE order. -/
def State.domains (s : State) : List Nat :=
  List.range (16 * s.build.galleries) ++ (List.range s.build.galleries).map (· + 128) ++ [136, 137, 138, 139]

/-- The default control block of ring set 0 (12 R323). -/
def defaultRings : List Byte :=
  [(0x000800, 6), (0x001800, 6), (0x002800, 8), (0x004800, 6)].flatMap (fun (r : Nat × Nat) =>
    bytesOf 16 (r.1 * 2 ^ 104 + r.2 * 2 ^ 100))

/-- The control domain is up (R352 step 3): lodge SRAM is zeroed, K0 is in its boot ROM, ring set 0 and channel 0 take their
defaults (12 R323, R327), HL_PRESENT is high, and the switchable domains are powered. -/
def State.controlUp (s : State) : State :=
  let s := { s with
    boot := { s.boot with progress := 2, present := true }
    lodge := {}
    doms := s.domains.map (fun d => (d, { st := .waking, since := s.time, poweredAt := s.time }))
    loads := s.domains.foldl (fun (m : FMap TimeLoad) d => m.put d { value := BitVec.ofNat 64 s.time, left := (rejoinUnits d).map UnitId.code }) s.loads
    mach := if s.build.pavilions then s.mach else { s.mach with st := .grand, chipNo := some 0 } }
  ((s.sramSet 0 defaultRings).readRings 0).setWord 0x402001 0 0 0 (2 ^ 63 + 2 * 2 ^ 61 + s.build.securityId.toNat)

/-- A self-test failure of the control domain (R353): the fatal reaction, before any domain is powered. -/
def State.fatalAtStart (s : State) (ep kind : Nat) : State :=
  ({ s with boot := { s.boot with progress := 4 } }).faultMsg (faultMessage 5 ep 15 kind 2 1023 s.time 0 0)

/-- Whether a domain's turn in the start-up has come: the halls, then the galleries, then the stairs (R352 step 4). -/
def State.turnOf (s : State) (d : Nat) : Bool :=
  s.domains.all (fun x =>
    let earlier : Bool := if d < 128 then decide (128 ≤ x) else if d < 136 then decide (136 ≤ x) else false
    !earlier || (s.boot.selfTest.find x).isSome)

/-- Publish a domain's self-test result (0x0441:02). -/
def State.testResult (s : State) (d v : Nat) : State := { s with boot := { s.boot with selfTest := s.boot.selfTest.put d v } }

/-- A domain whose buffers or tables failed goes back to SLEEP; a failed gallery holds its untested stairs there too (R353).
Which memory failed is not part of the report that the model is given, so the sub-unit is free (log entry 4). -/
def State.failDomain (s : State) (d : Nat) : State :=
  let s := (s.testResult d 1).onDom d (fun x => { x with st := .sleep, target := 2, failed := true, since := s.time })
  let f := s.fresh 4
  let s := f.2.raiseFor .chip (domainUnit d) f.1.toNat 0x044 1023 0
  if d < 128 ∨ 136 ≤ d then s
  else (List.range 16).foldl (fun (s : State) i =>
    let e := 16 * (d - 128) + i
    if (s.boot.selfTest.find e).isSome then s
    else (s.testResult e 4).onDom e (fun x => { x with st := .sleep, since := s.time })) s

/-- A domain whose combining store or ALU failed runs with its ALU failed (R353, 06 R172). -/
def State.failAlu (s : State) (d : Nat) : State :=
  let s := (s.testResult d 2).onSw (domainUnit d) (fun w => { w with alu := 1 })
  let f := s.fresh 1
  f.2.raiseFor .chip (domainUnit d) (3 + f.1.toNat) 0x044 1023 0

/-- The result of a switchable domain's self-test. At start-up a domain that passes becomes ACTIVE; later its rejoin goes on. -/
def State.domainTested (s : State) (d : Nat) (r : SelfTest) : State :=
  let go (s : State) : State := if s.boot.progress = 2 then s.domainActive d else s
  let s := match r with
    | .bufferFailed => s.failDomain d
    | .combiningFailed => go (s.failAlu d)
    | _ => go (s.testResult d 0)
  if s.boot.progress = 2 ∧ s.domains.all (fun x => (s.boot.selfTest.find x).isSome) then
    { s with boot := { s.boot with progress := 3 } }
  else s

/-- SELF_TEST_COMPLETE (R352, R353): of the control domain, numbered 140, or of a domain that wakes. -/
def execSelfTestComplete (d : Nat) (r : SelfTest) (s : State) : Host.Outcome State Fault Refusal :=
  up s (fun s =>
    if s.boot.progress = 1 ∧ d = 140 then
      match r with
      | .keeperMemory lodge => s.fatalAtStart (if lodge then 2049 else 2051) 0x0C1
      | .gatehouseMemory => s.fatalAtStart 2050 0x0C3
      | _ => s.controlUp
    else if 2 ≤ s.boot.progress ∧ s.boot.progress ≤ 3 ∧ s.domains.contains d ∧ (s.dom d).st = .waking ∧ !(s.dom d).failed ∧
        (s.boot.progress = 3 ∨ s.turnOf d) then s.domainTested d r
    else s)

/-- RESET_REQUEST (R351): the pavilions announce it, the belvedere idles, and RSTACK_N is driven low. -/
def execResetRequest (s : State) : Host.Outcome State Fault Refusal :=
  up s (fun s =>
    let s := { s with boot := { s.boot with requested := true, ackLow := true } }
    s.linked.foldl (fun (s : State) p => s.onPav p (fun v => { v with goingDown := 8 })) s)

/-- RESET_REQUEST_WITHDRAW (R351): RSTACK_N is released, and every pavilion is left DISABLED with its enable at 0. -/
def execResetRequestWithdraw (s : State) : Host.Outcome State Fault Refusal :=
  upWhen s (fun s => s.boot.requested) (fun s =>
    let s := { s with boot := { s.boot with requested := false, ackLow := false } }
    (List.range (s.instCount 5)).foldl (fun (s : State) p =>
      let s := s.setWord 0x281001 (pavInst p) 0 0 0
      let s := s.onPav p (fun v => { v with goingDown := 0, txIdle := true })
      if (s.pav p).st = .disabled then s else s.leaveUp p .disabled) s)

/-! ## The host landing's port (R357 to R360) -/

/-- The frame of an inbound request on HL_: served while HL_PRESENT is high. -/
def hlUp (s : State) (f : State → State) : Host.Outcome State Fault Refusal := upWhen s (fun s => s.boot.present) f

/-- The check of an SRAM request (R359): 3 malformed, 2 address error. -/
def sramFault (count addr : Nat) : Nat :=
  if count = 0 ∨ 64 < count then 3
  else if addr % 64 ≠ 0 ∨ 0x200000 < addr + 64 * count then 2
  else 0

/-- SRAM_READ. -/
def execSramRead (ident : BitVec 16) (tag : BitVec 8) (count : Nat) (addr : BitVec 24) (s : State) : Host.Outcome State Fault Refusal :=
  let _ := ident
  hlUp s (fun s =>
    let c := sramFault count addr.toNat
    if c ≠ 0 then s.emit (.hlResp (hlHeader tag c 0 0) [])
    else s.emit (.hlResp (hlHeader tag 0 count 0) (payloadsOf count (sramRead s.lodge.sram addr.toNat (64 * count)))))

/-- Write one beat under its byte enables. -/
def State.sramBeat (s : State) (a : Nat) (x : Payload × BitVec 64) : State :=
  { s with lodge := { s.lodge with sram := (List.range 64).foldl (fun (m : Memory) i =>
      if x.2.getLsbD i then sramPut m (a + i) (payloadByte x.1 i) else m) s.lodge.sram } }

/-- The ring sets whose command producer index a write touches (12 R323). -/
def bellsOf (a : Nat) (be : BitVec 64) : List Nat :=
  if a < 0x800 ∧ (List.range 4).any (fun i => be.getLsbD (4 + i)) then [a / 64] else []

/-- SRAM_WRITE, a doorbell where it hits a producer index. -/
def execSramWrite (ident : BitVec 16) (tag : BitVec 8) (addr : BitVec 24) (beats : List (Payload × BitVec 64)) (s : State) : Host.Outcome State Fault Refusal :=
  let _ := ident
  hlUp s (fun s =>
    let c := sramFault beats.length addr.toNat
    if c ≠ 0 then s.emit (.hlResp (hlHeader tag c 0 0) [])
    else
      let s := beats.zipIdx.foldl (fun (s : State) (x : (Payload × BitVec 64) × Nat) =>
        let a := addr.toNat + 64 * x.2
        (bellsOf a x.1.2).foldl (fun (s : State) i => s.ringBell i) (s.sramBeat a x.1)) s
      s.emit (.hlResp (hlHeader tag 0 0 0) []))

/-- Open descriptors of the host landing: its entries, and the completion records that it still queues (R359). -/
def State.hostOpen (s : State) : Nat :=
  ((s.ep 2048).entries.filter (fun (e : Nat × Entry) => e.2.kind != 0)).length + s.host.cmpl.length

/-- DESCRIPTOR: a dynamic descriptor for the host landing. -/
def execDescriptor (ident : BitVec 16) (tag : BitVec 8) (client : Nat) (w : BitVec 256) (s : State) : Host.Outcome State Fault Refusal :=
  let _ := ident
  hlUp s (fun s =>
    if 32 ≤ client then s.emit (.hlResp (hlHeader tag 3 0 0) [])
    else if 64 ≤ s.hostOpen then s.emit (.hlResp (hlHeader tag 4 0 0) [])
    else (s.descriptor 2048 client (descOpcode w) (unpackDesc w)).emit (.hlResp (hlHeader tag 0 0 0) []))

/-- CMPL_READ: up to 8 completion records of a client, oldest first. -/
def execCmplRead (ident : BitVec 16) (tag : BitVec 8) (client : Nat) (s : State) : Host.Outcome State Fault Refusal :=
  let _ := ident
  hlUp s (fun s =>
    if 32 ≤ client then s.emit (.hlResp (hlHeader tag 3 0 0) [])
    else
      let mine := (s.host.cmpl.filter (fun (x : Nat × BitVec 64) => x.1 == client)).take 8
      let rest := mine.foldl (fun (l : List (Nat × BitVec 64)) x => l.erase x) s.host.cmpl
      let v := mine.zipIdx.foldl (fun (a : Nat) (x : (Nat × BitVec 64) × Nat) => a + x.1.2.toNat * 2 ^ (64 * x.2)) 0
      ({ s with host := { s.host with cmpl := rest } }).emit (.hlResp (hlHeader tag 0 1 (mine.length * 2 ^ 40)) [BitVec.ofNat 512 v]))

/-- HL_CMPL (R359): high while a completion record is queued. -/
def State.hlCmpl (s : State) : Bool := !s.host.cmpl.isEmpty

/-- The bytes of some response beats. -/
def beatBytes (us : List Payload) : List Byte := us.flatMap payloadBytes

/-- More bytes of a plan image that the host window holds (03 R90). -/
def State.planMore (s : State) (ok : Bool) (us : List Payload) : State :=
  if !s.plan.running then s
  else if !ok then { s with plan := { s.plan with hostError := true } }
  else
    let s := { s with plan := { s.plan with host := s.plan.host ++ beatBytes us } }
    let total := (planHeader s.plan.host).length
    if s.plan.host.length < total then s.loadMore 2 (s.val 0x180002) s.plan.host.length total else s

/-- More bytes of a firmware image that the host window holds (12 R312). -/
def State.firmwareMore (s : State) (ok : Bool) (us : List Payload) : State :=
  if !s.fw.loading then s
  else if !ok then { s with fw := { s.fw with hostError := true } }
  else
    let s := { s with fw := { s.fw with host := s.fw.host ++ beatBytes us } }
    let total := (fwHeader s.fw.host).length
    if s.fw.host.length < total then s.loadMore 3 (s.val 0x440002) s.fw.host.length total else s

/-- What the answer to an outbound request does. -/
def State.hostAnswered (s : State) (x : OutReq) (ok : Bool) (us : List Payload) : State :=
  match x.use with
  | 1 => match x.hdr with
    | some h => if ok then s.ack 2048 h 0 else s.error (.special 2048) h 0x03
    | none => s
  | 2 => s.planMore ok us
  | 3 => s.firmwareMore ok us
  | 5 => match (s.ep 2048).jobs.find? (fun j => some j.hdr == x.hdr) with
    | some j => if ok then s.jobDone 2048 j ((beatBytes us).drop (j.base % 64) |>.take j.bytes) else s.jobFailed 2048 j 3
    | none => s
  | _ => s

/-- OUTBOUND_RESPONSE (R360): done with the beats asked for, or an error. The freed tag goes to the request that waits longest. -/
def execOutboundResponse (tag : Nat) (status : BitVec 4) (beats : List Payload) (s : State) : Host.Outcome State Fault Refusal :=
  hlUp s (fun s => match s.host.outReqs.find tag with
    | none => s
    | some x =>
      let s := { s with host := { s.host with outReqs := s.host.outReqs.del tag } }
      let s := s.hostAnswered x (status == 0#4 && (decide (beats.length = x.beats) || x.use == 1 || x.use == 4 || x.use == 6)) beats
      match s.host.asks with
      | [] => s
      | a :: rest => ({ s with host := { s.host with asks := rest } }).hostRequest a)

/-! ## The management target (R367; 09 R240) -/

/-- The frame of a management command: the target answers once the control domain is up, or where it failed its self-test. -/
def mgUp (s : State) (f : State → State) : Host.Outcome State Fault Refusal := upWhen s (fun s => 2 ≤ s.boot.progress) f

/-- SET_ENDPOINT_ID: the MCTP base specification reserves the values 0 and 0xFF (log entry 32). -/
def execSetEndpointId (eid : BitVec 8) (s : State) : Host.Outcome State Fault Refusal :=
  mgUp s (fun s =>
    if eid = 0 ∨ eid = 0xFF then s.emit (.mctp 0x02#8 [])
    else ({ s with mgmt := { s.mgmt with eid := eid } }).emit (.mctp 0#8 [0#8, eid, 0#8]))

/-- GET_ENDPOINT_ID: the endpoint ID, and a simple endpoint with a dynamic ID (log entry 32). -/
def execGetEndpointId (s : State) : Host.Outcome State Fault Refusal :=
  mgUp s (fun s => s.emit (.mctp 0#8 [s.mgmt.eid, 0#8, 0#8]))

/-- GET_MCTP_VERSION_SUPPORT: one version (log entry 32). -/
def execGetMctpVersionSupport (s : State) : Host.Outcome State Fault Refusal :=
  mgUp s (fun s => s.emit (.mctp 0#8 (1#8 :: (bytesOf 4 Config.mctpVersion.toNat))))

/-- The message type of the vendor-defined messages: of a PCI or of an IANA number. -/
def vendorType : Byte := if Config.mctpIana then 0x7F#8 else 0x7E#8

/-- GET_MESSAGE_TYPE_SUPPORT: one type, the vendor-defined one. -/
def execGetMessageTypeSupport (s : State) : Host.Outcome State Fault Refusal :=
  mgUp s (fun s => s.emit (.mctp 0#8 [1#8, vendorType]))

/-- GET_VENDOR_DEFINED_MESSAGE_SUPPORT: the only set; its vendor number and type. -/
def execGetVendorDefinedMessageSupport (s : State) : Host.Outcome State Fault Refusal :=
  mgUp s (fun s => s.emit (.mctp 0#8 ([0xFF#8, if Config.mctpIana then 1#8 else 0#8] ++
    bytesOf (if Config.mctpIana then 4 else 2) Config.mctpVendor.toNat ++ bytesOf 2 Config.mctpVendorType.toNat)))

/-- UNSUPPORTED_MCTP_COMMAND: ERROR_UNSUPPORTED_CMD. -/
def execUnsupportedMctpCommand (code : BitVec 8) (s : State) : Host.Outcome State Fault Refusal :=
  let _ := code
  mgUp s (fun s => s.emit (.mctp 0x05#8 []))

/-- I3C_DYNAMIC_ADDRESS: by ENTDAA, or by SETDASA where the build has a static address (R367). -/
def execI3cDynamicAddress (m : I3cMethod) (addr : BitVec 7) (s : State) : Host.Outcome State Fault Refusal :=
  mgUp s (fun s => match m with
    | .entdaa => { s with mgmt := { s.mgmt with dynAddr := some addr } }
    | .setdasa => if s.build.i3cStatic = 0 then s else { s with mgmt := { s.mgmt with dynAddr := some addr } })

/-! ## The test access port (R368) -/

/-- The frame of a TAP command: the TAP works in reset too (R349). -/
def tapDo (s : State) (f : State → State) : Host.Outcome State Fault Refusal := .next (s.framed (f { s with outs := [] }))

/-- TEST_RESET: IDCODE is selected. -/
def execTestReset (s : State) : Host.Outcome State Fault Refusal :=
  tapDo s (fun s => { s with tap := { s.tap with instr := 1#8 } })

/-- Cells of the boundary register (R368): one per bit of every signal of the tables, landings, HL_, PV_ and BV_ without data
and clocks, and the rest without REF_CLK, the TAP signals, MG_SCL and MG_SDA. -/
def boundaryCells (b : Build) : Nat :=
  let landing := 1 + 32 + 3 + 65 + 13 + (13 + 1024 + 128 + 128 + 1) + 34 + 41 + 16 + (32 + 256 + 3) + (1024 + 128 + 1 + 48 + 1 + 24 + 1)
  let host := 1 + 1 + (1 + 128 + 512 + 64) + 1 + (1 + 64 + 512) + 1 + (1 + 128 + 512) + 1 + (1 + 64 + 512) + 1 + 64 + 1
  let pavilion := 1 + 1 + 1 + 1 + 8
  let domains := 17 * b.galleries + 5
  256 * b.galleries * landing + host + (if b.pavilions then 16 * pavilion else 0) + 2 +
    (3 + 1 + 2 + 14 * domains + 12 * 16 + 8 + 1 + 13)

/-- The TAP shifts out its boundary register. The cells of the block's pins bear their levels at that moment; the model drives
what commands drive and holds no pin levels, so the value is free (log entry 33). -/
def State.shiftBoundary (s : State) : State :=
  let n := boundaryCells s.build
  let f := s.fresh n
  f.2.emit (.tdo n f.1.toNat)

/-- EXTEST: the boundary register drives the preloaded cells while the block is in reset; a running block keeps its outputs,
and the instruction acts as BYPASS. -/
def execExtest (s : State) : Host.Outcome State Fault Refusal :=
  tapDo s (fun s =>
    let s := { s with tap := { s.tap with instr := 0#8 } }
    if s.boot.inReset then (s.emit (.pins s.tap.preload)).shiftBoundary else s.emit (.tdo 1 0))

/-- The identification code. -/
def idcode (b : Build) : Nat := 1 * 2 ^ 28 + 0x5A50 * 2 ^ 12 + b.tapMfr.toNat * 2 + 1

/-- IDCODE. -/
def execIdcode (s : State) : Host.Outcome State Fault Refusal :=
  tapDo s (fun s => ({ s with tap := { s.tap with instr := 1#8 } }).emit (.tdo 32 (idcode s.build)))

/-- SAMPLE/PRELOAD: the cells are sampled, and the register is loaded with those shifted in. -/
def execSamplePreload (cells : List Bool) (s : State) : Host.Outcome State Fault Refusal :=
  tapDo s (fun s => ({ s with tap := { s.tap with instr := 2#8, preload := cells.take (boundaryCells s.build) } }).shiftBoundary)

/-- The STATUS word. -/
def State.tapStatus (s : State) : Nat :=
  fwCode s.fw.st * 2 ^ 29 + (if s.gate.fatal = 0 then 0 else 2 ^ 28) + (if s.faultLow then 2 ^ 27 else 0) +
    (if s.warnLow then 2 ^ 26 else 0) + s.limitState % 512 * 2 ^ 17 + s.boot.progress * 2 ^ 14 + s.gate.flags.length % 2 ^ 14

/-- STATUS. -/
def execStatus (s : State) : Host.Outcome State Fault Refusal :=
  tapDo s (fun s => ({ s with tap := { s.tap with instr := 0x20#8 } }).emit (.tdo 32 s.tapStatus))

/-- BYPASS: one bit, captured as 0. -/
def execBypass (s : State) : Host.Outcome State Fault Refusal :=
  tapDo s (fun s => ({ s with tap := { s.tap with instr := 0xFF#8 } }).emit (.tdo 1 0))

end Sys2Proof.Machine
end

