-- ==== Sys2Proof/Machine/Dictionary.lean ====
section
/-!
DEFINITION. The object dictionary's messages and the paths that carry them (09 R239 to R253; 12 R324, R328, R330).
-/
namespace Sys2Proof.Machine

/-! ## What an immediate write does -/

/-- Clear a row of counts (a Range column "writing 0 clears"). -/
def State.clearRow (s : State) (o : Obj) (inst row : Nat) : State :=
  (List.range o.words).foldl (fun s w => s.setWord o.id inst row w 0) s

/-- Immediate writes of plans, landings and combining objects. -/
def State.immediateA (s : State) (w : Who) (o : Obj) (inst row word v : Nat) : State :=
  let l := inst % 4096
  let clearTap (k : Nat) : State := s.onTile l (fun t => { t with taps := t.taps.modify {} k (fun (x : Tap) => { cfg := x.cfg }) })
  match o.id with
  | 0x180004 => if v = 1 then s.startPlanLoad w.key else s
  | 0x181101 => (s.setVal 0x181101 v).changeRate (if v < 512 then [v] else []) 2 none
  | 0x181102 => (s.setVal 0x181102 v).changeRate (if v < 512 then [v] else []) 0 none
  | 0x800411 => clearTap 0
  | 0x800412 => clearTap 1
  | 0x800413 => clearTap 2
  | 0x800414 => clearTap 3
  | 0x800504 => s.startScrub l (bitsAt v 0 24) (bitsAt v 24 14) none
  | 0x281001 => s.enablePavilion l v
  | 0x280008 => if v = 1 ∧ s.mach.st = .timeFault then s.enterTime .acquire else s
  | 0x080201 => s.beginEnding v
  | 0x802001 => (match domainOf (unitOfInst inst) with | some d => s.setTarget d v | none => s)
  | _ => s.setWord o.id inst row word v

/-- Immediate writes of fault collection, firmware, lodge, observation and the dictionary's own objects. -/
def State.immediateB (s : State) (w : Who) (o : Obj) (inst row word v : Nat) : State :=
  let u := unitOfInst inst
  match o.id with
  | 0x000006 => s.beat v
  | 0x000008 => { s with ctl := { s.ctl with clampLog := [], clampPos := 0, clampWrapped := false } }
  | 0x300102 => if v = 1 then s.fifoPop else s
  | 0x300402 => if v = 1 then { s with gate := { s.gate with first := 0 } } else s
  | 0x300502 => s.clearFlags v
  | 0x302001 => s.armForce inst v
  | 0x302101 => s.armForce inst v
  | 0x381003 => s.setCounterCfg u (s.selector w.key 0x381001 inst) row v
  | 0x382202 => if v = 1 then s.popTrace u else s
  | 0x386001 => if v = 1 then s.triggerSnapshot 0 1023 else s
  | 0x386006 => if v = 1 then s.releaseSnapshot else s
  | 0x400001 => s.enableRings v
  | 0x401001 =>
    if row = 1 then { s with fw := { s.fw with attachWord := some (BitVec.ofNat 64 v) } }
    else s.attachDriver w.key (s.fw.attachWord.getD 0) (BitVec.ofNat 64 v)
  | 0x401004 => if v = 1 then s.detachDriver else s
  | 0x402001 => s.configureChan row v
  | 0x402002 => s.onChan row (fun c => { c with errors := 0 })
  | 0x440003 => if v = 1 then s.startFirmware else s
  | _ => s.setWord o.id inst row word v

/-- The effect of an accepted immediate write (R250). -/
def State.immediate (s : State) (w : Who) (o : Obj) (inst row word v : Nat) : State :=
  if o.range = .zero ∧ o.id ≠ 0x402002 ∧ o.id ≠ 0x000008 ∧ !decide (0x800411 ≤ o.id ∧ o.id ≤ 0x800414) then s.clearRow o inst row
  else if o.id < 0x010000 ∨ (0x300000 ≤ o.id ∧ o.id < 0x800000) then s.immediateB w o inst row word v
  else s.immediateA w o inst row word v

/-! ## Entries -/

/-- An access over the service tree wakes a unit in DOZE (01 R31, 10 R280). -/
def State.touch (s : State) (inst : Nat) : State :=
  if inst / 8192 = 0 then s
  else match domainOf (unitOfInst inst) with
    | some d => if (s.dom d).st = .doze then s.wake d else s
    | none => s

/-- A request with nobody's rights, as session 0 makes it. -/
def nobody : Who := { key := 0, right := 0, part := 0, num := 0 }

/-- One READ or READ_STAGED entry (R245, R249, R253). -/
def State.readEntry (s : State) (w : Who) (path : Path) (staged zero : Bool) (e : DictEntry) : State × DictEntry :=
  let done (c v : Nat) : DictEntry := { e with outcome := BitVec.ofNat 8 c, value := BitVec.ofNat 64 v }
  match s.locate e with
  | .inr c => (s, done c 0)
  | .inl o =>
    let inst := e.inst.toNat; let row := e.row.toNat; let word := e.word.toNat
    if (zero && !isIdentity o.id) || !s.mayRead w path o inst row then (s, done 0x12 0)
    else if !s.fwAdmits o.id false then (s, done 0x15 0)
    else if s.targetAsleep o.id inst then (s.clampPut e w.num (0, 0x19, 0, 0), done 0x19 0)
    else
      let own := if staged then s.stagedValue w.key (s.placeOf w.key o.id inst row word) else none
      (s.touch inst, done 0 (own.getD (s.liveObj w.key o inst row word)))

/-- Serve entries in order. -/
def serveEach (f : State → DictEntry → State × DictEntry) : State → List DictEntry → State × List DictEntry
  | s, [] => (s, [])
  | s, e :: es =>
    let r := f s e
    let q := serveEach f r.1 es
    (q.1, r.2 :: q.2)

/-- The status of a response by its entries (R246). -/
def entryStatus (es : List DictEntry) : Nat := if es.all (fun e => e.outcome == 0#8) then 0 else 1

/-- The most entries that a path's messages hold (R243). -/
def entryLimit : Path → Nat
  | .lodge _ => 3 | .mgmt => 16 | _ => 255

/-! ## The operations (R245) -/

/-- READ and READ_STAGED. -/
def State.serveRead (s : State) (c : Carrier) (path : Path) (req : BitVec 8) (sess : Nat) (es : List DictEntry) (staged : Bool) : State :=
  let op := if staged then 3 else 1
  if es.length = 0 ∨ entryLimit path < es.length then s.respond c path (msgHeader op req sess 5 0) [] 0
  else
    let w := if sess = 0 then (some nobody, s) else s.who path sess
    match w.1 with
    | none => w.2.respond c path (msgHeader op req sess 2 0) [] 0
    | some x =>
      let r := serveEach (fun s e => s.readEntry x path staged (sess == 0) e) w.2 es
      r.1.respond c path (msgHeader op req sess (entryStatus r.2) es.length) r.2 0

/-- WRITE. -/
def State.serveWrite (s : State) (c : Carrier) (path : Path) (req : BitVec 8) (sess : Nat) (es : List DictEntry) : State :=
  if es.length = 0 ∨ entryLimit path < es.length then s.respond c path (msgHeader 2 req sess 5 0) [] 0
  else
    let w := if sess = 0 ∧ path ≠ .keeper then (none, s) else s.who path sess
    match w.1 with
    | none => w.2.respond c path (msgHeader 2 req sess 2 0) [] 0
    | some x =>
      let one (s : State) (e : DictEntry) : State × DictEntry :=
        (s.touch e.inst.toNat).writeEntry x path e (fun o v s => s.immediate x o e.inst.toNat e.row.toNat e.word.toNat v)
      let r := serveEach one { w.2 with fw := { w.2.fw with attachWord := none } } es
      let s := { r.1 with fw := { r.1.fw with attachWord := none } }
      s.respond c path (msgHeader 2 req sess (entryStatus r.2) es.length) r.2 0

/-- The entry that the clamp log names for a commit that failed R257. -/
def failEntry (fail : Nat) : DictEntry :=
  { idx := BitVec.ofNat 16 (fail / 256), sub := BitVec.ofNat 8 fail, inst := 0, row := 0, word := 0, outcome := 0, value := 0 }

/-- Whether the firmware state takes commits (12 R313): only with a driver attached, or HOSTLESS. -/
def State.takesCommits (s : State) : Bool := s.fw.st == .attached || s.fw.st == .hostless

/-- COMMIT (R245, R246, R256, R257). A session of another chip commits on its home chip alone. -/
def State.serveCommit (s : State) (c : Carrier) (path : Path) (req : BitVec 8) (sess : Nat) (b : CommitBody) : State :=
  let no (s : State) (status : Nat) : State := s.respond c path (msgHeader 4 req sess status 0) [] 0
  let w := if sess = 0 then (none, s) else s.who path sess
  match w.1 with
  | none => no w.2 2
  | some x =>
    let s := w.2
    let remote : Bool := match path with | .remote _ => true | _ => false
    if x.right = 0 ∨ remote ∨ !s.takesCommits then no s 3
    else if b.scope = 3#2 ∨ s.time + 2000000000 < b.time.toNat then no s 5
    else if s.react.st = 3 then no s 4
    else
      let ws := s.ctl.staged.filter (fun y => y.sess == x.key)
      let f := s.commitFails ws
      let a : CommitAsk :=
        { path := path, req := req, sess := x.key, num := x.num, time := b.time.toNat
          scope := if s.build.pavilions then b.scope.toNat else 0, part := b.part.toNat, writes := ws, own := false, carrier := c }
      match f.1 with
      | some i => (f.2.clampPut (failEntry i) x.num (0, 0x20, 0, 0)).commitAnswered a 6 0 i
      | none => f.2.take a

/-- DISCARD. -/
def State.serveDiscard (s : State) (c : Carrier) (path : Path) (req : BitVec 8) (sess : Nat) : State :=
  let w := if sess = 0 then (none, s) else s.who path sess
  match w.1 with
  | none => w.2.respond c path (msgHeader 5 req sess 2 0) [] 0
  | some x => (w.2.dropStaged x.key).respond c path (msgHeader 5 req sess 0 0) [] 0

/-- The right and partition that a path gives a session that asks for a right; none where it does not carry the right (R241). -/
def State.grantRight (s : State) (path : Path) (right part : Nat) : Option (Nat × Nat) :=
  match path with
  | .host 0 => some (right, part)
  | .host i =>
    let b := s.word 0x400002 0 i 0
    if right = 0 then some (0, 0) else if right = 1 ∧ b ≠ 0xFFFF ∧ part = b then some (1, b) else none
  | .lodge ch =>
    let v := s.chanCfg ch
    let r := bitsAt v 61 2; let p := bitsAt v 51 9
    if r = 2 ∨ right = 0 ∨ (right = r ∧ part = p) then some (r, p) else none
  | .mgmt => if right = 0 then some (0, 0) else none
  | .remote _ => none
  | .keeper => some (right, part)

/-- SESSION_OPEN (R242, R245); `ident` is the identity of a lodge sender. -/
def State.serveOpen (s : State) (c : Carrier) (path : Path) (req : BitVec 8) (sess right part : Nat) (ident : BitVec 16) : State :=
  let no (status : Nat) : State := s.respond c path (msgHeader 6 req sess status 0) [] 0
  if sess ≠ 0 ∨ 2 < right then no 5
  else match s.grantRight path right part with
    | none => no 3
    | some g =>
      match ((List.range 63).map (· + 1)).filter (fun k => (s.ctl.sessions.find k).isNone) with
      | [] => no 4
      | k :: _ =>
        let x : Session := { right := g.1, part := g.2, path := path, ident := ident }
        ({ s with ctl := { s.ctl with sessions := s.ctl.sessions.put k x } }).respond c path (msgHeader 6 req k 0 0) [] 0

/-- SESSION_CLOSE. -/
def State.serveClose (s : State) (c : Carrier) (path : Path) (req : BitVec 8) (sess : Nat) : State :=
  let w := if sess = 0 then (none, s) else s.who path sess
  match w.1 with
  | none => w.2.respond c path (msgHeader 7 req sess 2 0) [] 0
  | some x => (w.2.closeSession x.key).respond c path (msgHeader 7 req sess 0 0) [] 0

/-! ## The messages as commands -/

/-- The frame of a dictionary message: K0 serves it from its boot ROM on. -/
def dictUp (s : State) (f : State → State) : Host.Outcome State Fault Refusal := upWhen s (fun s => 2 ≤ s.boot.progress) f

/-- The frame of a dictionary message of a path. -/
def pathUp (path : Path) (s : State) (f : State → State) : Host.Outcome State Fault Refusal := upWhen s (fun s => s.hears path) f

/-- DICTIONARY_READ. -/
def execDictionaryRead (path : Path) (req : BitVec 8) (sess : Nat) (es : List DictEntry) (s : State) : Host.Outcome State Fault Refusal :=
  pathUp path s (fun s => s.serveRead .direct path req sess es false)

/-- READ_STAGED. -/
def execReadStaged (path : Path) (req : BitVec 8) (sess : Nat) (es : List DictEntry) (s : State) : Host.Outcome State Fault Refusal :=
  pathUp path s (fun s => s.serveRead .direct path req sess es true)

/-- DICTIONARY_WRITE. -/
def execDictionaryWrite (path : Path) (req : BitVec 8) (sess : Nat) (es : List DictEntry) (s : State) : Host.Outcome State Fault Refusal :=
  pathUp path s (fun s => s.serveWrite .direct path req sess es)

/-- COMMIT. -/
def execCommit (path : Path) (req : BitVec 8) (sess : Nat) (b : CommitBody) (s : State) : Host.Outcome State Fault Refusal :=
  pathUp path s (fun s => s.serveCommit .direct path req sess b)

/-- DISCARD. -/
def execDiscard (path : Path) (req : BitVec 8) (sess : Nat) (s : State) : Host.Outcome State Fault Refusal :=
  pathUp path s (fun s => s.serveDiscard .direct path req sess)

/-- The identity of the owner of a path's lodge channel; 0 for another path. -/
def State.pathIdent (s : State) (path : Path) : BitVec 16 :=
  match path with | .lodge ch => BitVec.ofNat 16 (s.chanCfg ch) | _ => 0

/-- SESSION_OPEN. -/
def execSessionOpen (path : Path) (req : BitVec 8) (sess : Nat) (right part : BitVec 16) (s : State) : Host.Outcome State Fault Refusal :=
  pathUp path s (fun s => s.serveOpen .direct path req sess right.toNat part.toNat (s.pathIdent path))

/-- SESSION_CLOSE. -/
def execSessionClose (path : Path) (req : BitVec 8) (sess : Nat) (s : State) : Host.Outcome State Fault Refusal :=
  pathUp path s (fun s => s.serveClose .direct path req sess)

/-! ## Messages from rings, channels and the fabric -/

/-- Entries from bytes, 16 each. -/
def entriesOf (n : Nat) (bs : List Byte) : List DictEntry :=
  (List.range n).map (fun i => unpackEntry (BitVec.ofNat 128 (ofBytes ((bs.drop (16 * i)).take 16))))

/-- Serve a message by its header word, its entries and its 256-bit body (R243, R245). -/
def State.serveMessage (s : State) (c : Carrier) (path : Path) (ident : BitVec 16) (hdr : Nat) (es : List DictEntry) (body : BitVec 256) : State :=
  let op := bitsAt hdr 28 4
  let req := BitVec.ofNat 8 (bitsAt hdr 20 8)
  let sess := bitsAt hdr 12 8
  match op with
  | 1 => s.serveRead c path req sess es false
  | 2 => s.serveWrite c path req sess es
  | 3 => s.serveRead c path req sess es true
  | 4 => s.serveCommit c path req sess (commitBodyOf body)
  | 5 => s.serveDiscard c path req sess
  | 6 => s.serveOpen c path req sess (bitsAt body.toNat 0 16) (bitsAt body.toNat 16 16) ident
  | 7 => s.serveClose c path req sess
  | _ => s.respond c path (msgHeader op req sess 5 0) [] 0

/-- Whether an operation carries entries. -/
def hasEntries (op : Nat) : Bool := op == 1 || op == 2 || op == 3

/-- The ring sets whose next command K0 may take (12 R323, R324): notified, enabled, with room for a completion, and no earlier
command of theirs waiting for its response. -/
def State.readySets (s : State) : List Nat :=
  ((List.range 32).map (fun i => (s.lodge.turn + i) % 32)).filter (fun i =>
    s.ringOn i && s.lodge.bells.contains i && s.producer i 0 != s.consumer i 0 && !s.ringFull i 1 && !s.lodge.busy.contains i)

/-- K0 takes one command of a ring set (12 R324). -/
def State.takeCommand (s : State) (i : Nat) : State :=
  let d := s.ring i 0
  let k := s.consumer i 0
  let bs := sramRead s.lodge.sram (d.1 + k % 2 ^ d.2 * 64) 64
  let s := s.sramSet (64 * i) (bytesOf 4 ((k + 1) % 2 ^ 32))
  let more : Bool := s.producer i 0 != s.consumer i 0
  let s := { s with lodge := { s.lodge with
    turn := (i + 1) % 32, busy := s.lodge.busy ++ [i]
    bells := if more then s.lodge.bells else s.lodge.bells.filter (fun b => b != i) } }
  let hdr := ofBytes (bs.take 4)
  let op := bitsAt hdr 28 4; let n := hdr % 256
  let arr := ofBytes ((bs.drop 4).take 4)
  let bad : Bool := 8 ≤ op || op == 0 || (hasEntries op && (if arr = 0 then decide (3 < n) else arr % 16 != 0 || decide (0x200000 < arr + 16 * n)))
  if bad then s.respond (.ring i arr) (.host i) (msgHeader op (BitVec.ofNat 8 (bitsAt hdr 20 8)) (bitsAt hdr 12 8) 5 0) [] 0
  else
    let es := if hasEntries op then (if arr = 0 then entriesOf n (bs.drop 16) else entriesOf n (sramRead s.lodge.sram arr (16 * n))) else []
    s.serveMessage (.ring i (if hasEntries op then arr else 0)) (.host i) 0 hdr es (BitVec.ofNat 256 (ofBytes ((bs.drop 16).take 32)))

/-- RING_COMMAND: the sets in rotation; none is taken while the keepers change over (12 R320). -/
def execRingCommand (s : State) : Host.Outcome State Fault Refusal :=
  dictUp s (fun s => match (if s.fw.changing.isSome then [] else s.readySets) with
    | [] => s
    | i :: _ => s.takeCommand i)

/-- Words of a lodge message by its operation (12 R330); none for one that no message has. -/
def messageWords (op n : Nat) : Option Nat :=
  match op with
  | 1 | 2 | 3 => if 1 ≤ n ∧ n ≤ 3 then some (1 + 4 * n) else none
  | 4 => if n = 0 then some 9 else none
  | 6 => if n = 0 then some 2 else none
  | 5 | 7 => if n = 0 then some 1 else none
  | _ => none

/-- Words of its response. -/
def answerWords (op n : Nat) : Nat := match op with | 1 | 2 | 3 => 1 + 4 * n | 4 => 9 | _ => 1

/-- K0 takes the message at the head of a channel's inbound queue (12 R330): when all its words are there and its whole response
fits; one of several senders, or malformed, empties the queue. -/
def State.takeMessage (s : State) (ch : Nat) : State :=
  let q := (s.chan ch).inq
  match q with
  | [] => s
  | (w, ident) :: _ =>
    let hdr := w.toNat
    let op := bitsAt hdr 28 4; let n := hdr % 256
    let flush (s : State) : State :=
      { s.onChan ch (fun c => { c with inq := [], ackOwner := 0x0010 }) with
        lodge := { (s.onChan ch (fun c => { c with inq := [], ackOwner := 0x0010 })).lodge with mail := s.lodge.mail.filter (fun m => m != ch) } }
    match messageWords op n with
    | none => flush s
    | some len =>
      let ws := q.take len
      if ws.any (fun x => x.2 != ident) then flush s
      else if ws.length < len ∨ 16 < (s.chan ch).outq.length + answerWords op n then s
      else
        let rest := q.drop len
        let s := s.onChan ch (fun c => { c with inq := rest, ackOwner := 0x0001 })
        let s := { s with lodge := { s.lodge with
          busy := s.lodge.busy ++ [32 + ch]
          mail := if rest.isEmpty then s.lodge.mail.filter (fun m => m != ch) else s.lodge.mail } }
        let body := (ws.drop 1).flatMap (fun x => bytesOf 4 x.1.toNat)
        s.serveMessage (.chan ch) (.lodge ch) ident hdr (if hasEntries op then entriesOf n body else [])
          (BitVec.ofNat 256 (ofBytes (body.take 32)))

/-- LODGE_MESSAGE. -/
def execLodgeMessage (ch : Nat) (s : State) : Host.Outcome State Fault Refusal :=
  dictUp s (fun s =>
    if s.fw.changing.isSome ∨ !s.chanOn ch ∨ s.chanPlain ch ∨ !s.lodge.mail.contains ch ∨ s.lodge.busy.contains (32 + ch) then s
    else s.takeMessage ch)

/-! ## SERVICE_REQ and SERVICE_RESP (R239; 12 R328) -/

/-- The path of a SERVICE_REQ that reaches a keeper: the host landing of this chip bears ring set 0's rights, the other
endpoints that send one are keepers (log entry 34). -/
def State.servicePath (s : State) (src : BitVec 24) : Path :=
  if chipOf src ≠ s.chipNo then .remote (chipOf src)
  else if localOf src = 2048 then .host 0 else .keeper

/-- A SERVICE_REQ at a keeper. -/
def State.serviceKeeper (s : State) (ep : Nat) (p : Packet) : State :=
  let h := p.hdr
  let hdr := h.aux.toNat
  let op := bitsAt hdr 28 4; let n := hdr % 256
  let path := s.servicePath h.src
  let c : Carrier := .fabric ep h
  let refuse (status : Nat) : State := s.respond c path (msgHeader op (BitVec.ofNat 8 (bitsAt hdr 20 8)) (bitsAt hdr 12 8) status 0) [] 0
  let bytes := if n ≤ 2 then bytesOf 32 h.inl.toNat else p.data.flatMap payloadBytes
  if hasEntries op && h.length.toNat != (if n ≤ 2 then 0 else (n + 3) / 4) then refuse 5
  else if ep ≠ 2051 ∧ path ≠ .keeper then refuse 3
  else s.serveMessage c path 0 hdr (if hasEntries op then entriesOf n bytes else []) h.inl

/-- The answer to a lodge operation. -/
def State.lodgeAnswer (s : State) (h : Header) (hdr : BitVec 32) (inl : BitVec 256) (data : List Payload) : State :=
  s.makeFrom (.special 2049) { answerHeader 0x31 4 h (s.addrOf 2049) hdr inl with length := BitVec.ofNat 7 data.length } data

/-- A lodge operation at endpoint 2049 (12 R328, R329). -/
def State.serviceLodge (s : State) (p : Packet) : State :=
  let h := p.hdr
  let hdr := h.aux.toNat
  let op := bitsAt hdr 28 4; let n := hdr % 256; let ch := bitsAt hdr 12 8
  let tag := BitVec.ofNat 8 (bitsAt hdr 20 8)
  let ident := BitVec.ofNat 16 (0x8000 + localOf h.src)
  let plain (s : State) (status : Nat) : State := s.lodgeAnswer h (lodgeHeader op tag ch status 0) 0 []
  let words (k v : Nat) : List (BitVec 32) := (List.range k).map (fun i => BitVec.ofNat 32 (v / 2 ^ (32 * i)))
  if 64 ≤ ch then plain s 5
  else match op with
    | 0xC =>
      if n = 0 ∨ 13 < n ∨ h.length.toNat ≠ (if n ≤ 8 then 0 else 1) then plain s 5
      else
        let r := s.chanWrite ch ident (words n (if n ≤ 8 then h.inl.toNat else (p.data.headD 0).toNat))
        plain r.2 r.1
    | 0xD =>
      if n = 0 ∨ 13 < n then plain s 5
      else
        let r := s.chanRead ch ident n
        match r.1 with
        | none => plain r.2 3
        | some ws => r.2.lodgeAnswer h (lodgeHeader op tag ch 0 ws.length) (BitVec.ofNat 256 (joinIdents (ws.map (·.2))))
            [BitVec.ofNat 512 (joinWords (ws.map (·.1)))]
    | 0xE =>
      let r := s.chanAck ch ident (h.inl.setWidth 16)
      plain r.2 (if r.1 then 0 else 3)
    | 0xF => s.lodgeAnswer h (lodgeHeader op tag ch 0 0) (BitVec.ofNat 256 (s.chanStatus ch)) []
    | _ => plain s 5

/-- SERVICE_REQ at its endpoint: it joins the read-service queue of 64, and its place is free again when the response leaves (04
R109). -/
def execServiceReq (ep : Nat) (p : Packet) (s : State) : Host.Outcome State Fault Refusal :=
  up s (fun s => s.receive (epUnit ep) (epPort ep) p (fun s => s.takeIn ep p.hdr (fun s =>
    if s.readsFull ep then s.shedRead ep p.hdr
    else
      let s := s.onEp ep (fun x => { x with reads := x.reads ++ [p] })
      if ep = 2049 then s.serviceLodge p else s.serviceKeeper ep p)))

/-- The answer of another chip's K0 to the PREPARE of this home chip (R259): status 0 READY; 6 CONFLICT because R257 failed; any
other CONFLICT. It names the commit by the low 8 bits of its sequence (log entry 35). -/
def State.crossAnswer (s : State) (c : Nat) (hdr : Nat) : State :=
  match s.ctl.cross with
  | none => s
  | some x =>
    if bitsAt hdr 28 4 ≠ 4 ∨ bitsAt hdr 20 8 ≠ x.seq.toNat % 256 ∨ x.answers.any (fun a => a.1 == c) then s
    else
      let status := bitsAt hdr 8 4
      let y : CrossCommit := { x with answers := x.answers ++ [(c, status == 0)], ruleFailed := x.ruleFailed || status == 6 }
      { s with ctl := { s.ctl with cross := some y } }

/-- SERVICE_RESP at its endpoint. -/
def execServiceResp (ep : Nat) (p : Packet) (s : State) : Host.Outcome State Fault Refusal :=
  up s (fun s => s.receive (epUnit ep) (epPort ep) p (fun s => s.takeIn ep p.hdr (fun s =>
    if ep = 2051 ∧ chipOf p.hdr.src ≠ s.chipNo ∧ localOf p.hdr.src = 2051 then s.crossAnswer (chipOf p.hdr.src) p.hdr.aux.toNat else s)))

/-! ## The service tree (01 R30, R31) -/

/-- SERVICE_TREE_ACCESS: a keeper's read or write of an object of a unit. A staged value reaches the shadow bank under the
keepers' own tag. -/
def State.treeAccess (s : State) (u : UnitId) (wr : Bool) (e : DictEntry) : State :=
  if s.asleep u then s.emit (.treeResp u true 0)
  else
    let inst := instOf u
    let s := s.touch inst
    match s.locate { e with inst := BitVec.ofNat 16 inst } with
    | .inr _ => s.emit (.treeResp u false 0)
    | .inl o =>
      let row := e.row.toNat; let word := e.word.toNat; let v := e.value.toNat
      let s := if wr ∧ o.takes ≠ .never ∧ o.acc ≠ .ro then
          s.carryOut { nobody with right := 2 } o inst row word v (fun s => s.immediate { nobody with right := 2 } o inst row word v)
        else s
      s.emit (.treeResp u false (BitVec.ofNat 64 (if wr then v else s.liveObj 0 o inst row word)))

/-- SERVICE_TREE_ACCESS. -/
def execServiceTreeAccess (u : UnitId) (wr : Bool) (e : DictEntry) (s : State) : Host.Outcome State Fault Refusal :=
  dictUp s (fun s => s.treeAccess u wr e)

end Sys2Proof.Machine
end

