-- ==== Sys2Proof/Machine/Epochs.lean ====
section
/-!
DEFINITION. The epoch switch and the tag window (09 R262 to R265), the commits that span chips (09 R259 to R261), and what
K0 does as its slot generator steps on.
-/
namespace Sys2Proof.Machine

/-! ## The epoch switch (R262) -/

/-- Objects whose staged word is a request that the epoch carries out, no value of the committed view: removal of a partition,
plan start, plan stop, rate, ALU reinstatement, counter thaw and clear, firmware activation, reattaching of clients. -/
def takenApart (k : Nat) : Bool :=
  ([0x080204, 0x180101, 0x181004, 0x181005, 0x200005, 0x380002, 0x380003, 0x440008, 0x800002] : List Nat).contains (keyId k)

/-- Whether a set of writes names an object. -/
def writesTo (ws : List StagedWrite) (id : Nat) : Bool := ws.any (fun w => keyId w.key == id)

/-- The rows of an object that a set of writes names. -/
def rowsWritten (ws : List StagedWrite) (id : Nat) : List Nat :=
  ((ws.filter (fun w => keyId w.key == id)).map (fun w => keyRow w.key)).dedup

/-- The entries that change over (R262, R383): those that a commit of the epoch staged, and no other. -/
def State.changeOver (s : State) (ws : List StagedWrite) : State :=
  (ws.filter (fun w => !takenApart w.key)).foldl
    (fun s w => s.setWord (keyId w.key) (keyInst w.key) (keyRow w.key) (keyWord w.key) w.value.toNat) s

/-- The slot-table and cell entries that a partition owns and its landings' stream descriptors go: at a stop, and at a swap before the
new plan's take effect (03 R91). -/
def State.dropPlanTables (s : State) (p : Nat) : State :=
  let ls := s.landingsOf p
  (s.clearTables p).clearWords (fun k _ => (keyId k == 0x800103 || keyId k == 0x800104) && ls.contains (keyInst k % 8192))

/-- The plan of a partition stops for good: its streams and its tables go (03 R91). -/
def State.endPlan (s : State) (p : Nat) : State := (s.stopPlan p).dropPlanTables p

/-- The semaphores of a landing that the map gives to a new partition are 0 (05 R134). -/
def State.clearSems (s : State) (l : Nat) : State := s.onTile l (fun t => { t with sems := [], semSrc := [] })

/-- The handles whose descriptor or owner a set of writes names. -/
def handlesWritten (ws : List StagedWrite) : List Nat := (rowsWritten ws 0x210001 ++ rowsWritten ws 0x210002).dedup

/-- A descriptor that takes effect or is removed (07 R194; 06 R175; 13 R338; 15 R373): the handle's combining entries are freed, its
flags and collective counters start from 0, and a handle that does not run begins anew. -/
def State.loadHandle (s : State) (h : Nat) : State :=
  let c := s.coll h
  let s := s.freeHandle h
  let s := if s.holdsDesc h then ((List.range 4).foldl (fun s i => s.setWord 0x385001 0 h i 0) s).setWord 0x201001 0 h 0 0 else s
  if c.st = 1 ∨ c.st = 2 then s
  else { s with colls := s.colls.put h { settled := if chipCount (s.desc h) = 1 then 2 else 0 } }

/-- A chip root reserves for a descriptor that spans chips (07 R193). -/
def State.reserveAcross (s : State) (h : Nat) : State :=
  if s.holdsDesc h ∧ chipCount (s.desc h) ≠ 1 then s.askHalls h else s

/-- The combining nodes at an epoch (06 R173): one whose self-test has passed is healthy, and one to be reinstated starts its
self-test. -/
def State.reinstate (s : State) (ws : List StagedWrite) : State :=
  let well (x : Switch) : Switch := if x.aluReady then { x with alu := 0, aluReady := false } else x
  let s := { s with switches := s.switches.map (fun (x : Nat × Switch) => (x.1, well x.2)) }
  (ws.filter (fun w => keyId w.key == 0x200005)).foldl
    (fun s w => s.onSw (unitOfInst (keyInst w.key)) (fun x => { x with alu := 2 })) s

/-- Tile-side effects of an epoch: clients are reattached (05 R121), taps take their new configuration and start afresh, as TAP_ARM has
them do (05 R139; DESIGN CHOICE for a written configuration, log entry 150). -/
def State.tileEpoch (s : State) (ws : List StagedWrite) : State :=
  ws.foldl (fun s w =>
    let l := keyInst w.key % 4096
    let tap (k : Nat) : State := s.onTile l (fun t => { t with taps := t.taps.put k { cfg := w.value } })
    match keyId w.key with
    | 0x800002 => s.onTile l (fun t => { t with detached := t.detached &&& ~~~(w.value.setWidth 32) })
    | 0x800401 => tap 0
    | 0x800402 => tap 1
    | 0x800403 => tap 2
    | 0x800404 => tap 3
    | _ => s) s

/-- The pending epoch is taken: the number advances, the tag window opens with the W now in force, the previous bank is kept. -/
def State.advance (s : State) (e : Epoch) (old : Dict) : State :=
  { s with
    prev := some old
    ctl := { s.ctl with
      epoch := s.ctl.epoch + 1, lastEpoch := some e.time, pending := s.ctl.queue.head?, queue := s.ctl.queue.tail
      windowOpen := true, windowEnd := e.time + s.val 0x000009, staleInWindow := 0 } }

/-- The tables and partitions at an epoch, with its plans, rates, descriptors and routes. -/
def State.tablesAt (s : State) (e : Epoch) : State :=
  let ws := e.writes
  let s := (rowsWritten ws 0x181004).foldl (fun s p => s.endPlan p) s
  let s := ((rowsWritten ws 0x180101).filter (fun p => (s.part p).run)).foldl (fun s p => s.dropPlanTables p) s
  let gained := (ws.filter (fun w => keyId w.key == 0x080001 && decide (w.value.toNat < 512) && w.value.toNat != s.wordAt w.key)).map
    (fun w => keyRow w.key)
  let s := (gained.foldl (fun s l => s.clearSems l) (s.changeOver ws)).redescribe ws
  let s := (rowsWritten ws 0x080204).foldl (fun s p => s.removePartition p) s
  let s := s.settleParts
  let s := (handlesWritten ws).foldl (fun s h => s.loadHandle h) s
  let s := (rowsWritten ws 0x180101).foldl (fun s p => s.startPlan p e.time) s
  let s := (handlesWritten ws).foldl (fun s h => s.reserveAcross h) s
  let s := (ws.filter (fun w => keyId w.key == 0x181005)).foldl (fun s w => s.takeRate (keyRow w.key) w.value.toNat e.time) s
  let s := (s.returnRestored ws e.time).settleIslands
  let map := writesTo ws 0x101001 || writesTo ws 0x101003
  let s := if map then s.derivePlanes else s
  s.pavEpoch map

/-- What an epoch tells: a completed-commit event for each session (12 R325), and the trace record (13 R339). -/
def State.announceEpoch (s : State) (e : Epoch) (stale : Nat) : State :=
  let n := s.ctl.epoch.toNat
  let s := e.sessions.foldl (fun s k => s.post 0x0002 none (e.time % 2 ^ 64 + n * 2 ^ 64 + k % 256 * 2 ^ 96)) s
  s.trace k0 0x03 1023 e.time (n * 2 ^ 120 + e.scope % 4 * 2 ^ 118 + e.part % 1024 * 2 ^ 108 + e.sessions.headD 0 % 256 * 2 ^ 100 +
    e.writes.length % 2 ^ 32 * 2 ^ 68 + stale % 2 ^ 32 * 2 ^ 36)

/-- The chip's epoch switch at its slot E (R262): units that sleep take the new values with their rejoin (R255). -/
def State.epochSwitch (s : State) (e : Epoch) : State :=
  let old := s.dict
  let stale := s.ctl.staleInWindow
  let ws := e.writes
  let s := (s.tablesAt e).advance e old
  let s := (s.reinstate ws).tileEpoch ws
  let s := s.counterEpoch (writesTo ws 0x380003) (writesTo ws 0x380002)
    (if writesTo ws 0x380001 then some (s.val 0x380001) else none) e.time
  let s := if writesTo ws 0x440008 then s.activateAt e.time else s
  ((s.announceEpoch e stale).endJoined e).drainSweep.retryKept

/-- Whether the pending epoch is due. In the fatal state none takes place (11 R302). -/
def State.epochDue (s : State) : Bool :=
  s.react.st != 3 && (match s.ctl.pending with
    | some e => decide (e.time ≤ s.time)
    | none => false)

/-- EPOCH_SWITCH. -/
def execEpochSwitch (s : State) : Host.Outcome State Fault Refusal :=
  upWhen s (fun s => s.epochDue) (fun s => match s.ctl.pending with
    | some e => s.epochSwitch e
    | none => s)

/-! ## The end of the tag window (R264, R265) -/

/-- Discard the headers that a unit holds of the previous epoch and has not routed. -/
def State.dropStale (s : State) (u : UnitId) : State :=
  (s.node u).held.foldl (fun s (x : Held) =>
    if x.outs.isEmpty && s.oldTag x.hdr then (s.cutHeld u x).staleAt u (x.inp % 256) x.hdr else s) s

/-- TAG_WINDOW_END: what is held of the previous tag is stale, and the previous bank is released. The shadow banks need no copy:
the model keeps for each entry its committed value and the values that sessions have staged (03 R86). -/
def State.endWindow (s : State) : State :=
  let s := (s.nodes.map (·.1)).foldl (fun s c => s.dropStale (unitOfCode c)) s
  { s with prev := none, ctl := { s.ctl with windowOpen := false } }

/-- TAG_WINDOW_END. -/
def execTagWindowEnd (s : State) : Host.Outcome State Fault Refusal :=
  upWhen s (fun s => s.ctl.windowOpen && decide (s.ctl.windowEnd ≤ s.time)) (fun s => s.endWindow)

/-! ## Commits across chips (R259 to R261) -/

/-- A flooded record arrives: it goes on once (08 R222), and K0 takes it unless it is a copy or the chip's own. -/
def State.floodRecord (s : State) (p : Nat) (m : BitVec 256) (f : State → State) : State :=
  let r := recordOf m
  let key := 3 * 2 ^ 40 + r.origin * 2 ^ 16 + r.seq.toNat
  let b := (s.tookLong p m).seenBefore p key
  let dup := (List.range 16).any (fun q => q != p && (s.pav q).seen.any (fun x => x.1 == key && s.now (.pavilion q) < x.2 + 65536))
  if b.1 || dup then b.2
  else
    let s := b.2.flood (some p) 3 (m.toNat % 2 ^ 240)
    if r.origin = s.chipNo then s else f s

/-- Whether this chip is in the scope of a record: in one of a partition while it has the partition, or a plan of it. -/
def State.inScope (s : State) (r : Record) : Bool :=
  r.scope == 2 || (s.part r.part).st != .free || (s.planOf r.part).isSome

/-- Whether a record's epoch lies within 128,000 slots of one that this chip has planned, reserved or taken (R256, R259). -/
def State.clashes (s : State) (e : Nat) : Bool :=
  let near (x : Nat) : Bool := decide (e < x + 128000 ∧ x < e + 128000)
  (s.ctl.pending.toList ++ s.ctl.queue).any (fun x => near x.time) || s.nearPrepare e || s.ctl.lastEpoch.any near

/-- K0 takes a PREPARE (R259 step 1): it holds the epoch as reserved, checks its staged writes, and answers READY (status 0) or
CONFLICT (6 where R257 fails, else 4). A change of scheduled state off the grid of 03 R62 is a CONFLICT too (DEDUCED, log entry 135).
Writes that need a drain are answered once this chip has drained (04 R113; log entry 140). -/
def State.takePrepare (s : State) (r : Record) : State :=
  if s.react.st = 3 ∨ !s.inScope r then s
  else
    let clash := s.clashes r.time
    let held : Prepare :=
      { origin := r.origin, seq := r.seq, time := r.time, sess := r.sess, scope := r.scope, part := r.part, confirmed := false }
    let s := { s with ctl := { s.ctl with prepares := s.ctl.prepares ++ [held] } }
    let ws := s.writesOf r
    let f := s.commitFails ws
    match f.1 with
    | some i => (f.2.clampPut (failEntry i) r.sess (0, 0x20, 0, 0)).answerPrepare r 6
    | none =>
      if clash ∨ (anySched ws ∧ r.time % 8192 ≠ 0) then f.2.answerPrepare r 4 else f.2.drainForPrepare held (s.drainFor ws)

/-- COMMIT_PREPARE. One that comes while the keepers change over is answered after it (12 R320). -/
def execCommitPrepare (p : Nat) (m : BitVec 256) (s : State) : Host.Outcome State Fault Refusal :=
  up s (fun s => s.floodRecord p m (fun s =>
    if s.fw.changing.isSome then { s with ctl := { s.ctl with late := s.ctl.late ++ [m] } } else s.takePrepare (recordOf m)))

/-- Whether a record decides a held PREPARE: its origin, session and epoch are the same. -/
def decides (r : Record) (x : Prepare) : Bool := x.origin == r.origin && x.sess == r.sess && x.time == r.time

/-- Let go of the PREPAREs that a record decides. -/
def State.releasePrepare (s : State) (r : Record) : State :=
  { s with ctl := { s.ctl with prepares := s.ctl.prepares.filter (fun x => !decides r x) } }

/-- The commit that a confirmed record makes on this chip. -/
def State.askOf (s : State) (r : Record) : CommitAsk :=
  { path := .remote r.origin, req := BitVec.ofNat 8 r.seq.toNat, sess := r.key, num := r.sess, time := 0, scope := r.scope
    part := r.part, writes := s.writesOf r, own := false }

/-- A local commit that waited for a decision joins the confirmed epoch where its own bounds are met (R259). -/
def State.joinAt (s : State) (a : CommitAsk) (e : Nat) : Option State :=
  let a := s.still a
  if a.scope = 0 ∧ a.time ≤ e ∧ s.time + 4000 + s.stopLag (s.stopping a.writes) ≤ e ∧ (!anySched a.writes || e % 8192 == 0) ∧
      (s.domainsFor a.writes).isEmpty then
    let add (x : Epoch) : Epoch :=
      if x.time = e then { x with sessions := x.sessions ++ [a.num], writes := x.writes ++ a.writes, sched := x.sched || anySched a.writes }
      else x
    let s := s.accepted a e
    let s := { s with ctl := { s.ctl with pending := s.ctl.pending.map add, queue := s.ctl.queue.map add } }
    some (if a.own then s else s.commitAnswered a 0 e 0)
  else none

/-- The commits that waited for a decision: they join the confirmed epoch, or are placed as any other. -/
def State.afterConfirm (s : State) (e : Nat) : State :=
  let ws := s.ctl.waiting
  ws.foldl (fun s a => match s.joinAt a e with
    | some t => t
    | none => s.settle a 4000) { s with ctl := { s.ctl with waiting := [] } }

/-- COMMIT_CONFIRM (R259 step 4): the epoch of the held PREPARE is planned with the writes that the session holds here. -/
def State.takeConfirm (s : State) (r : Record) : State :=
  if s.ctl.prepares.any (decides r) then
    let a := s.askOf r
    (((s.releasePrepare r).accepted a r.time).insertEpoch (epochOf a r.time)).afterConfirm r.time
  else s

/-- COMMIT_CONFIRM. -/
def execCommitConfirm (p : Nat) (m : BitVec 256) (s : State) : Host.Outcome State Fault Refusal :=
  up s (fun s => s.floodRecord p m (fun s => s.takeConfirm (recordOf m)))

/-- The event of a commit cancelled or not taken (12 R325). -/
def State.postCancelled (s : State) (time sess : Nat) : State :=
  s.post 0x0003 none (time % 2 ^ 64 + (s.numberAt time + 1) * 2 ^ 64 + sess % 256 * 2 ^ 96)

/-- COMMIT_CANCEL: the reserved epoch is dropped, and the commits that waited for it are placed (R259). The session's writes
stay staged. -/
def State.takeCancel (s : State) (r : Record) : State :=
  let s := { s with ctl := { s.ctl with late := s.ctl.late.filter (fun m => !(recordOf m == { r with seq := (recordOf m).seq })) } }
  if s.ctl.prepares.any (decides r) then ((s.releasePrepare r).postCancelled r.time r.sess).settleWaiting.drainSweep else s

/-- COMMIT_CANCEL. -/
def execCommitCancel (p : Nat) (m : BitVec 256) (s : State) : Host.Outcome State Fault Refusal :=
  up s (fun s => s.floodRecord p m (fun s => s.takeCancel (recordOf m)))

/-- Flood the decision of this home chip, under a sequence of its own. -/
def State.floodDecision (s : State) (x : CrossCommit) (kind : Nat) : State :=
  let q := s.ctl.commitSeq
  let s := { s with ctl := { s.ctl with commitSeq := q + 1 } }
  s.flood none 0x03 (commitRecord s.chipNo q kind x.time x.ask.num x.ask.scope x.ask.part)

/-- The record of a home chip's own commit. -/
def State.homeRecord (s : State) (x : CrossCommit) : Record :=
  { origin := s.chipNo, seq := x.seq, time := x.time, sess := x.ask.sess, scope := x.ask.scope, part := x.ask.part }

/-- Every chip of the scope has answered READY: the home chip confirms and plans its own epoch. -/
def State.confirmCross (s : State) (x : CrossCommit) : State :=
  let a := s.still x.ask
  let s := (s.floodDecision x 1).releasePrepare (s.homeRecord x)
  let s := { s with ctl := { s.ctl with cross := none } }
  let s := (s.accepted a x.time).insertEpoch (epochOf a x.time)
  (if a.own then s else s.commitAnswered a 0 x.time 0).afterConfirm x.time

/-- Some chip has not answered READY in time: the home chip cancels, and tries again 131,072 slots later, four times at most. A
CANCEL that R257 caused is final (R259 step 3). An answer that never came counts as a CONFLICT. -/
def State.cancelCross (s : State) (x : CrossCommit) : State :=
  let s := (s.floodDecision x 2).releasePrepare (s.homeRecord x)
  let s := { s with ctl := { s.ctl with cross := none } }
  if x.ruleFailed ∨ 4 ≤ x.attempt then
    let s := s.postCancelled x.time x.ask.num
    let s := if x.ask.own then { s with ctl := { s.ctl with kept := s.ctl.kept ++ [x.ask] } }
      else s.commitAnswered x.ask (if x.ruleFailed then 6 else 4) 0 0
    s.settleWaiting.drainSweep
  else s.prepareAt x.ask (x.time + 131072) x.flood (x.attempt + 1)

/-- The decision of the home K0 (R259 steps 2 and 3). -/
def State.decideCross (s : State) (x : CrossCommit) : State :=
  if (s.scopeChips x.ask.scope x.ask.part).all (fun c => x.answers.contains (c, true)) then s.confirmCross x else s.cancelCross x

/-- Whether the time of the home chip's decision has come, F + 4,000 slots before its epoch. -/
def State.decisionDue (s : State) : Bool :=
  match s.ctl.cross with
  | some x => decide (x.time ≤ s.time + x.flood + 4000)
  | none => false

/-- CROSS_CHIP_DECISION. -/
def execCrossChipDecision (s : State) : Host.Outcome State Fault Refusal :=
  upWhen s (fun s => s.react.st != 3 && s.decisionDue) (fun s => match s.ctl.cross with
    | some x => s.decideCross x
    | none => s)

/-- A PREPARE of another chip whose decision has not come 4,000 slots before its epoch. -/
def State.lateRecord (s : State) : Option Prepare :=
  s.ctl.prepares.find? (fun x => x.origin != s.chipNo && decide (x.time ≤ s.time + 4000))

/-- LATE_COMMIT (R261): the chip takes no epoch, stops and ends its cross-chip partitions, and discards the session's writes. -/
def State.lateCommit (s : State) (x : Prepare) : State :=
  let r : Record := { origin := x.origin, seq := x.seq, time := x.time, sess := x.sess, scope := x.scope, part := x.part }
  let s := (s.releasePrepare r).dropStaged r.key
  let s := s.bump 0x00000C 0 0 0 24 8 1
  let s := (s.endAll s.spanning).raise .chip 0 0x081 1023 (ctxMachine x.origin x.time)
  (s.postCancelled x.time x.sess).settleWaiting.drainSweep

/-- LATE_COMMIT. -/
def execLateCommit (s : State) : Host.Outcome State Fault Refusal :=
  upWhen s (fun s => s.lateRecord.isSome) (fun s => match s.lateRecord with
    | some x => s.lateCommit x
    | none => s)

/-! ## The slot boundary (15 R380) -/

/-- The PREPAREs that came during a change-over are taken once it has ended (12 R320). -/
def State.takeLate (s : State) : State :=
  if s.fw.changing.isSome ∨ s.ctl.late.isEmpty then s
  else
    let ms := s.ctl.late
    ms.foldl (fun s m => s.takePrepare (recordOf m)) { s with ctl := { s.ctl with late := [] } }

/-- SLOT_BOUNDARY (15 R380). -/
def execSlotBoundary (u : UnitId) (s : State) : Host.Outcome State Fault Refusal :=
  up s (fun s =>
    let s := (s.slotBoundary u).takeLate
    match u with
    | .landing l => if s.domState u == .active then s.arbiterSlot l else s
    | _ => s)

end Sys2Proof.Machine
end

