-- ==== Sys2Proof/Machine/Dispatch.lean ====
section
/-!
DEFINITION. The dispatch of a command to its meaning: one arm for each constructor of `Instr`.
-/
namespace Sys2Proof.Machine

/-- The effect of a command on everything but the queue. -/
def exec (i : Instr) (s : State) : Host.Outcome State Fault Refusal :=
  match i with
  | .slotBoundary u => Sys2Proof.Machine.execSlotBoundary u s
  | .unitArrival u port f hop => Sys2Proof.Machine.execUnitArrival u port f hop s
  | .creditWord u port w => Sys2Proof.Machine.execCreditWord u port w s
  | .fabricTimeLoad u => Sys2Proof.Machine.execFabricTimeLoad u s
  | .serviceTreeAccess u wr e => Sys2Proof.Machine.execServiceTreeAccess u wr e s
  | .governorClockRequest u cause => Sys2Proof.Machine.execGovernorClockRequest u cause s
  | .governorClearTimeout u => Sys2Proof.Machine.execGovernorClearTimeout u s
  | .write ep p => Sys2Proof.Machine.execWrite ep p s
  | .writeInline ep p => Sys2Proof.Machine.execWriteInline ep p s
  | .readReq ep p => Sys2Proof.Machine.execReadReq ep p s
  | .readResp ep p => Sys2Proof.Machine.execReadResp ep p s
  | .ack u port p => Sys2Proof.Machine.execAck u port p s
  | .nack u port p => Sys2Proof.Machine.execNack u port p s
  | .signal ep p => Sys2Proof.Machine.execSignal ep p s
  | .writeSignal ep p => Sys2Proof.Machine.execWriteSignal ep p s
  | .mcastWrite u port p => Sys2Proof.Machine.execMcastWrite u port p s
  | .mcastWriteSignal u port p => Sys2Proof.Machine.execMcastWriteSignal u port p s
  | .mcastReport ep p => Sys2Proof.Machine.execMcastReport ep p s
  | .mcastReportTimer stair rec => Sys2Proof.Machine.execMcastReportTimer stair rec s
  | .reduceContrib u port p aluFaults => Sys2Proof.Machine.execReduceContrib u port p aluFaults s
  | .reduceResult u port p => Sys2Proof.Machine.execReduceResult u port p s
  | .countExch ep p => Sys2Proof.Machine.execCountExch ep p s
  | .reserveReq u port p => Sys2Proof.Machine.execReserveReq u port p s
  | .reserveGrant ep p => Sys2Proof.Machine.execReserveGrant ep p s
  | .reserveRefuse ep p => Sys2Proof.Machine.execReserveRefuse ep p s
  | .reserveRelease u port p => Sys2Proof.Machine.execReserveRelease u port p s
  | .serviceReq ep p => Sys2Proof.Machine.execServiceReq ep p s
  | .serviceResp ep p => Sys2Proof.Machine.execServiceResp ep p s
  | .faultMsg port msg => Sys2Proof.Machine.execFaultMsg port msg s
  | .trace u port p => Sys2Proof.Machine.execTrace u port p s
  | .timeBeacon p => Sys2Proof.Machine.execTimeBeacon p s
  | .errorResp ep p => Sys2Proof.Machine.execErrorResp ep p s
  | .scrubReq ep p => Sys2Proof.Machine.execScrubReq ep p s
  | .scrubComplete l => Sys2Proof.Machine.execScrubComplete l s
  | .scrubDone ep p => Sys2Proof.Machine.execScrubDone ep p s
  | .fenceDrainMark u port p => Sys2Proof.Machine.execFenceDrainMark u port p s
  | .fenceDrainAck ep p => Sys2Proof.Machine.execFenceDrainAck ep p s
  | .schedAckDeadline l e seq => Sys2Proof.Machine.execSchedAckDeadline l e seq s
  | .frameBoundary part => Sys2Proof.Machine.execFrameBoundary part s
  | .holdNotice u part frame => Sys2Proof.Machine.execHoldNotice u part frame s
  | .planLoadStart path sess v => Sys2Proof.Machine.execPlanLoadStart path sess v s
  | .planImageCheck => Sys2Proof.Machine.execPlanImageCheck s
  | .halfRateRequest path sess v => Sys2Proof.Machine.execHalfRateRequest path sess v s
  | .fullRateReturnRequest path sess v => Sys2Proof.Machine.execFullRateReturnRequest path sess v s
  | .shadowSlotEntryWrite path sess u v => Sys2Proof.Machine.execShadowSlotEntryWrite path sess u v s
  | .activeSlotEntryWrite path sess u v => Sys2Proof.Machine.execActiveSlotEntryWrite path sess u v s
  | .escapeThresholdExpiry u id => Sys2Proof.Machine.execEscapeThresholdExpiry u id s
  | .initiatorDeadline ep e seq => Sys2Proof.Machine.execInitiatorDeadline ep e seq s
  | .planeMapRewrite pav => Sys2Proof.Machine.execPlaneMapRewrite pav s
  | .drainStop u => Sys2Proof.Machine.execDrainStop u s
  | .drainTimeout => Sys2Proof.Machine.execDrainTimeout s
  | .injectionRequest l client => Sys2Proof.Machine.execInjectionRequest l client s
  | .injectionRequestDrop l client => Sys2Proof.Machine.execInjectionRequestDrop l client s
  | .injectionWatchdog l => Sys2Proof.Machine.execInjectionWatchdog l s
  | .opcodeWrite l d => Sys2Proof.Machine.execOpcodeWrite l d s
  | .opcodeWriteInline l d => Sys2Proof.Machine.execOpcodeWriteInline l d s
  | .opcodeRead l d => Sys2Proof.Machine.execOpcodeRead l d s
  | .opcodeSignal l d => Sys2Proof.Machine.execOpcodeSignal l d s
  | .opcodeWriteSignal l d => Sys2Proof.Machine.execOpcodeWriteSignal l d s
  | .opcodeMcastWrite l d => Sys2Proof.Machine.execOpcodeMcastWrite l d s
  | .opcodeMcastWriteSignal l d => Sys2Proof.Machine.execOpcodeMcastWriteSignal l d s
  | .openWindow l d => Sys2Proof.Machine.execOpenWindow l d s
  | .closeWindow l d => Sys2Proof.Machine.execCloseWindow l d s
  | .tapArm l d => Sys2Proof.Machine.execTapArm l d s
  | .tapDisarm l d => Sys2Proof.Machine.execTapDisarm l d s
  | .collective l d => Sys2Proof.Machine.execCollective l d s
  | .sourceRowRead l row data corrected bad => Sys2Proof.Machine.execSourceRowRead l row data corrected bad s
  | .semRead l client sem => Sys2Proof.Machine.execSemRead l client sem s
  | .semAdd l client sem operand => Sys2Proof.Machine.execSemAdd l client sem operand s
  | .semSet l client sem operand => Sys2Proof.Machine.execSemSet l client sem operand s
  | .semWait l client sem operand => Sys2Proof.Machine.execSemWait l client sem operand s
  | .semWaitTake l client sem operand => Sys2Proof.Machine.execSemWaitTake l client sem operand s
  | .streamReady l entry frame => Sys2Proof.Machine.execStreamReady l entry frame s
  | .streamClose l entry frame => Sys2Proof.Machine.execStreamClose l entry frame s
  | .ownerScrubRequest path sess l v => Sys2Proof.Machine.execOwnerScrubRequest path sess l v s
  | .aluReinstatementRequest path sess u v => Sys2Proof.Machine.execAluReinstatementRequest path sess u v s
  | .settleCrossChipForm handle otherChipsRounded => Sys2Proof.Machine.execSettleCrossChipForm handle otherChipsRounded s
  | .cellTransmit p => Sys2Proof.Machine.execCellTransmit p s
  | .cellFrame p c => Sys2Proof.Machine.execCellFrame p c s
  | .creditResyncReq p w => Sys2Proof.Machine.execCreditResyncReq p w s
  | .creditResync p m => Sys2Proof.Machine.execCreditResync p m s
  | .goingDown p w => Sys2Proof.Machine.execGoingDown p w s
  | .retrainReq p w => Sys2Proof.Machine.execRetrainReq p w s
  | .beacon p m rx => Sys2Proof.Machine.execBeacon p m rx s
  | .timeAnnounce p m => Sys2Proof.Machine.execTimeAnnounce p m s
  | .commitPrepare p m => Sys2Proof.Machine.execCommitPrepare p m s
  | .commitConfirm p m => Sys2Proof.Machine.execCommitConfirm p m s
  | .commitCancel p m => Sys2Proof.Machine.execCommitCancel p m s
  | .chipLost p m => Sys2Proof.Machine.execChipLost p m s
  | .capability p m => Sys2Proof.Machine.execCapability p m s
  | .pavilionEnableWrite path sess p v => Sys2Proof.Machine.execPavilionEnableWrite path sess p v s
  | .laneSyncAchieved p => Sys2Proof.Machine.execLaneSyncAchieved p s
  | .rxrdyFall p lane => Sys2Proof.Machine.execRxrdyFall p lane s
  | .trainingTimeout p => Sys2Proof.Machine.execTrainingTimeout p s
  | .beaconRound p tx => Sys2Proof.Machine.execBeaconRound p tx s
  | .measureComplete p => Sys2Proof.Machine.execMeasureComplete p s
  | .fecLimitExceeded p => Sys2Proof.Machine.execFecLimitExceeded p s
  | .syncLoss p => Sys2Proof.Machine.execSyncLoss p s
  | .grandChipLost => Sys2Proof.Machine.execGrandChipLost s
  | .holdoverTimeout => Sys2Proof.Machine.execHoldoverTimeout s
  | .relockRequest path sess v => Sys2Proof.Machine.execRelockRequest path sess v s
  | .chipLossTimeout c => Sys2Proof.Machine.execChipLossTimeout c s
  | .dictionaryRead path req sess es => Sys2Proof.Machine.execDictionaryRead path req sess es s
  | .readStaged path req sess es => Sys2Proof.Machine.execReadStaged path req sess es s
  | .dictionaryWrite path req sess es => Sys2Proof.Machine.execDictionaryWrite path req sess es s
  | .commit path req sess b => Sys2Proof.Machine.execCommit path req sess b s
  | .discard path req sess => Sys2Proof.Machine.execDiscard path req sess s
  | .sessionOpen path req sess right part => Sys2Proof.Machine.execSessionOpen path req sess right part s
  | .sessionClose path req sess => Sys2Proof.Machine.execSessionClose path req sess s
  | .epochSwitch => Sys2Proof.Machine.execEpochSwitch s
  | .tagWindowEnd => Sys2Proof.Machine.execTagWindowEnd s
  | .crossChipDecision => Sys2Proof.Machine.execCrossChipDecision s
  | .lateCommit => Sys2Proof.Machine.execLateCommit s
  | .killRequest path sess v => Sys2Proof.Machine.execKillRequest path sess v s
  | .stopBitSet u part => Sys2Proof.Machine.execStopBitSet u part s
  | .abortedReport l => Sys2Proof.Machine.execAbortedReport l s
  | .scrubTimeout l => Sys2Proof.Machine.execScrubTimeout l s
  | .domainTargetWrite path sess u v => Sys2Proof.Machine.execDomainTargetWrite path sess u v s
  | .dozeDelayExpiry u => Sys2Proof.Machine.execDozeDelayExpiry u s
  | .dozeWake u => Sys2Proof.Machine.execDozeWake u s
  | .goingDownEnd u => Sys2Proof.Machine.execGoingDownEnd u s
  | .wakingComplete u => Sys2Proof.Machine.execWakingComplete u s
  | .rejoinCheck u digest epoch => Sys2Proof.Machine.execRejoinCheck u digest epoch s
  | .supplyWarning d reading => Sys2Proof.Machine.execSupplyWarning d reading s
  | .supplyWarningClear d reading => Sys2Proof.Machine.execSupplyWarningClear d reading s
  | .supplyReset d reading => Sys2Proof.Machine.execSupplyReset d reading s
  | .supplyResetRelease d reading => Sys2Proof.Machine.execSupplyResetRelease d reading s
  | .thermalThrottle sensor reading => Sys2Proof.Machine.execThermalThrottle sensor reading s
  | .throttleEnd => Sys2Proof.Machine.execThrottleEnd s
  | .thermalTrip sensor reading => Sys2Proof.Machine.execThermalTrip sensor reading s
  | .powerEstimateWindow => Sys2Proof.Machine.execPowerEstimateWindow s
  | .plCapChange v => Sys2Proof.Machine.execPlCapChange v s
  | .powerEmergency => Sys2Proof.Machine.execPowerEmergency s
  | .repeatTimerExpiry u slot => Sys2Proof.Machine.execRepeatTimerExpiry u slot s
  | .outboxRescue u => Sys2Proof.Machine.execOutboxRescue u s
  | .reactionStep => Sys2Proof.Machine.execReactionStep s
  | .fifoPop path sess v => Sys2Proof.Machine.execFifoPop path sess v s
  | .firstFaultClear path sess v => Sys2Proof.Machine.execFirstFaultClear path sess v s
  | .faultClear path sess v => Sys2Proof.Machine.execFaultClear path sess v s
  | .faultForce path sess u v => Sys2Proof.Machine.execFaultForce path sess u v s
  | .forcedOccurrence u => Sys2Proof.Machine.execForcedOccurrence u s
  | .firmwareLoadStart path sess v => Sys2Proof.Machine.execFirmwareLoadStart path sess v s
  | .firmwareLoadComplete => Sys2Proof.Machine.execFirmwareLoadComplete s
  | .activationFailure keeper => Sys2Proof.Machine.execActivationFailure keeper s
  | .activationRecommit => Sys2Proof.Machine.execActivationRecommit s
  | .attach path sess w1 w0 => Sys2Proof.Machine.execAttach path sess w1 w0 s
  | .detach path sess v => Sys2Proof.Machine.execDetach path sess v s
  | .hostHeartbeat path sess v => Sys2Proof.Machine.execHostHeartbeat path sess v s
  | .graceTimeExpiry => Sys2Proof.Machine.execGraceTimeExpiry s
  | .hostlessLimitExpiry => Sys2Proof.Machine.execHostlessLimitExpiry s
  | .doorbell set producer => Sys2Proof.Machine.execDoorbell set producer s
  | .ringCommand => Sys2Proof.Machine.execRingCommand s
  | .ringSetEnable path sess v => Sys2Proof.Machine.execRingSetEnable path sess v s
  | .channelConfigWrite path sess ch v => Sys2Proof.Machine.execChannelConfigWrite path sess ch v s
  | .chWrite viaHl ident tag ch ws => Sys2Proof.Machine.execChWrite viaHl ident tag ch ws s
  | .chRead viaHl ident tag ch n => Sys2Proof.Machine.execChRead viaHl ident tag ch n s
  | .ackWrite viaHl ident tag ch code => Sys2Proof.Machine.execAckWrite viaHl ident tag ch code s
  | .chStatus viaHl ident tag ch => Sys2Proof.Machine.execChStatus viaHl ident tag ch s
  | .lodgeMessage ch => Sys2Proof.Machine.execLodgeMessage ch s
  | .counterFreeze => Sys2Proof.Machine.execCounterFreeze s
  | .counterConfigWrite path sess u n v => Sys2Proof.Machine.execCounterConfigWrite path sess u n v s
  | .traceFlush u => Sys2Proof.Machine.execTraceFlush u s
  | .traceBufferPop path sess u v => Sys2Proof.Machine.execTraceBufferPop path sess u v s
  | .belvedereLinkChange ready => Sys2Proof.Machine.execBelvedereLinkChange ready s
  | .snapshotRequest path sess v => Sys2Proof.Machine.execSnapshotRequest path sess v s
  | .snapshotCapture => Sys2Proof.Machine.execSnapshotCapture s
  | .snapshotWriteComplete => Sys2Proof.Machine.execSnapshotWriteComplete s
  | .snapshotRelease path sess v => Sys2Proof.Machine.execSnapshotRelease path sess v s
  | .waitTimeout l client => Sys2Proof.Machine.execWaitTimeout l client s
  | .blockReset => Sys2Proof.Machine.execBlockReset s
  | .resetRelease => Sys2Proof.Machine.execResetRelease s
  | .selfTestComplete d r => Sys2Proof.Machine.execSelfTestComplete d r s
  | .resetRequest => Sys2Proof.Machine.execResetRequest s
  | .resetRequestWithdraw => Sys2Proof.Machine.execResetRequestWithdraw s
  | .testReset => Sys2Proof.Machine.execTestReset s
  | .extest => Sys2Proof.Machine.execExtest s
  | .idcode => Sys2Proof.Machine.execIdcode s
  | .samplePreload cells => Sys2Proof.Machine.execSamplePreload cells s
  | .status => Sys2Proof.Machine.execStatus s
  | .bypass => Sys2Proof.Machine.execBypass s
  | .sramRead ident tag count addr => Sys2Proof.Machine.execSramRead ident tag count addr s
  | .sramWrite ident tag addr beats => Sys2Proof.Machine.execSramWrite ident tag addr beats s
  | .descriptor ident tag client w => Sys2Proof.Machine.execDescriptor ident tag client w s
  | .cmplRead ident tag client => Sys2Proof.Machine.execCmplRead ident tag client s
  | .outboundResponse tag status beats => Sys2Proof.Machine.execOutboundResponse tag status beats s
  | .setEndpointId eid => Sys2Proof.Machine.execSetEndpointId eid s
  | .getEndpointId => Sys2Proof.Machine.execGetEndpointId s
  | .getMctpVersionSupport => Sys2Proof.Machine.execGetMctpVersionSupport s
  | .getMessageTypeSupport => Sys2Proof.Machine.execGetMessageTypeSupport s
  | .getVendorDefinedMessageSupport => Sys2Proof.Machine.execGetVendorDefinedMessageSupport s
  | .unsupportedMctpCommand code => Sys2Proof.Machine.execUnsupportedMctpCommand code s
  | .i3cDynamicAddress m addr => Sys2Proof.Machine.execI3cDynamicAddress m addr s
  | .aluSelfTestComplete u passed => Sys2Proof.Machine.execAluSelfTestComplete u passed s
  | .powerEmergencyRelease => Sys2Proof.Machine.execPowerEmergencyRelease s
  | .governorConditionClear u => Sys2Proof.Machine.execGovernorConditionClear u s

end Sys2Proof.Machine
end

