-- ==== Sys2Proof/WellFormed.lean ====
section
/-!
DEFINITION. Well-formed commands: every unit, endpoint, port, client, channel and number that a command names exists in the
build (01 R18, R20; 14 R369). A command that is not well formed can reach no chip of the build; its meaning is total all the same.
-/
namespace Sys2Proof

namespace WellFormed

/-- A tile landing of the build. -/
def landing (b : Build) (l : Nat) : Bool := decide (l < 256 * b.galleries)

/-- A pavilion of the build. -/
def pavilion (b : Build) (p : Nat) : Bool := b.pavilions && decide (p < 16)

/-- A special endpoint of the build: host landing, lodge, gatehouse, keepers, belvedere (01 R20). -/
def special (b : Build) (e : Nat) : Bool :=
  e == 2048 || e == 2049 || e == 2050 || e == 2060 || (decide (2051 ≤ e) && decide (e ≤ 2051 + b.galleries))

/-- An endpoint of the build. -/
def endpoint (b : Build) (e : Nat) : Bool := landing b e || special b e

/-- A unit of the build. -/
def unit (b : Build) : UnitId → Bool
  | .landing n => landing b n
  | .stair n => decide (n < 16 * b.galleries)
  | .gallery n => decide (n < b.galleries)
  | .hall n => decide (n < 4)
  | .pavilion n => pavilion b n
  | .special n => special b n
  | .chip => true

/-- A switch of the build. -/
def switch (b : Build) : UnitId → Bool
  | .stair n => unit b (.stair n)
  | .gallery n => unit b (.gallery n)
  | .hall n => unit b (.hall n)
  | _ => false

/-- An island of the build: any unit but the chip itself. -/
def island (b : Build) : UnitId → Bool
  | .chip => false
  | u => unit b u

/-- Ports of a unit (01 R18): input ports 0 to the last. -/
def ports : UnitId → Nat
  | .landing _ => 2
  | .stair _ => 24
  | .gallery _ => 160
  | .hall _ => 85
  | .pavilion _ => 3
  | .special 2048 => 5
  | .special _ => 4
  | .chip => 0

/-- A unit and one of its ports. -/
def port (b : Build) (u : UnitId) (p : Nat) : Bool := unit b u && decide (p < ports u)

/-- A tile client. -/
def client (c : Nat) : Bool := decide (c < 32)

/-- A tile landing and a client of it. -/
def tile (b : Build) (l c : Nat) : Bool := landing b l && client c

/-- A path by which a request comes (09 R239). -/
def path : Path → Bool
  | .host set => decide (set < 32)
  | .lodge ch => decide (ch < 64)
  | .mgmt => true
  | .remote c => decide (c < 1024)
  | .keeper => true

/-- A path and a session number (09 R242). -/
def asked (p : Path) (sess : Nat) : Bool := path p && decide (sess < 64)

/-- A switchable domain, in SUP_CODE order with the control domain last (14 R362). -/
def domain (d : Nat) : Bool := decide (d ≤ 140)

/-- A partition number (10 R266). -/
def partition (p : Nat) : Bool := decide (p < 512)

end WellFormed

open WellFormed in
/-- Whether a command is well formed in a build. -/
def Instr.wf (b : Build) : Instr → Bool
  | .slotBoundary u => island b u
  | .unitArrival u p _ _ => island b u && port b u p
  | .creditWord u p _ => island b u && port b u p
  | .fabricTimeLoad u => island b u
  | .serviceTreeAccess u _ _ => unit b u
  | .governorClockRequest u _ => island b u
  | .governorClearTimeout u => island b u
  | .write e _ | .writeInline e _ | .readReq e _ | .readResp e _ => endpoint b e
  | .ack u p _ => port b u p
  | .nack u p _ => port b u p
  | .signal e _ | .writeSignal e _ => endpoint b e
  | .mcastWrite u p _ => port b u p
  | .mcastWriteSignal u p _ => port b u p
  | .mcastReport e _ => endpoint b e
  | .mcastReportTimer st _ => unit b (.stair st)
  | .reduceContrib u p _ _ => port b u p
  | .reduceResult u p _ => port b u p
  | .countExch e _ => endpoint b e
  | .reserveReq u p _ => port b u p
  | .reserveGrant e _ | .reserveRefuse e _ => endpoint b e
  | .reserveRelease u p _ => port b u p
  | .serviceReq e _ | .serviceResp e _ => endpoint b e
  | .faultMsg p _ => port b (.special 2050) p
  | .trace u p _ => port b u p
  | .timeBeacon _ => true
  | .errorResp e _ | .scrubReq e _ => endpoint b e
  | .scrubComplete l => landing b l
  | .scrubDone e _ => endpoint b e
  | .fenceDrainMark u p _ => port b u p
  | .fenceDrainAck e _ => endpoint b e
  | .schedAckDeadline l e _ => landing b l && decide (e < 64)
  | .frameBoundary p => partition p
  | .holdNotice u p _ => island b u && partition p
  | .planLoadStart p k _ => asked p k
  | .planImageCheck => true
  | .halfRateRequest p k _ | .fullRateReturnRequest p k _ => asked p k
  | .shadowSlotEntryWrite p k u _ | .activeSlotEntryWrite p k u _ => asked p k && unit b u
  | .escapeThresholdExpiry u _ => island b u
  | .initiatorDeadline ep e _ => endpoint b ep && decide (e < 64)
  | .planeMapRewrite p => pavilion b p
  | .drainStop u => island b u
  | .drainTimeout => true
  | .injectionRequest l c | .injectionRequestDrop l c => tile b l c
  | .injectionWatchdog l => landing b l
  | .opcodeWrite l _ | .opcodeWriteInline l _ | .opcodeRead l _ | .opcodeSignal l _ | .opcodeWriteSignal l _ => landing b l
  | .opcodeMcastWrite l _ | .opcodeMcastWriteSignal l _ => landing b l
  | .openWindow l _ | .closeWindow l _ | .tapArm l _ | .tapDisarm l _ | .collective l _ => landing b l
  | .sourceRowRead l r _ c _ => landing b l && decide (r < 8192) && decide (c ≤ 32)
  | .semRead l c _ | .semAdd l c _ _ | .semSet l c _ _ | .semWait l c _ _ | .semWaitTake l c _ _ => tile b l c
  | .streamReady l _ _ | .streamClose l _ _ => landing b l
  | .ownerScrubRequest p k l _ => asked p k && landing b l
  | .aluReinstatementRequest p k u _ => asked p k && switch b u
  | .settleCrossChipForm h _ => decide (h < 4096)
  | .cellTransmit p | .cellFrame p _ => pavilion b p
  | .creditResyncReq p _ | .creditResync p _ | .goingDown p _ | .retrainReq p _ => pavilion b p
  | .beacon p _ _ | .timeAnnounce p _ => pavilion b p
  | .commitPrepare p _ | .commitConfirm p _ | .commitCancel p _ | .chipLost p _ | .capability p _ => pavilion b p
  | .pavilionEnableWrite p k v _ => asked p k && pavilion b v
  | .laneSyncAchieved p => pavilion b p
  | .rxrdyFall p n => pavilion b p && decide (n < 8)
  | .trainingTimeout p | .beaconRound p _ | .measureComplete p | .fecLimitExceeded p | .syncLoss p => pavilion b p
  | .grandChipLost => b.pavilions
  | .holdoverTimeout => b.pavilions
  | .relockRequest p k _ => asked p k
  | .chipLossTimeout c => b.pavilions && decide (c < 1024)
  | .dictionaryRead p _ k _ | .readStaged p _ k _ | .dictionaryWrite p _ k _ | .commit p _ k _ | .discard p _ k => asked p k
  | .sessionOpen p _ k _ _ | .sessionClose p _ k => asked p k
  | .epochSwitch => true
  | .tagWindowEnd => true
  | .crossChipDecision => b.pavilions
  | .lateCommit => b.pavilions
  | .killRequest p k _ => asked p k
  | .stopBitSet u p => unit b u && partition p
  | .abortedReport l | .scrubTimeout l => landing b l
  | .domainTargetWrite p k u _ => asked p k && switch b u
  | .dozeDelayExpiry u | .dozeWake u | .goingDownEnd u | .wakingComplete u => switch b u
  | .rejoinCheck u _ _ => island b u
  | .supplyWarning d _ | .supplyWarningClear d _ | .supplyReset d _ | .supplyResetRelease d _ => domain d
  | .thermalThrottle i _ => decide (i < b.thermalInputs)
  | .throttleEnd => true
  | .thermalTrip i _ => decide (i < b.thermalInputs)
  | .powerEstimateWindow => true
  | .plCapChange _ => true
  | .powerEmergency => true
  | .repeatTimerExpiry u _ => unit b u
  | .outboxRescue u => island b u
  | .reactionStep => true
  | .fifoPop p k _ | .firstFaultClear p k _ | .faultClear p k _ => asked p k
  | .faultForce p k u _ => asked p k && unit b u
  | .forcedOccurrence u => unit b u
  | .firmwareLoadStart p k _ => asked p k
  | .firmwareLoadComplete => true
  | .activationFailure k => decide (k ≤ b.galleries)
  | .activationRecommit => true
  | .attach p k _ _ => asked p k
  | .detach p k _ | .hostHeartbeat p k _ => asked p k
  | .graceTimeExpiry => true
  | .hostlessLimitExpiry => true
  | .doorbell set _ => decide (set < 32)
  | .ringCommand => true
  | .ringSetEnable p k _ => asked p k
  | .channelConfigWrite p k c _ => asked p k && decide (c < 64)
  | .chWrite hl _ _ c ws => decide (c < 64) && decide (ws.length ≤ (if hl then 16 else 13))
  | .chRead hl _ _ c n => decide (c < 64) && decide (n ≤ (if hl then 16 else 13))
  | .ackWrite _ _ _ c _ | .chStatus _ _ _ c => decide (c < 64)
  | .lodgeMessage c => decide (c < 64)
  | .counterFreeze => true
  | .counterConfigWrite p k u n _ => asked p k && island b u && decide (n < 4)
  | .traceFlush u => unit b u
  | .traceBufferPop p k u _ => asked p k && unit b u
  | .belvedereLinkChange _ => true
  | .snapshotRequest p k _ => asked p k
  | .snapshotCapture => true
  | .snapshotWriteComplete => true
  | .snapshotRelease p k _ => asked p k
  | .waitTimeout l c => tile b l c
  | .blockReset => true
  | .resetRelease => true
  | .selfTestComplete d _ => domain d
  | .resetRequest => true
  | .resetRequestWithdraw => true
  | .testReset => true
  | .extest => true
  | .idcode => true
  | .samplePreload _ => true
  | .status => true
  | .bypass => true
  | .sramRead _ _ n _ => decide (n < 128)
  | .sramWrite _ _ _ bs => decide (bs.length < 128)
  | .descriptor _ _ c _ | .cmplRead _ _ c => client c
  | .outboundResponse t _ bs => decide (t < 64) && decide (bs.length ≤ 64)
  | .setEndpointId _ => true
  | .getEndpointId => true
  | .getMctpVersionSupport => true
  | .getMessageTypeSupport => true
  | .getVendorDefinedMessageSupport => true
  | .unsupportedMctpCommand _ => true
  | .i3cDynamicAddress _ _ => true
  | .aluSelfTestComplete u _ => switch b u
  | .powerEmergencyRelease => true
  | .governorConditionClear u => island b u

end Sys2Proof
end

