-- ==== Sys2Proof/Safety.lean ====
section
/-!
DEFINITION. What a safe run is, and the words that the statements use: a block that is out of reset, the state as a command
finds it, a command that runs, and what one group of commands leaves alone.
-/
namespace Sys2Proof.Machine

/-- The block is out of reset: RST_N and PWR_OK are high and the start-up has begun (14 R350, R352). -/
abbrev State.live (s : State) : Prop := s.boot.inReset = false

/-- The state as a command finds it: nothing driven out yet. -/
def State.quiet (s : State) : State := { s with outs := [] }

/-- Command `c` answers the next state `t`, with the queue, the build and the reset pin as they were. -/
def Runs (c : Instr) (s t : State) : Prop := exec c s = .next (s.framed t)

/-- A packet that passes every check on its way into unit `u`: header, tag, and its data (02 R54, R60; 09 R264), with no operand that
02 R50 or R51 reserves. -/
def State.sound (s : State) (u : UnitId) (p : Packet) : Prop :=
  headerFault p.hdr = none ∧ (s.bankAt u p.hdr).isSome = true ∧ checkThree p = none ∧ reservedOperand p.hdr = false

/-- A packet that an endpoint takes in: a sound one, with a valid address, of a command that the endpoint serves and permits (02 R52,
R54, R381). -/
def State.soundAt (s : State) (e : Nat) (p : Packet) : Prop :=
  s.sound (epUnit e) p ∧ addressFault e p.hdr = none ∧ serves e p.hdr.command.toNat = true ∧ permits e p.hdr = true

/-- The checks of 09 R250 accept a write entry of a session, and the value applied is `x`: the place exists, the session may write
it, no other session has staged it, its state permits the write, the value is in range, the object's own rule holds; and a unit that a
write at once reaches is awake (10 R280). -/
def State.allows (s : State) (w : Who) (path : Path) (e : DictEntry) (x : Nat) : Prop :=
  ∃ o, s.locate e = .inl o ∧ s.mayWrite w path o e.inst.toNat e.row.toNat = 0 ∧
    s.stagedElsewhere w.key (s.placeOf w.key o.id e.inst.toNat e.row.toNat e.word.toNat) = false ∧
    s.statePermits o e.inst.toNat e.row.toNat e.value.toNat = true ∧
    s.rangeOf o e.inst.toNat e.row.toNat e.word.toNat e.value.toNat = .fit x ∧ s.ownRule w.key o e.inst.toNat e.row.toNat x = true ∧
    (s.takesAtOnce o = true → s.targetAsleep o.id e.inst.toNat = false)

/-- The response to a write of one word that has been applied as `x` (09 R253). -/
def State.wrote (s : State) (path : Path) (sess : Nat) (e : DictEntry) (x : Nat) : State :=
  s.emit (.dictResp path (msgHeader 2 0 sess 0 1) [{ e with outcome := 0, value := BitVec.ofNat 64 x }] 0)

/-- The command by which the tile of landing `l` presents a descriptor of an opcode from 1 to 12 (05 R124). -/
def descCommand (op l : Nat) (d : Desc) : Instr :=
  match op with
  | 1 => .opcodeWrite l d
  | 2 => .opcodeWriteInline l d
  | 3 => .opcodeRead l d
  | 4 => .opcodeSignal l d
  | 5 => .opcodeWriteSignal l d
  | 6 => .opcodeMcastWrite l d
  | 7 => .opcodeMcastWriteSignal l d
  | 8 => .openWindow l d
  | 9 => .closeWindow l d
  | 10 => .tapArm l d
  | 11 => .tapDisarm l d
  | _ => .collective l d

/-- A safe run of `n` steps: every step answers a next state, none a fault and none a refusal. -/
def State.safeFor : Nat → State → Prop
  | 0, _ => True
  | n + 1, s => ∃ t, step s = .next t ∧ t.safeFor n

/-- A run without end is safe. -/
def State.safe (s : State) : Prop := ∀ n, s.safeFor n

/-- Whatever a block that is held in reset holds: the values of the reset, but for the commands that wait, what the last command
drove out, the build, the count of free values drawn, and the test access port, which RST_N does not reset (14 R350, R368). -/
def State.heldInReset (s : State) : Prop :=
  s.boot.inReset = true →
    s = { State.reset with pending := s.pending, outs := s.outs, build := s.build, free := s.free, tap := s.tap }

/-- The commands that a block held in reset takes: the two edges of reset and those of the test access port (14 R350, R368). -/
def takenInReset : Instr → Bool
  | .blockReset | .resetRelease | .testReset | .extest | .idcode | .samplePreload _ | .status | .bypass => true
  | _ => false

/-- Two states differ at most in tile landing `l` and in what is driven out. -/
def State.onlyTile (s t : State) (l : Nat) : Prop :=
  t = { s with tiles := t.tiles, outs := t.outs } ∧ ∀ k, k ≠ l → t.tile k = s.tile k

/-- Two states differ at most in the pavilion `p` and in what is driven out. -/
def State.onlyPav (s t : State) (p : Nat) : Prop :=
  t = { s with pavs := t.pavs, outs := t.outs } ∧ ∀ k, k ≠ p → t.pav k = s.pav k

/-- The canonical form of the byte memories (host SRAM of the lodge, scratchpads of the tiles). -/
def State.memoriesWf (s : State) : Prop :=
  Memory.wf s.lodge.sram = true ∧ ∀ l, Memory.padWf (s.tile l).scratch = true

end Sys2Proof.Machine
end

