-- ==== Sys2Proof/Certificates/Slice0/Obligations.lean ====
section
/-!
DEFINITION. The statements about the model: the machine as a whole, its codes, and for each family of commands what a command
does where it runs, and what it leaves alone.
-/

open Sys2Proof Sys2Proof.Machine

/-! ## The machine as a whole -/

/-- A step runs the command at the front of the queue on the rest of the queue; on an empty queue the block idles and nothing
changes (log entry 3, the model's choice). -/
def Obligations.StepRunsFront : Prop :=
  (∀ (c : Instr) (rest : List Instr) (s : State), step { s with pending := c :: rest } = exec c { s with pending := rest }) ∧
  (∀ s : State, s.pending = [] → step s = .next s)

/-- Every command answers a next state, from every state, and so every run of the block is safe: no step of it faults or is
refused. -/
def Obligations.EveryRunIsSafe : Prop := (∀ (c : Instr) (s : State), ∃ t, exec c s = .next t) ∧ ∀ s : State, s.safe

/-- What no command touches: the queue and the build; and only the two edges of reset move the reset pin. -/
def Obligations.CommandFrame : Prop :=
  ∀ (c : Instr) (s t : State), exec c s = .next t →
    t.pending = s.pending ∧ t.build = s.build ∧
      (c ≠ .blockReset → c ≠ .resetRelease → t.boot.inReset = s.boot.inReset)

/-- A block held in reset stays at its reset values, whatever step is taken (14 R350). -/
def Obligations.HeldInResetKept : Prop := ∀ s t : State, s.heldInReset → step s = .next t → t.heldInReset

/-- The state after reset is one. -/
def Obligations.HeldInResetAtReset : Prop := State.reset.heldInReset

/-- Every input of a block held in reset is ignored, but for the release and the test access port (14 R350). -/
def Obligations.ResetIgnoresInputs : Prop :=
  ∀ (c : Instr) (s : State), s.boot.inReset = true → takenInReset c = false → exec c s = .next s.quiet

/-- BLOCK_RESET leaves nothing: every field takes its reset value but the build and the test access port; while the thermal trip
stands and a sensor is not yet below the throttle temperature the reset is not accepted (14 R350; 10 R287). RESET_RELEASE starts
the start-up, with the load of the control domain's clocks to come (01 R26), and does nothing to a block that is out of reset. -/
def Obligations.BlockReset : Prop :=
  (∀ s : State, s.resetAccepted = true →
    exec .blockReset s = .next { State.reset with pending := s.pending, build := s.build, free := s.free, tap := s.tap }) ∧
  (∀ s : State, s.resetAccepted = false → exec .blockReset s = .next s.quiet) ∧
  (∀ s : State, s.boot.inReset = true →
    exec .resetRelease s = .next { s with
      outs := [], boot := { s.boot with inReset := false, progress := 1 }
      loads := s.loads.put 140 { value := 0, left := s.specials.map (fun e => (UnitId.special e).code) } }) ∧
  (∀ s : State, s.live → exec .resetRelease s = .next s.quiet)

/-! ## Codes and layouts (02) -/

/-- Packing a header and reading it back gives the header, and reading and packing gives the payload; the same of a dictionary entry
and its 128 bits (02 R41; 09 R244). -/
def Obligations.RoundTrips : Prop :=
  (∀ h : Header, unpackHeader (packHeader h) = h) ∧ (∀ p : Payload, packHeader (unpackHeader p) = p) ∧
  (∀ e : DictEntry, unpackEntry (packEntry e) = e) ∧ (∀ v : BitVec 128, packEntry (unpackEntry v) = v)

/-- The SECDED code of 02 R55: what each quarter protects, data bit by data bit; the positions are the numbers from 1 that are
no powers of two; check bit `j` is the parity of the data bits whose position has bit `j`; c8 is the parity of all of it; the code
field is [8] and [7:0]. -/
def Obligations.SecdedCode : Prop :=
  (∀ f : Flit, (quarterData f 0).1 = 160 ∧ (quarterData f 1).1 = 128 ∧ (quarterData f 2).1 = 128 ∧ (quarterData f 3).1 = 132) ∧
  (∀ (f : Flit) (q i : Nat), q < 4 → i < 128 → (quarterData f q).2.testBit i = f.payload.getLsbD (128 * q + i)) ∧
  (∀ (f : Flit) (i : Nat), i < 32 → (quarterData f 0).2.testBit (128 + i) = f.tail.getLsbD i) ∧
  (∀ f : Flit, (quarterData f 3).2.testBit 128 = f.resend ∧ (quarterData f 3).2.testBit 129 = f.trunc ∧
    (quarterData f 3).2.testBit 130 = f.last ∧ (quarterData f 3).2.testBit 131 = f.first) ∧
  (∀ i, i < 160 → ∃ p, dataPositions[i]? = some p ∧ (∀ k, p ≠ 2 ^ k) ∧ 1 ≤ p ∧
    ((List.range p).filter (fun m => 1 ≤ m ∧ isCheckPos m = false)).length = i) ∧
  (∀ n d j, n ≤ 160 → j < 8 → (secded n d).testBit j =
    (((dataPositions.take n).zipIdx.filter (fun x => x.1.testBit j && d.testBit x.2)).length % 2 == 1)) ∧
  (∀ n d, (secded n d).testBit 8 = (oddOnes n d ^^ oddOnes 8 (secded n d))) ∧
  (∀ n d, n ≤ 160 → secded n d < 512)

/-- The decoding table of 02 R56, row by row, with the largest positions in use. -/
def Obligations.SecdedDecoding : Prop :=
  (∀ n d c : Nat,
    let s := xorPositions (dataPositions.take n) d ^^^ (c % 256)
    let p := oddOnes n d ^^ oddOnes 9 c
    (s = 0 → p = false → decodeQuarter n d c = .clean) ∧
    (p = true → s = 0 ∨ isCheckPos s = true → decodeQuarter n d c = .corrected d) ∧
    (p = true → s ≠ 0 → isCheckPos s = false → s ≤ (dataPositions.take n).getLastD 0 →
      decodeQuarter n d c = .corrected (d ^^^ 2 ^ dataIndex s)) ∧
    (p = true → s ≠ 0 → isCheckPos s = false → (dataPositions.take n).getLastD 0 < s → decodeQuarter n d c = .uncorrectable) ∧
    (s ≠ 0 → p = false → decodeQuarter n d c = .uncorrectable)) ∧
  (dataPositions.take 160).getLastD 0 = 168 ∧ (dataPositions.take 128).getLastD 0 = 136 ∧ (dataPositions.take 132).getLastD 0 = 140

/-- A quarter as sent reads clean, and with any one of its data and code bits flipped it is corrected to what was sent
(02 R55, R56). -/
def Obligations.SecdedCorrectsSingle : Prop :=
  ∀ n d : Nat, n = 128 ∨ n = 132 ∨ n = 160 → d < 2 ^ n →
    decodeQuarter n d (secded n d) = .clean ∧
    (∀ i, i < n → decodeQuarter n (d ^^^ 2 ^ i) (secded n d) = .corrected d) ∧
    (∀ i, i < 9 → decodeQuarter n d (secded n d ^^^ 2 ^ i) = .corrected d)

/-- Any two flipped bits of a quarter are found and not corrected (02 R55, R56). -/
def Obligations.SecdedDetectsDouble : Prop :=
  ∀ n d : Nat, n = 128 ∨ n = 132 ∨ n = 160 → d < 2 ^ n →
    (∀ i j, i < j → j < n → decodeQuarter n (d ^^^ 2 ^ i ^^^ 2 ^ j) (secded n d) = .uncorrectable) ∧
    (∀ i j, i < n → j < 9 → decodeQuarter n (d ^^^ 2 ^ i) (secded n d ^^^ 2 ^ j) = .uncorrectable) ∧
    (∀ i j, i < j → j < 9 → decodeQuarter n d (secded n d ^^^ 2 ^ i ^^^ 2 ^ j) = .uncorrectable)

/-- A hop word has even parity and is valid, and a receiver within 64 slots finds the slot at which its unit left (02 R40). -/
def Obligations.HopWordTime : Prop :=
  ∀ (esc forced : Bool) (t now : Nat),
    oddOnes 10 (hopWord esc forced t).toNat = false ∧ (hopWord esc forced t).getLsbD 9 = true ∧
    (hopWord esc forced t).getLsbD 8 = esc ∧ (hopWord esc forced t).getLsbD 1 = forced ∧
    (t ≤ now → now < t + 64 → hopDeparture (hopWord esc forced t) now = t)

/-! ## Combining arithmetic (06) -/

/-- The result of an integer SUM is the exact sum `a` where the format holds it; out of its range it is the nearest bound with the SAT
flag alone, or, with integer wrap, `a` modulo two to the width, with no flag (06 R150). -/
def Obligations.IntegerSum : Prop :=
  ∀ (f : Fmt) (scale : Nat) (a : Int) (fl : BitVec 8), f ∈ fmts → f.isInt = true →
    let w := 8 * f.bytes
    let hi : Int := ((2 ^ (w - 1) : Nat) : Int) - 1
    let lo : Int := -((2 ^ (w - 1) : Nat) : Int)
    (lo ≤ a → a ≤ hi → ∀ wrap, signedOf w (sumResult f scale wrap a fl).1 = a ∧ (sumResult f scale wrap a fl).2 = {}) ∧
    (hi < a → signedOf w (sumResult f scale false a fl).1 = hi ∧ (sumResult f scale false a fl).2 = { sat := true }) ∧
    (a < lo → signedOf w (sumResult f scale false a fl).1 = lo ∧ (sumResult f scale false a fl).2 = { sat := true }) ∧
    (a < lo ∨ hi < a → (sumResult f scale true a fl).1 < 2 ^ w ∧ (sumResult f scale true a fl).2 = {} ∧
      ((sumResult f scale true a fl).1 : Int) = a % ((2 ^ w : Nat) : Int))

/-- A SUM depends only on the multiset of its inputs: in whatever order they come, and however they are grouped into partials, the
element and its flags are the same; and in the accumulator of its format no sum of up to 2^24 members wraps: it holds the exact sum
(06 R146, R148). -/
def Obligations.SumAnyOrder : Prop :=
  (∀ (f : Fmt) (scale : Nat) (rounded wrap : Bool) (xs ys : List Nat),
    let total (l : List Nat) : Acc := (l.map (sumInput f scale)).foldl (accJoin 0 f (accWidth f rounded)) (.sum 0 0#8)
    (xs.Perm ys → accResult 0 f scale wrap (total xs) = accResult 0 f scale wrap (total ys)) ∧
    accJoin 0 f (accWidth f rounded) (total xs) (total ys) = total (xs ++ ys)) ∧
  (∀ (f : Fmt) (xs : List Nat), f ∈ fmts → xs.length ≤ 2 ^ 24 →
    let value (v : Nat) : Int := match sumInput f f.scale v with | .sum a _ => a | .val _ => 0
    ∃ fl, (xs.map (sumInput f f.scale)).foldl (accJoin 0 f (accWidth f false)) (.sum 0 0#8) = .sum (xs.map value).sum fl)

/-! ## The test access port and the management port (14 R367, R368) -/

/-- The commands of the test access port, in reset or out of it; each changes the port and what is driven out, and nothing else.
What the boundary register reads is a free value (log entry 33). -/
def Obligations.TapCommands : Prop :=
  ∀ s : State,
    exec .testReset s = .next { s with outs := [], tap := { s.tap with instr := 1#8 } } ∧
    exec .idcode s = .next { s with outs := [.tdo 32 (1 * 2 ^ 28 + 0x5A50 * 2 ^ 12 + s.build.tapMfr.toNat * 2 + 1)],
                                    tap := { s.tap with instr := 1#8 } } ∧
    exec .status s = .next { s with outs := [.tdo 32 s.quiet.tapStatus], tap := { s.tap with instr := 0x20#8 } } ∧
    exec .bypass s = .next { s with outs := [.tdo 1 0], tap := { s.tap with instr := 0xFF#8 } } ∧
    (s.live → exec .extest s = .next { s with outs := [.tdo 1 0], tap := { s.tap with instr := 0#8 } }) ∧
    (s.boot.inReset = true → ∃ v, exec .extest s = .next { s with
      outs := [.pins s.tap.preload, .tdo (boundaryCells s.build) v], free := s.free + 1, tap := { s.tap with instr := 0#8 } }) ∧
    (∀ cells, ∃ v, exec (.samplePreload cells) s = .next { s with
      outs := [.tdo (boundaryCells s.build) v], free := s.free + 1
      tap := { s.tap with instr := 2#8, preload := cells.take (boundaryCells s.build) } })

/-- The MCTP control commands once the management port is served: SET_ENDPOINT_ID keeps the identifier it is given, but for the
two reserved ones; the others only answer. The I3C target takes the dynamic address it is given; SETDASA reaches only a target with
a static address (14 R367; the layouts of the answers are presumed, log entry 32). -/
def Obligations.ManagementPort : Prop :=
  (∀ s : State, s.live → 2 ≤ s.boot.progress →
     (∀ e : BitVec 8, e ≠ 0 → e ≠ 0xFF →
       exec (.setEndpointId e) s = .next { s with outs := [.mctp 0#8 [0#8, e, 0#8]], mgmt := { s.mgmt with eid := e } }) ∧
     (∀ e : BitVec 8, e = 0 ∨ e = 0xFF → exec (.setEndpointId e) s = .next { s with outs := [.mctp 0x02#8 []] }) ∧
     exec .getEndpointId s = .next { s with outs := [.mctp 0#8 [s.mgmt.eid, 0#8, 0#8]] } ∧
     (∃ v, exec .getMctpVersionSupport s = .next { s with outs := [.mctp 0#8 (1#8 :: v)] }) ∧
     (∃ v, exec .getMessageTypeSupport s = .next { s with outs := [.mctp 0#8 [1#8, v]] }) ∧
     (∃ v, exec .getVendorDefinedMessageSupport s = .next { s with outs := [.mctp 0#8 (0xFF#8 :: v)] }) ∧
     (∀ c : BitVec 8, exec (.unsupportedMctpCommand c) s = .next { s with outs := [.mctp 0x05#8 []] })) ∧
  (∀ (s : State) (a : BitVec 7), s.live → 2 ≤ s.boot.progress →
     exec (.i3cDynamicAddress .entdaa a) s = .next { s with outs := [], mgmt := { s.mgmt with dynAddr := some a } } ∧
     (s.build.i3cStatic ≠ 0 →
       exec (.i3cDynamicAddress .setdasa a) s = .next { s with outs := [], mgmt := { s.mgmt with dynAddr := some a } }) ∧
     (s.build.i3cStatic = 0 → exec (.i3cDynamicAddress .setdasa a) s = .next s.quiet))

/-! ## The host port (14 R358 to R360; 12 R323, R326) -/

/-- An SRAM read in range answers with the bytes, beat by beat, and changes nothing; an SRAM request of a wrong size, a wrong place,
or past the end is answered with its status and changes nothing (14 R359). -/
def Obligations.SramRead : Prop :=
  (∀ (s : State) (id : BitVec 16) (tag : BitVec 8) (n : Nat) (a : BitVec 24), s.live → s.boot.present = true →
     1 ≤ n → n ≤ 64 → a.toNat % 64 = 0 → a.toNat + 64 * n ≤ 0x200000 →
     ∃ ps : List Payload, exec (.sramRead id tag n a) s = .next { s with outs := [.hlResp (hlHeader tag 0 n 0) ps] } ∧ ps.length = n ∧
       ∀ i j, i < n → j < 64 → (ps[i]?.map (fun p => payloadByte p j)) = some (sramByte s.lodge.sram (a.toNat + 64 * i + j))) ∧
  (∀ (s : State) (id : BitVec 16) (tag : BitVec 8) (a : BitVec 24), s.live → s.boot.present = true →
     (∀ n, n = 0 ∨ 64 < n → exec (.sramRead id tag n a) s = .next { s with outs := [.hlResp (hlHeader tag 3 0 0) []] }) ∧
     (∀ n, 1 ≤ n → n ≤ 64 → a.toNat % 64 ≠ 0 ∨ 0x200000 < a.toNat + 64 * n →
       exec (.sramRead id tag n a) s = .next { s with outs := [.hlResp (hlHeader tag 2 0 0) []] }) ∧
     (∀ bs, bs.length = 0 ∨ 64 < bs.length →
       exec (.sramWrite id tag a bs) s = .next { s with outs := [.hlResp (hlHeader tag 3 0 0) []] }) ∧
     (∀ bs, 1 ≤ bs.length → bs.length ≤ 64 → a.toNat % 64 ≠ 0 ∨ 0x200000 < a.toNat + 64 * bs.length →
       exec (.sramWrite id tag a bs) s = .next { s with outs := [.hlResp (hlHeader tag 2 0 0) []] }))

/-- An SRAM write stores the enabled bytes of each beat and no other byte; beside the memory only the notified ring sets may
change, and the memory keeps its canonical form (14 R358, R359). -/
def Obligations.SramWrite : Prop :=
  ∀ (s : State) (id : BitVec 16) (tag : BitVec 8) (a : BitVec 24) (bs : List (Payload × BitVec 64)), s.live → s.boot.present = true →
    1 ≤ bs.length → bs.length ≤ 64 → a.toNat % 64 = 0 → a.toNat + 64 * bs.length ≤ 0x200000 →
    ∃ t, exec (.sramWrite id tag a bs) s = .next t ∧
      t = { s with outs := [.hlResp (hlHeader tag 0 0 0) []],
                   lodge := { s.lodge with sram := t.lodge.sram, bells := t.lodge.bells } } ∧
      (∀ i j, j < 64 → ∀ b, bs[i]? = some b →
        sramByte t.lodge.sram (a.toNat + 64 * i + j) =
          if b.2.getLsbD j then payloadByte b.1 j else sramByte s.lodge.sram (a.toNat + 64 * i + j)) ∧
      (∀ x, x < a.toNat ∨ a.toNat + 64 * bs.length ≤ x → sramByte t.lodge.sram x = sramByte s.lodge.sram x) ∧
      (Memory.wf s.lodge.sram = true → Memory.wf t.lodge.sram = true)

/-- A doorbell stores the producer in the control block of its ring set, low byte first, and stores nothing else; of the rest only
the notified ring sets may change (12 R323). -/
def Obligations.Doorbell : Prop :=
  ∀ (s : State) (set : Nat) (v : BitVec 32), s.live → s.boot.present = true → set < 32 →
    ∃ t, exec (.doorbell set v) s = .next t ∧
      t = { s with outs := [], lodge := { s.lodge with sram := t.lodge.sram, bells := t.lodge.bells } } ∧
      (∀ j, j < 4 → sramByte t.lodge.sram (64 * set + 4 + j) = BitVec.ofNat 8 (v.toNat / 256 ^ j)) ∧
      (∀ x, x < 64 * set + 4 ∨ 64 * set + 8 ≤ x → sramByte t.lodge.sram x = sramByte s.lodge.sram x) ∧
      t.lodge.bells = if s.ringOn set && !s.lodge.bells.contains set then s.lodge.bells ++ [set] else s.lodge.bells

/-- A descriptor of the host: malformed for a client past 31, refused while 64 are open, else taken by the host landing and
answered (14 R359; the count of the 64 is the model's reading). -/
def Obligations.HostDescriptor : Prop :=
  ∀ (s : State) (id : BitVec 16) (tag : BitVec 8) (c : Nat) (w : BitVec 256), s.live → s.boot.present = true →
    (32 ≤ c → exec (.descriptor id tag c w) s = .next { s with outs := [.hlResp (hlHeader tag 3 0 0) []] }) ∧
    (c < 32 → 64 ≤ s.hostOpen → exec (.descriptor id tag c w) s = .next { s with outs := [.hlResp (hlHeader tag 4 0 0) []] }) ∧
    (c < 32 → s.hostOpen < 64 → Runs (.descriptor id tag c w) s
      ((s.quiet.descriptor 2048 c (descOpcode w) (unpackDesc w)).emit (.hlResp (hlHeader tag 0 0 0) [])))

/-- Reading completions: up to eight of the client's own, the oldest first, packed into one beat and taken off the queue; the
others' stay (14 R358). -/
def Obligations.CompletionRead : Prop :=
  ∀ (s : State) (id : BitVec 16) (tag : BitVec 8) (c : Nat), s.live → s.boot.present = true → c < 32 →
    ∃ t v, exec (.cmplRead id tag c) s = .next t ∧
      t = { s with outs := [.hlResp (hlHeader tag 0 1 (((s.host.cmpl.filter (fun x => x.1 == c)).take 8).length * 2 ^ 40)) [v]],
                   host := { s.host with cmpl := t.host.cmpl } } ∧
      (∀ i r, ((s.host.cmpl.filter (fun x => x.1 == c)).take 8)[i]? = some r → bitsAt v.toNat (64 * i) 64 = r.2.toNat) ∧
      t.host.cmpl.filter (fun x => x.1 == c) = (s.host.cmpl.filter (fun x => x.1 == c)).drop 8 ∧
      t.host.cmpl.filter (fun x => x.1 != c) = s.host.cmpl.filter (fun x => x.1 != c)

/-- The answer to a request of the block's own ends the request of that tag and starts the next one that waits; an answer to no
request does nothing (14 R360). -/
def Obligations.OutboundResponse : Prop :=
  ∀ (s : State) (tag : Nat) (st : BitVec 4) (bs : List Payload), s.live → s.boot.present = true →
    (s.host.outReqs.find tag = none → exec (.outboundResponse tag st bs) s = .next s.quiet) ∧
    (∀ x, s.host.outReqs.find tag = some x →
      let q : State := { s.quiet with host := { s.host with outReqs := s.host.outReqs.del tag } }
      let q := q.hostAnswered x (st == 0#4 && (decide (bs.length = x.beats) || x.use == 1 || x.use == 4 || x.use == 6)) bs
      Runs (.outboundResponse tag st bs) s (match q.host.asks with
        | [] => q
        | a :: rest => ({ q with host := { q.host with asks := rest } }).hostRequest a))

/-! ## Lodge channels (12 R327 to R330) -/

/-- Words into a channel that is enabled, by its owner, with room: they join the inbound queue with the sender's identity, in
order; by its peer, the outbound queue. Both ways of access do the same to the channel (12 R328, R329). -/
def Obligations.ChannelWrite : Prop :=
  ∀ (s : State) (id : BitVec 16) (tag : BitVec 8) (ch : Nat) (ws : List (BitVec 32)), s.live → s.boot.present = true →
    ch < 64 → 1 ≤ ws.length → ws.length ≤ 13 → s.chanOn ch = true →
    (s.quiet.chanEnd ch id = some true → (s.chan ch).inq.length + ws.length ≤ 16 → ∀ hl, ∃ t, exec (.chWrite hl id tag ch ws) s = .next t ∧
      (t.chan ch).inq = (s.chan ch).inq ++ ws.map (fun w => (w, id)) ∧ (t.chan ch).outq = (s.chan ch).outq ∧
      (∀ k, k ≠ ch → t.chan k = s.chan k) ∧
      t = { s with outs := t.outs, lodge := { s.lodge with chans := t.lodge.chans, mail := t.lodge.mail } }) ∧
    (s.quiet.chanEnd ch id = some false → (s.chan ch).outq.length + ws.length ≤ 16 → ∀ hl, ∃ t, exec (.chWrite hl id tag ch ws) s = .next t ∧
      (t.chan ch).outq = (s.chan ch).outq ++ ws.map (fun w => (w, id)) ∧ (t.chan ch).inq = (s.chan ch).inq ∧
      (∀ k, k ≠ ch → t.chan k = s.chan k) ∧
      t = { s with outs := t.outs, lodge := { s.lodge with chans := t.lodge.chans } })

/-- Words out of a channel that is enabled, by its owner: the oldest of the outbound queue leave it; an acknowledgement code by an
end is kept for the other; the status word is answered and changes nothing (12 R328, R329). -/
def Obligations.ChannelRead : Prop :=
  ∀ (s : State) (id : BitVec 16) (tag : BitVec 8) (ch : Nat), s.live → s.boot.present = true → ch < 64 → s.chanOn ch = true →
    (s.quiet.chanEnd ch id = some true →
      (∀ hl n, 1 ≤ n → n ≤ 13 → (s.chan ch).outq ≠ [] → ∃ t, exec (.chRead hl id tag ch n) s = .next t ∧
        t.chan ch = { s.chan ch with outq := (s.chan ch).outq.drop n } ∧ (∀ k, k ≠ ch → t.chan k = s.chan k) ∧
        t = { s with outs := t.outs, lodge := { s.lodge with chans := t.lodge.chans } }) ∧
      (∀ hl code, ∃ t, exec (.ackWrite hl id tag ch code) s = .next t ∧
        t.chan ch = { s.chan ch with ackPeer := code } ∧ (∀ k, k ≠ ch → t.chan k = s.chan k) ∧
        t = { s with outs := t.outs, lodge := { s.lodge with chans := t.lodge.chans } })) ∧
    (∀ hl, ∃ o, exec (.chStatus hl id tag ch) s = .next { s with outs := [o] })

/-! ## The dictionary (09) -/

/-- SESSION_OPEN on ring set 0 gives the lowest free number from 1 to 63 with the right that is asked for, answers with it, and
changes no other session; with every number taken the answer is status 4, and from a session other than 0 it is status 5, and
nothing changes (09 R242). -/
def Obligations.SessionOpen : Prop :=
  ∀ (s : State) (req : BitVec 8) (right part : BitVec 16), s.live → s.hears (.host 0) = true → right.toNat ≤ 2 →
    (∀ k, 1 ≤ k → k ≤ 63 → s.ctl.sessions.find k = none → (∀ j, 1 ≤ j → j < k → s.ctl.sessions.find j ≠ none) →
      exec (.sessionOpen (.host 0) req 0 right part) s = .next { s with
        outs := [.dictResp (.host 0) (msgHeader 6 req k 0 0) [] 0]
        ctl := { s.ctl with sessions := s.ctl.sessions.put k ⟨right.toNat, part.toNat, .host 0, 0⟩ } }) ∧
    ((∀ j, 1 ≤ j → j ≤ 63 → s.ctl.sessions.find j ≠ none) →
      exec (.sessionOpen (.host 0) req 0 right part) s = .next { s with outs := [.dictResp (.host 0) (msgHeader 6 req 0 4 0) [] 0] }) ∧
    (∀ k, k ≠ 0 → exec (.sessionOpen (.host 0) req k right part) s =
      .next { s with outs := [.dictResp (.host 0) (msgHeader 6 req k 5 0) [] 0] })

/-- SESSION_CLOSE by the path that opened the session: the number is free again, no write of the session stays staged, the writes
and sessions of the others stay, and the committed values do (09 R242). -/
def Obligations.SessionClose : Prop :=
  ∀ (s : State) (i : Nat) (req : BitVec 8) (k : Nat) (x : Session), s.live → s.hears (.host i) = true → k ≠ 0 →
    s.ctl.sessions.find k = some x → x.path = .host i →
    ∃ t, exec (.sessionClose (.host i) req k) s = .next t ∧ t.ctl.sessions.find k = none ∧
      (∀ j, j ≠ k → t.ctl.sessions.find j = s.ctl.sessions.find j) ∧
      t.ctl.staged = s.ctl.staged.filter (fun w => w.sess != k) ∧ t.dict = s.dict ∧
      t.outs = [.dictResp (.host i) (msgHeader 7 req k 0 0) [] 0]

/-- DISCARD drops every staged write of the session and no other, and leaves the session open (09 R245). -/
def Obligations.Discard : Prop :=
  ∀ (s : State) (i : Nat) (req : BitVec 8) (k : Nat) (x : Session), s.live → s.hears (.host i) = true → k ≠ 0 →
    s.ctl.sessions.find k = some x → x.path = .host i →
    ∃ t, exec (.discard (.host i) req k) s = .next t ∧ t.ctl.sessions = s.ctl.sessions ∧
      t.ctl.staged = s.ctl.staged.filter (fun w => w.sess != k) ∧ t.dict = s.dict ∧
      t.outs = [.dictResp (.host i) (msgHeader 5 req k 0 0) [] 0]

/-- The dictionary messages of a path that K0 hears, over an open session or, for a read, without one: READ and READ_STAGED answer
their entries in order, WRITE carries out its entries in order, and a COMMIT of writes that break no rule of R257 is taken. One
readable word is answered with its value, and one accepted write is carried out (09 R243, R245, R246, R253, R256). -/
def Obligations.DictionaryMessages : Prop :=
  (∀ (s q : State) (p : Path) (req : BitVec 8) (k : Nat) (es : List DictEntry) (w : Who), s.live → s.hears p = true →
    1 ≤ es.length → es.length ≤ entryLimit p → (k = 0 ∧ w = nobody ∧ q = s.quiet) ∨ (k ≠ 0 ∧ s.quiet.who p k = (some w, q)) →
    (let r := serveEach (fun a e => a.readEntry w p false (k == 0) e) q es
     Runs (.dictionaryRead p req k es) s (r.1.respond .direct p (msgHeader 1 req k (entryStatus r.2) es.length) r.2 0)) ∧
    (let r := serveEach (fun a e => a.readEntry w p true (k == 0) e) q es
     Runs (.readStaged p req k es) s (r.1.respond .direct p (msgHeader 3 req k (entryStatus r.2) es.length) r.2 0)) ∧
    (∀ e o, es = [e] → q.locate e = .inl o → k ≠ 0 ∨ isIdentity o.id = true → q.mayRead w p o e.inst.toNat e.row.toNat = true →
      q.fwAdmits o.id false = true → q.targetAsleep o.id e.inst.toNat = false →
      Runs (.dictionaryRead p req k es) s ((q.touch e.inst.toNat).respond .direct p (msgHeader 1 req k 0 1)
        [{ e with outcome := 0, value := BitVec.ofNat 64 (q.liveObj w.key o e.inst.toNat e.row.toNat e.word.toNat) }] 0))) ∧
  (∀ (s q : State) (p : Path) (req : BitVec 8) (k : Nat) (es : List DictEntry) (w : Who), s.live → s.hears p = true →
    1 ≤ es.length → es.length ≤ entryLimit p → k ≠ 0 → s.quiet.who p k = (some w, q) →
    let one (a : State) (e : DictEntry) : State × DictEntry :=
      (a.touch e.inst.toNat).writeEntry w p e (fun o v a => a.immediate w o e.inst.toNat e.row.toNat e.word.toNat v)
    let q : State := { q with fw := { q.fw with attachWord := none } }
    let r := serveEach one q es
    Runs (.dictionaryWrite p req k es) s
      (({ r.1 with fw := { r.1.fw with attachWord := none } } : State).respond .direct p (msgHeader 2 req k (entryStatus r.2) es.length) r.2 0) ∧
    (∀ e o x, es = [e] → (q.touch e.inst.toNat).locate e = .inl o → (q.touch e.inst.toNat).checkEntry w p e = ⟨0, x, []⟩ →
      let a := (q.touch e.inst.toNat).carryOut w o e.inst.toNat e.row.toNat e.word.toNat x
        (fun a => a.immediate w o e.inst.toNat e.row.toNat e.word.toNat x)
      Runs (.dictionaryWrite p req k es) s (({ a with fw := { a.fw with attachWord := none } } : State).respond .direct p
        (msgHeader 2 req k 0 1) [{ e with outcome := 0, value := BitVec.ofNat 64 x }] 0))) ∧
  (∀ (s q f : State) (p : Path) (req : BitVec 8) (k : Nat) (b : CommitBody) (w : Who), s.live → s.hears p = true → k ≠ 0 →
    (∀ c, p ≠ .remote c) → s.quiet.who p k = (some w, q) → w.right ≠ 0 → q.takesCommits = true → b.scope ≠ 3#2 →
    b.time.toNat ≤ q.time + 2000000000 → q.react.st ≠ 3 → q.commitFails (q.ctl.staged.filter (fun y => y.sess == w.key)) = (none, f) →
    Runs (.commit p req k b) s (f.take
      { path := p, req := req, sess := w.key, num := w.num, time := b.time.toNat, scope := if q.build.pavilions then b.scope.toNat else 0
        part := b.part.toNat, writes := q.ctl.staged.filter (fun y => y.sess == w.key), own := false, carrier := .direct }))

/-- The commands that take a message from where it waits. A command of the ring set whose turn it is leaves the ring and is served;
a whole message of one sender leaves its channel, if its response fits, and is served; a request to a keeper or to the lodge joins
the read-service queue and is served; the answer of another chip's head keeper is noted with the commit that waits for it; an access
over the service tree is answered with the word, and by a unit that sleeps with "target asleep" (12 R320, R324, R328, R330; 09 R239,
R259; 01 R31). -/
def Obligations.CarriedMessages : Prop :=
  (∀ (s : State) (i : Nat) (rest : List Nat), s.live → 2 ≤ s.boot.progress → s.fw.changing = none → s.quiet.readySets = i :: rest →
    let bs := sramRead s.lodge.sram ((s.ring i 0).1 + s.consumer i 0 % 2 ^ (s.ring i 0).2 * 64) 64
    let a := s.quiet.sramSet (64 * i) (bytesOf 4 ((s.consumer i 0 + 1) % 2 ^ 32))
    let b : State := { a with lodge := { a.lodge with
      turn := (i + 1) % 32, busy := a.lodge.busy ++ [i]
      bells := if a.producer i 0 = a.consumer i 0 then a.lodge.bells.filter (fun x => x != i) else a.lodge.bells } }
    let hdr := ofBytes (bs.take 4)
    let arr := ofBytes ((bs.drop 4).take 4)
    let n := hdr % 256
    let body := BitVec.ofNat 256 (ofBytes ((bs.drop 16).take 32))
    (4 ≤ bitsAt hdr 28 4 → bitsAt hdr 28 4 ≤ 7 → Runs .ringCommand s (b.serveMessage (.ring i 0) (.host i) 0 hdr [] body)) ∧
    (1 ≤ bitsAt hdr 28 4 → bitsAt hdr 28 4 ≤ 3 → arr = 0 → n ≤ 3 →
      Runs .ringCommand s (b.serveMessage (.ring i 0) (.host i) 0 hdr (entriesOf n (bs.drop 16)) body)) ∧
    (1 ≤ bitsAt hdr 28 4 → bitsAt hdr 28 4 ≤ 3 → arr ≠ 0 → arr % 16 = 0 → arr + 16 * n ≤ 0x200000 →
      Runs .ringCommand s (b.serveMessage (.ring i arr) (.host i) 0 hdr (entriesOf n (sramRead b.lodge.sram arr (16 * n))) body))) ∧
  (∀ (s : State) (ch len : Nat) (w : BitVec 32) (id : BitVec 16) (rest : List (BitVec 32 × BitVec 16)), s.live → 2 ≤ s.boot.progress →
    s.fw.changing = none → s.chanOn ch = true → s.chanPlain ch = false → s.lodge.mail.contains ch = true →
    s.lodge.busy.contains (32 + ch) = false → (s.chan ch).inq = (w, id) :: rest →
    messageWords (bitsAt w.toNat 28 4) (w.toNat % 256) = some len → len ≤ (s.chan ch).inq.length →
    (∀ x, x ∈ (s.chan ch).inq.take len → x.2 = id) →
    (s.chan ch).outq.length + answerWords (bitsAt w.toNat 28 4) (w.toNat % 256) ≤ 16 →
    let a := s.quiet.onChan ch (fun c => { c with inq := (s.chan ch).inq.drop len, ackOwner := 0x0001 })
    let b : State := { a with lodge := { a.lodge with
      busy := a.lodge.busy ++ [32 + ch]
      mail := if ((s.chan ch).inq.drop len).isEmpty then a.lodge.mail.filter (fun m => m != ch) else a.lodge.mail } }
    let body := (((s.chan ch).inq.take len).drop 1).flatMap (fun x => bytesOf 4 x.1.toNat)
    Runs (.lodgeMessage ch) s (b.serveMessage (.chan ch) (.lodge ch) id w.toNat
      (if hasEntries (bitsAt w.toNat 28 4) then entriesOf (w.toNat % 256) body else []) (BitVec.ofNat 256 (ofBytes (body.take 32))))) ∧
  (∀ (s : State) (ep : Nat) (p : Packet), s.live →
    let q := s.quiet.takeRx (epUnit ep) p
    let h := p.hdr
    q.soundAt ep p →
    (q.readsFull ep = false →
      let a := q.onEp ep (fun x => { x with reads := x.reads ++ [p] })
      let op := bitsAt h.aux.toNat 28 4
      let n := h.aux.toNat % 256
      let ch := bitsAt h.aux.toNat 12 8
      (ep ≠ 2049 → ep = 2051 ∨ a.servicePath h.src = .keeper → hasEntries op = false ∨ h.length.toNat = (if n ≤ 2 then 0 else (n + 3) / 4) →
        Runs (.serviceReq ep p) s (a.serveMessage (.fabric ep h) (a.servicePath h.src) 0 h.aux.toNat
          (if hasEntries op then entriesOf n (if n ≤ 2 then bytesOf 32 h.inl.toNat else p.data.flatMap payloadBytes) else []) h.inl)) ∧
      (ep = 2049 → ch < 64 → op = 15 → Runs (.serviceReq ep p) s (a.lodgeAnswer h
        (lodgeHeader 15 (BitVec.ofNat 8 (bitsAt h.aux.toNat 20 8)) ch 0 0) (BitVec.ofNat 256 (a.chanStatus ch)) [])) ∧
      (ep = 2049 → ch < 64 → op = 14 → a.chanOn ch = true → (a.chanEnd ch (BitVec.ofNat 16 (0x8000 + localOf h.src))).isSome = true →
        Runs (.serviceReq ep p) s ((a.chanAck ch (BitVec.ofNat 16 (0x8000 + localOf h.src)) (h.inl.setWidth 16)).2.lodgeAnswer h
          (lodgeHeader 14 (BitVec.ofNat 8 (bitsAt h.aux.toNat 20 8)) ch 0 0) 0 []))) ∧
    (∀ x, ep = 2051 → chipOf h.src ≠ q.chipNo → localOf h.src = 2051 → q.ctl.cross = some x → bitsAt h.aux.toNat 28 4 = 4 →
      bitsAt h.aux.toNat 20 8 = x.seq.toNat % 256 → (∀ v, (chipOf h.src, v) ∉ x.answers) →
      Runs (.serviceResp ep p) s { q with ctl := { q.ctl with cross := some { x with
        answers := x.answers ++ [(chipOf h.src, bitsAt h.aux.toNat 8 4 == 0)]
        ruleFailed := x.ruleFailed || bitsAt h.aux.toNat 8 4 == 6 } } })) ∧
  (∀ (s : State) (u : UnitId) (wr : Bool) (e : DictEntry) (o : Obj), s.live → 2 ≤ s.boot.progress →
    (s.quiet.asleep u = true → exec (.serviceTreeAccess u wr e) s = .next { s with outs := [.treeResp u true 0] }) ∧
    (s.quiet.asleep u = false →
      let q := s.quiet.touch (instOf u)
      let w : Who := { nobody with right := 2 }
      q.locate { e with inst := BitVec.ofNat 16 (instOf u) } = .inl o →
      Runs (.serviceTreeAccess u false e) s (q.emit (.treeResp u false (BitVec.ofNat 64 (q.liveObj 0 o (instOf u) e.row.toNat e.word.toNat)))) ∧
      (o.takes ≠ .never → o.acc ≠ .ro → Runs (.serviceTreeAccess u true e) s
        ((q.carryOut w o (instOf u) e.row.toNat e.word.toNat e.value.toNat (fun a =>
          a.immediate w o (instOf u) e.row.toNat e.word.toNat e.value.toNat)).emit (.treeResp u false e.value)))))

/-- The commands that are a write of one object, of the plan, the machine, the faults, the firmware, the driver, the lodge and the
observation: over an open session, a value that passes the checks of 09 R250 and is applied as `x` has the effect that the object
names, and is answered with outcome 0, or 3 for the active slot entry, which is redirected to the shadow bank (03 R85, R90; 09 R250). -/
def Obligations.ObjectWrites : Prop :=
  ∀ (s q : State) (p : Path) (k : Nat) (v : BitVec 64) (w : Who) (x : Nat), s.live → s.hears p = true → s.quiet.who p k = (some w, q) →
    (let e := writeOf 0x180004 0 0 0 v
     q.allows w p e x → Runs (.planLoadStart p k v) s ((if x = 1 then q.startPlanLoad (sessKey p k) else q).wrote p k e x)) ∧
    (let e := writeOf 0x181101 0 0 0 v
     q.allows w p e x → Runs (.halfRateRequest p k v) s
      (((q.setVal 0x181101 x).changeRate (if x < 512 then [x] else []) 2 none).wrote p k e x)) ∧
    (let e := writeOf 0x181102 0 0 0 v
     q.allows w p e x → Runs (.fullRateReturnRequest p k v) s
      (((q.setVal 0x181102 x).changeRate (if x < 512 then [x] else []) 0 none).wrote p k e x)) ∧
    (∀ u, let e := writeOf 0x182003 (instOf u) 0 0 v
     let key := q.placeOf w.key 0x182003 e.inst.toNat 0 0
     q.allows w p e x → Runs (.shadowSlotEntryWrite p k u v) s
      (((q.stage w.key key x).stage w.key (key + 1) (if x = 0 then 0 else q.selector w.key 0x182005 e.inst.toNat + 1)).wrote p k e x)) ∧
    (∀ u, let e := writeOf 0x182004 (instOf u) 0 0 v
     let key := q.placeOf w.key 0x182004 e.inst.toNat 0 0
     q.allows w p e x → Runs (.activeSlotEntryWrite p k u v) s
      (((((q.clampPut e w.num (0, 3, v.toNat, x)).stage w.key key x).stage w.key (key + 1)
        (if x = 0 then 0 else q.selector w.key 0x182005 e.inst.toNat + 1))).emit
          (.dictResp p (msgHeader 2 0 k 1 1) [{ e with outcome := 3, value := BitVec.ofNat 64 x }] 0))) ∧
    (∀ u, let e := writeOf 0x200005 (instOf u) 0 0 v
     q.allows w p e x → Runs (.aluReinstatementRequest p k u v) s
      ((if x = 0 then q else q.stage w.key (q.placeOf w.key 0x200005 e.inst.toNat 0 0) x).wrote p k e x)) ∧
    (∀ l, let e := writeOf 0x800504 (8192 + l) 0 0 v
     q.allows w p e x → Runs (.ownerScrubRequest p k l v) s ((q.startScrub l (bitsAt x 0 24) (bitsAt x 24 14) none).wrote p k e x)) ∧
    (∀ n, let e := writeOf 0x281001 (pavInst n) 0 0 v
     q.allows w p e x → Runs (.pavilionEnableWrite p k n v) s ((q.enablePavilion n x).wrote p k e x)) ∧
    (let e := writeOf 0x280008 0 0 0 v
     q.allows w p e x → Runs (.relockRequest p k v) s ((if x = 1 ∧ q.mach.st = .timeFault then q.enterTime .acquire else q).wrote p k e x)) ∧
    (let e := writeOf 0x080201 0 0 0 v
     q.allows w p e x → Runs (.killRequest p k v) s ((q.beginEnding x).wrote p k e x)) ∧
    (∀ u d, domainOf u = some d → let e := writeOf 0x802001 (instOf u) 0 0 v
     q.allows w p e x → Runs (.domainTargetWrite p k u v) s ((q.setTarget d x).wrote p k e x)) ∧
    (let e := writeOf 0x300102 0 0 0 v
     q.allows w p e x → Runs (.fifoPop p k v) s ((if x = 1 then q.fifoPop else q).wrote p k e x)) ∧
    (let e := writeOf 0x300502 0 0 0 v
     q.allows w p e x → Runs (.faultClear p k v) s ((q.clearFlags x).wrote p k e x)) ∧
    (∀ u, let e := writeOf (if instOf u = 0 then 0x302101 else 0x302001) (instOf u) 0 0 v
     q.allows w p e x → Runs (.faultForce p k u v) s ((q.armForce (instOf u) x).wrote p k e x)) ∧
    (let e := writeOf 0x440003 0 0 0 v
     q.allows w p e x → Runs (.firmwareLoadStart p k v) s ((if x = 1 then q.startFirmware else q).wrote p k e x)) ∧
    (∀ w1, let e1 := writeOf 0x401001 0 1 0 w1
     let e0 := writeOf 0x401001 0 0 0 v
     let a : State := { q with fw := { q.fw with attachWord := some w1 } }
     let b := a.attachDriver w.key w1 v
     q.allows w p e1 w1.toNat → a.allows w p e0 v.toNat → Runs (.attach p k w1 v) s
      (({ b with fw := { b.fw with attachWord := none } } : State).emit (.dictResp p (msgHeader 2 0 k 0 2) [e1, e0] 0))) ∧
    (let e := writeOf 0x401004 0 0 0 v
     q.allows w p e x → Runs (.detach p k v) s
      ((if x = 1 ∧ q.fw.st = .attached then { q with fw := { q.fw with st := .ready } } else q).wrote p k e x)) ∧
    (let e := writeOf 0x000006 0 0 0 v
     q.allows w p e x → Runs (.hostHeartbeat p k v) s
      ((({ q with fw := { q.fw with beatAt := q.time } } : State).setVal 0x000006 x).wrote p k e x)) ∧
    (let e := writeOf 0x400001 0 0 0 v
     q.allows w p e x → Runs (.ringSetEnable p k v) s ((q.enableRings x).wrote p k e x)) ∧
    (∀ ch, let e := writeOf 0x402001 0 ch 0 v
     q.allows w p e x → Runs (.channelConfigWrite p k ch v) s ((q.configureChan ch x).wrote p k e x)) ∧
    (∀ u n, let e := writeOf 0x381003 (instOf u) n 0 v
     q.allows w p e x → Runs (.counterConfigWrite p k u n v) s
      ((q.setCounterCfg u (q.selector (sessKey p k) 0x381001 (instOf u)) n x).wrote p k e x)) ∧
    (∀ u, let e := writeOf 0x382202 (instOf u) 0 0 v
     q.allows w p e x → Runs (.traceBufferPop p k u v) s ((if x = 1 then q.popTrace u else q).wrote p k e x)) ∧
    (let e := writeOf 0x386001 0 0 0 v
     q.allows w p e x → Runs (.snapshotRequest p k v) s ((if x = 1 then q.triggerSnapshot 0 1023 else q).wrote p k e x)) ∧
    (let e := writeOf 0x386006 0 0 0 v
     q.allows w p e x → Runs (.snapshotRelease p k v) s ((if x = 1 then q.releaseSnapshot else q).wrote p k e x))

/-- A write of 1 to the first-fault clear by a privileged session of ring set 0, with a driver attached and no
write staged: the first-fault record is cleared, the response says so, and nothing else changes (11 R299; 09 R250). -/
def Obligations.FirstFaultClear : Prop :=
  ∀ (s : State) (k : Nat) (x : Session), s.live → s.hears (.host 0) = true → s.fw.st = .attached → k ≠ 0 →
    s.ctl.sessions.find k = some x → x.path = .host 0 → x.right = 2 → s.allStaged = [] →
    exec (.firstFaultClear (.host 0) k 1) s = .next { s with
      outs := [.dictResp (.host 0) (msgHeader 2 0 k 0 1)
        [{ idx := 0x3004#16, sub := 0x02#8, inst := 0, row := 0, word := 0, outcome := 0, value := 1 }] 0]
      gate := { s.gate with first := 0 } }

/-- Epochs: the pending epoch is taken when its time has come, its tables, its number, the units that it reinstates, the tiles, the
counters and a firmware activation in this order; the tag window ends when its time has come, and with it the previous bank. The home chip of
a commit across chips confirms it where every chip of the scope has answered READY and cancels it otherwise; a chip that hears no decision
in time takes no epoch, ends its cross-chip partitions, and drops what the session has staged (09 R259, R261, R262, R264). -/
def Obligations.Epochs : Prop :=
  (∀ (s : State) (e : Epoch), s.live → s.ctl.pending = some e → s.react.st ≠ 3 → e.time ≤ s.time →
    let ws := e.writes
    let a := (((s.quiet.tablesAt e).advance e s.dict).reinstate ws).tileEpoch ws
    let b := a.counterEpoch (writesTo ws 0x380003) (writesTo ws 0x380002) (if writesTo ws 0x380001 then some (a.val 0x380001) else none) e.time
    Runs .epochSwitch s (((((if writesTo ws 0x440008 then b.activateAt e.time else b).announceEpoch e s.ctl.staleInWindow).endJoined
      e).drainSweep).retryKept)) ∧
  (∀ s : State, s.live → s.ctl.windowOpen = true → s.ctl.windowEnd ≤ s.time → ∃ t, exec .tagWindowEnd s = .next t ∧
    t.ctl.windowOpen = false ∧ t.prev = none) ∧
  (∀ (s : State) (x : CrossCommit), s.live → s.ctl.cross = some x → s.react.st ≠ 3 → x.time ≤ s.time + x.flood + 4000 →
    ((∀ c, c ∈ s.quiet.scopeChips x.ask.scope x.ask.part → (c, true) ∈ x.answers) → Runs .crossChipDecision s (s.quiet.confirmCross x)) ∧
    (∀ c, c ∈ s.quiet.scopeChips x.ask.scope x.ask.part → (c, true) ∉ x.answers → Runs .crossChipDecision s (s.quiet.cancelCross x))) ∧
  (∀ (s : State) (x : Prepare), s.live → s.quiet.lateRecord = some x →
    let r : Record := { origin := x.origin, seq := x.seq, time := x.time, sess := x.sess, scope := x.scope, part := x.part }
    let q := ((s.quiet.releasePrepare r).dropStaged r.key).bump 0x00000C 0 0 0 24 8 1
    Runs .lateCommit s (((((q.endAll q.spanning).raise .chip 0 0x081 1023 (ctxMachine x.origin x.time)).postCancelled x.time
      x.sess).settleWaiting).drainSweep))

/-! ## The tile port (05) -/

/-- The semaphore operations of a tile client that has no wait pending, in a domain that is ACTIVE, on a semaphore that nobody waits
on: READ answers the value, ADD adds modulo 2^32, SET writes; both answer the new value. No other semaphore, no byte of the scratchpad
and no other tile changes. A domain in DOZE is woken first; one that sleeps, or passes into or out of sleep, takes nothing (05 R134;
14 R355, R356). -/
def Obligations.SemaphoreOperations : Prop :=
  ∀ (s : State) (l c : Nat) (k : BitVec 8) (v : BitVec 32), s.live → (s.tile l).waits.find c = none →
    (s.domState (.landing l) = .active →
      exec (.semRead l c k) s = .next { s with outs := [.tpSemr l (semResp c 0 (s.sem l k))] } ∧
      ((∀ d w, (s.tile l).waits.find d = some w → w.sem ≠ k ∧ (s.sem l w.sem).toInt < w.operand.toInt) →
        (∃ t, exec (.semAdd l c k v) s = .next t ∧ s.onlyTile t l ∧ t.outs = [.tpSemr l (semResp c 0 (s.sem l k + v))] ∧
          t.sem l k = s.sem l k + v ∧ (∀ j, j ≠ k → t.sem l j = s.sem l j) ∧
          t.tile l = { s.tile l with sems := (t.tile l).sems }) ∧
        (∃ t, exec (.semSet l c k v) s = .next t ∧ s.onlyTile t l ∧ t.outs = [.tpSemr l (semResp c 0 v)] ∧
          t.sem l k = v ∧ (∀ j, j ≠ k → t.sem l j = s.sem l j) ∧
          t.tile l = { s.tile l with sems := (t.tile l).sems }))) ∧
    (∀ d, domainOf (.landing l) = some d → (s.dom d).st = .doze → exec (.semRead l c k) s =
      .next { s.onDom d (fun x => { x with st := .active, since := s.time }) with outs := [.tpSemr l (semResp c 0 (s.sem l k))] }) ∧
    (s.asleep (.landing l) = true → exec (.semRead l c k) s = .next s.quiet ∧ exec (.semAdd l c k v) s = .next s.quiet ∧
      exec (.semSet l c k v) s = .next s.quiet)

/-- The two waits of a client with no wait pending, in a domain that is ACTIVE, while the other pending waits are on other semaphores
and not met. Below the operand, as signed numbers, the client waits and the semaphores stay; a wait whose operand is reached ends at
once, WAIT with the value and WAIT_TAKE with the value less its operand, which the semaphore then holds (05 R134). -/
def Obligations.SemaphoreWaits : Prop :=
  ∀ (s : State) (l c : Nat) (k : BitVec 8) (v : BitVec 32), s.live → s.domState (.landing l) = .active → c < 32 →
    (s.tile l).waits.find c = none →
    (∀ d w, (s.tile l).waits.find d = some w → w.sem ≠ k ∧ (s.sem l w.sem).toInt < w.operand.toInt) →
    ((s.sem l k).toInt < v.toInt →
      (∃ t, exec (.semWait l c k v) s = .next t ∧ s.onlyTile t l ∧ t.outs = [] ∧ (t.tile l).sems = (s.tile l).sems ∧
        ∃ w, (t.tile l).waits.find c = some w ∧ w.sem = k ∧ w.operand = v ∧ w.take = false) ∧
      (∃ t, exec (.semWaitTake l c k v) s = .next t ∧ s.onlyTile t l ∧ t.outs = [] ∧ (t.tile l).sems = (s.tile l).sems ∧
        ∃ w, (t.tile l).waits.find c = some w ∧ w.sem = k ∧ w.operand = v ∧ w.take = true)) ∧
    (v.toInt ≤ (s.sem l k).toInt →
      (∃ t, exec (.semWait l c k v) s = .next t ∧ t.outs = [.tpSemr l (semResp c 0 (s.sem l k))] ∧ t.sem l k = s.sem l k ∧
        (t.tile l).waits.find c = none) ∧
      (∃ t, exec (.semWaitTake l c k v) s = .next t ∧ t.outs = [.tpSemr l (semResp c 0 (s.sem l k - v))] ∧
        t.sem l k = s.sem l k - v ∧ (t.tile l).waits.find c = none))

/-- What the semaphore and stream commands leave alone, in whatever state: every other tile, and of their own tile the scratchpad,
the arbiter and the windows; and nothing outside the tiles but what is driven out, the trace of a wait that ends, and the state of
the domain that the tile wakes from DOZE. -/
def Obligations.TileFrame : Prop :=
  ∀ (s t : State) (l c : Nat) (k : BitVec 8) (v : BitVec 32) (e : BitVec 6) (f : BitVec 16), s.live →
    exec (.semRead l c k) s = .next t ∨ exec (.semAdd l c k v) s = .next t ∨ exec (.semSet l c k v) s = .next t ∨
      exec (.semWait l c k v) s = .next t ∨ exec (.semWaitTake l c k v) s = .next t ∨ exec (.streamReady l e f) s = .next t →
    t = { s with tiles := t.tiles, outs := t.outs, doms := t.doms, obs := { s.obs with traces := t.obs.traces } } ∧
      (s.domState (.landing l) ≠ .doze → t.doms = s.doms) ∧
      (∀ j, j ≠ l → t.tile j = s.tile j) ∧ (t.tile l).scratch = (s.tile l).scratch ∧ (t.tile l).owner = (s.tile l).owner ∧
      (t.tile l).queue = (s.tile l).queue ∧ (t.tile l).windows = (s.tile l).windows

/-- The injection arbiter of a domain that is ACTIVE: a request to an arbiter that is free and has nobody waiting is granted at once;
one to an arbiter that another client holds waits at the end of the queue; the holder that drops its request frees an arbiter that
nobody waits for. While the domain sleeps, or passes into or out of sleep, a line that rises or falls is noted and no more (05 R120;
14 R355). -/
def Obligations.InjectionArbiter : Prop :=
  (∀ (s : State) (l c : Nat), s.live → s.domState (.landing l) = .active → c < 32 →
    ((s.tile l).owner = none → (s.tile l).queue = [] → (s.tile l).detached.getLsbD c = false →
      ∃ t, exec (.injectionRequest l c) s = .next t ∧ s.onlyTile t l ∧ (t.tile l).owner = some c ∧
        t.outs = [.tpGrant l (BitVec.ofNat 32 (2 ^ c))] ∧ (t.tile l).ireq.getLsbD c = true) ∧
    (∀ o, (s.tile l).owner = some o → o ≠ c → c ∉ (s.tile l).queue → (s.tile l).detached.getLsbD c = false →
      ∃ t, exec (.injectionRequest l c) s = .next t ∧ s.onlyTile t l ∧ (t.tile l).owner = some o ∧
        (t.tile l).queue = (s.tile l).queue ++ [c] ∧ t.outs = []) ∧
    ((s.tile l).owner = some c → (s.tile l).queue = [] →
      ∃ t, exec (.injectionRequestDrop l c) s = .next t ∧ s.onlyTile t l ∧ (t.tile l).owner = none ∧
        t.outs = [.tpGrant l 0] ∧ (t.tile l).ireq.getLsbD c = false)) ∧
  (∀ (s : State) (l c : Nat), s.live → s.asleep (.landing l) = true →
    exec (.injectionRequest l c) s = .next (s.quiet.onTile l (fun t => { t with ireq := t.ireq ||| grantWord (some c) })) ∧
    exec (.injectionRequestDrop l c) s = .next (s.quiet.onTile l (fun t => { t with ireq := t.ireq &&& ~~~ grantWord (some c) })))

/-- The injection watchdog takes the path from a client that has been idle for its time: the client is detached, no longer waits,
the fault is raised and the next client is served (05 R121). -/
def Obligations.InjectionWatchdog : Prop :=
  ∀ (s : State) (l c : Nat), s.live → s.domState (.landing l) = .active → (s.tile l).owner = some c → s.val 0x042001 ≤ (s.tile l).idle →
    let q := s.quiet.onTile l (fun t => { t with detached := t.detached ||| grantWord (some c), queue := t.queue.filter (· != c) })
    let q := q.raise (.landing l) 7 0x022 (q.epPart l) (ctxScratch 0 0 c)
    Runs (.injectionWatchdog l) s (((q.bump 0x800003 (8192 + l) 0 0 0 32 1).setWord 0x800004 (8192 + l) 0 0 1).serveQueue l)

/-- The descriptors of the client that holds the injection path of a landing whose domain is ACTIVE, each with its opcode from 1 to 12.
One whose fields are out of range completes with 0x82. WRITE, WRITE_INLINE, READ, SIGNAL, WRITE_SIGNAL, the two multicast writes and
COLLECTIVE take the lowest free entry; OPEN_WINDOW and CLOSE_WINDOW act on their window, TAP_ARM and TAP_DISARM on their tap. A row of
the scratchpad that the tile brings is kept for the read that asked for it, and the last one sends the packet; a bad one fails it. A
wait that has lasted for its time is marked and reported (05 R119, R122, R124 to R126, R132, R139; 07 R181, R203; 13 R348). -/
def Obligations.TileDescriptors : Prop :=
  (∀ (s : State) (l c op : Nat) (d : Desc), s.live → l < 2048 → s.domState (.landing l) = .active → (s.tile l).owner = some c →
     1 ≤ op → op ≤ 12 →
     let a := s.quiet.acceptDesc l
     let n := (s.ep l).nextOrder
     let b := a.onEp l (fun x => { x with nextOrder := n + 1 })
     let win := bitsAt d.specific.toNat 96 6
     (s.quiet.descOk l op d = false → Runs (descCommand op l d) s ((a.refuseDesc l c d 0x82).settleTile l)) ∧
     (∀ k, s.quiet.descOk l op d = true → op ≤ 7 ∨ op = 12 → s.quiet.noEndpoint op d = false → s.partOf l < 512 →
       (s.tile l).aborted = false → s.quiet.freeEntry l = some k →
       (op = 3 → (s.windowsAt l d.localAddr.toNat (64 * d.length.toNat)) = [] ∧ (s.freeWindow l).isSome = true) →
       Runs (descCommand op l d) s ((a.openEntry l k c op d).settleTile l)) ∧
     (op = 8 → s.quiet.descOk l op d = true → d.after = false → (s.tile l).windows.find win = none →
       s.windowsAt l d.localAddr.toNat (64 * d.length.toNat) = [] →
       Runs (.openWindow l d) s ((b.openWin l win (openedWindow c n d)).settleTile l)) ∧
     (∀ w, op = 9 → d.after = false → (s.tile l).windows.find win = some w → w.byRead = none →
       Runs (.closeWindow l d) s (((b.closeWin l win 0x84).refuseDesc l c d 0).settleTile l)) ∧
     (op = 10 → s.quiet.descOk l op d = true → d.after = false →
       let cfg := bitsAt d.specific.toNat 36 64
       let k := bitsAt d.specific.toNat 100 2
       Runs (.tapArm l d) s ((((b.setWord (0x800401 + k) (8192 + l) 0 0 cfg).onTile l (fun t => { t with
         taps := t.taps.put k { cfg := BitVec.ofNat 64 cfg } })).refuseDesc l c d 0).settleTile l)) ∧
     (op = 11 → d.after = false →
       let k := bitsAt d.specific.toNat 100 2
       let cfg := ((s.tile l).taps.get {} k).cfg &&& 0x7FFFFFFFFFFFFFFF#64
       Runs (.tapDisarm l d) s ((((b.setWord (0x800401 + k) (8192 + l) 0 0 cfg.toNat).onTile l (fun t => { t with
         taps := t.taps.modify {} k (fun y => { y with cfg := cfg }) })).refuseDesc l c d 0).settleTile l))) ∧
  (∀ (s : State) (l row : Nat) (data : BitVec 1024) (cor : Nat) (j : ReadJob), s.live → s.jobOfRow l row = some j →
     (s.tile l).rowForces = [] →
     let ctx := s.jobContext l j row
     let a := (List.range cor).foldl (fun (a : State) _ => a.raise (.landing l) 6 0x020 (s.epPart l) ctx)
       (s.quiet.onTile l (fun t => { t with rowForces := [] }))
     let j' := { j with rows := j.rows.put row data }
     let b := a.onEp l (fun x => { x with jobs := x.jobs.map (fun y => if y = j then j' else y) })
     ((rowsOf j.base j.bytes).all (fun r => (j'.rows.find r).isSome) = false → Runs (.sourceRowRead l row data cor false) s b) ∧
     ((rowsOf j.base j.bytes).all (fun r => (j'.rows.find r).isSome) = true →
       Runs (.sourceRowRead l row data cor false) s (b.jobDone l j' (jobBytes j'))) ∧
     Runs (.sourceRowRead l row data cor true) s
       (((a.raise (.landing l) 6 0x021 (s.epPart l) ctx).bump 0x800503 (8192 + l) 0 0 0 16 1).jobFailed l j 0x0A)) ∧
  (∀ (s : State) l c w, s.live → (s.tile l).waits.find c = some w → w.timedOut = false → w.suspended = false →
    w.start + s.val 0x384001 ≤ s.now (.landing l) →
    let q := s.quiet.onTile l (fun t => { t with waits := t.waits.put c { w with timedOut := true } })
    Runs (.waitTimeout l c) s ((q.bump 0x800302 (8192 + l) 0 0 0 32 1).raise (.landing l) 6 0x026
      ((q.bump 0x800302 (8192 + l) 0 0 0 32 1).epPart l) (ctxScratch w.sem.toNat 0 c)))

/-- The stream control of a tile whose domain is ACTIVE sets the ready frame or the close frame of the stream of its entry, and of no
other; a stream whose last frame has been sent may end at once on a close, and one that still has a packet to send does not
(05 R131). -/
def Obligations.StreamControl : Prop :=
  ∀ (s : State) (l : Nat) (e : BitVec 6) (f : BitVec 16) (x : TxStream), s.live → s.domState (.landing l) = .active →
    (s.tile l).txs.find e.toNat = some x →
    (∃ t, exec (.streamReady l e f) s = .next t ∧ s.onlyTile t l ∧ t.outs = [] ∧
      (t.tile l).txs.find e.toNat = some { x with ready := f } ∧
      (∀ k, k ≠ e.toNat → (t.tile l).txs.find k = (s.tile l).txs.find k)) ∧
    (let q := s.quiet.onTile l (fun t => { t with txs := t.txs.put e.toNat { x with close := some f } })
     Runs (.streamClose l e f) s (q.tryClose l e.toNat) ∧ (x.pending = true → Runs (.streamClose l e f) s q))

/-! ## Packets at their destination (02, 04, 05, 07) -/

/-- The packets at the units that take them. Each comes to a unit that its checks let in: header, tag, CRC and operands sound, and at
an endpoint an address of its space, a command that it serves and a partition that it permits (02 R54, R60, R381).
A write at a landing is counted, stored, put through the taps and counted for its windows; its descriptor's and its own semaphore operation
follow, and it is acknowledged; one on which the copies of the permute network disagree is written up to that unit, reported, and answered
as a packet that fails; a duplicate is only counted and acknowledged. At the lodge it writes the host SRAM, at the host endpoint
the host window. A multicast write at a switch is replicated. A READ_REQ joins the read-service queue and its rows are read; a READ_RESP
is stored for the read that waits, which goes on. An ACK completes its packet, a NACK sends it again up to three times; at a stair both are
noted in the record of their packet. An ERROR_RESP ends its transaction; a report of a stair counts for its census. A scrub begins where it
is asked for, and its end is taken by the keeper. Trace records are taken by the unit that collects them, a fault message by the gatehouse;
the time beacon of a pavilion changes nothing at K0. A drain mark is noted and goes on; an answer to the drain is noted by its keeper
(02 R50, R60, R381, R382; 04 R109, R111, R112, R114; 05 R130 to R139; 07 R201 to R204; 11 R297; 13 R340). -/
def Obligations.PacketsAtUnits : Prop :=
  ∀ (s : State) (p : Packet), s.live →
    let h := p.hdr
    let addr := h.addr.toNat
    let bs := packetBytes p
    (∀ (ep port : Nat) (c : Instr), ep < 2048 →
      c ∈ [.write ep p, .writeInline ep p, .signal ep p, .writeSignal ep p, .mcastWrite (.landing ep) port p, .mcastWriteSignal (.landing ep) port p] →
      let q := s.quiet.takeRx (epUnit ep) p
      let stored (f : State) (rx : Option (Nat × RxStream)) : State := if h.command = 7#8 then f else
        (((f.countArrival ep addr bs.length).storeWrite ep p rx).tapBytes ep true h.src h.stream h.seq bs).countWindows ep addr bs.length
      let signalled (a : State) : State := if bearsSignal h.command.toNat
        then a.semOp ep (h.aux.setWidth 8) (bitsAt h.aux.toNat 8 2) (h.inl.setWidth 32) h.src else a
      q.soundAt ep p → h.command = 7#8 ∨ q.scrubbing ep addr bs.length = false →
      (∀ f, h.cls = 0#1 → q.filter ep h = (.apply, f) → q.writeMiss ep p none = none →
        Runs c s (((signalled (stored f none)).settleTile ep).ack ep h 0)) ∧
      (∀ f k, h.cls = 0#1 → q.filter ep h = (.apply, f) → q.writeMiss ep p none = some k →
        Runs c s (q.failReceipt (epUnit ep) (epPort ep) p 1 (fun a =>
          ((a.countArrival ep addr (64 * p.data.length)).storeWrite ep { p with data := p.data.take k } none).permuteFault ep h))) ∧
      (∀ f r, h.cls = 1#1 → q.rxDesc ep p = some r → q.filter ep h = (.apply, f) → q.writeMiss ep p (some r) = none →
        let a := stored f (some r)
        Runs c s (((signalled (if r.2.desc.getLsbD 165 then a.semBump ep (r.2.desc.extractLsb' 166 8) else a)).settleTile ep).ack ep h 0)) ∧
      (∀ f, h.cls = 0#1 → q.filter ep h = (.duplicate, f) → Runs c s ((f.bump 0x102003 (8192 + ep) 0 0 0 32 1).ack ep h 1))) ∧
    (∀ (c : Instr) f, c ∈ [.write 2049 p, .writeInline 2049 p] →
      let q := s.quiet.takeRx (epUnit 2049) p
      q.soundAt 2049 p → q.filter 2049 h = (.apply, f) → Runs c s ((f.sramSet addr bs).ack 2049 h 0)) ∧
    (∀ (c : Instr) f, c ∈ [.write 2048 p, .writeInline 2048 p, .writeSignal 2048 p] →
      let q := s.quiet.takeRx (epUnit 2048) p
      q.soundAt 2048 p → h.command ≠ 7#8 → q.filter 2048 h = (.apply, f) →
      let us := if h.command = 2#8 then payloadsOf 1 bs else p.data
      Runs c s (f.hostRequest { req := { use := 1, beats := us.length, hdr := some h }, read := false, addr := addr, data := us })) ∧
    (∀ (u : UnitId) (port : Nat) bk, isSwitch u = true ∨ u.level = 4 →
      let q := s.quiet.takeRx u p
      s.quiet.bank h = some bk →
      Runs (.mcastWrite u port p) s (q.startMcast bk u port .normal h (rawUnits p) true) ∧
      Runs (.mcastWriteSignal u port p) s (q.startMcast bk u port .normal h (rawUnits p) true)) ∧
    (∀ (ep : Nat) f, let q := s.quiet.takeRx (epUnit ep) p
      q.soundAt ep p → q.readsFull ep = false → q.filter ep h = (.apply, f) →
      let a := f.onEp ep (fun x => { x with reads := x.reads ++ [p] })
      let r := f.readRespHeader ep h
      (ep ≤ 2048 → ep = 2048 ∨ q.scrubbing ep addr (touched h) = false → Runs (.readReq ep p) s (a.startRead ep
        { use := .response, hdr := r, base := addr, bytes := touched h, rows := [], kind := .answer })) ∧
      (ep = 2049 → Runs (.readReq ep p) s
        (a.queueTx ep .answer r (payloadsOf 64 (sramRead a.lodge.sram addr (touched h))) 64))) ∧
    (∀ (ep k : Nat) o, let q := s.quiet.takeRx (epUnit ep) p
      let n := 64 * p.data.length
      q.soundAt ep p → q.openPacket ep h = some (k, o) → o.hdr.command = 3#8 →
      (ep < 2048 → q.scrubbing ep addr n = false → q.permuteMiss ep addr false p = none → Runs (.readResp ep p) s
        (((((((q.countArrival ep addr n).writeUnits ep addr p.data).tapBytes ep true h.src h.stream h.seq (unitBytes p.data)).countWindows
          ep addr n).packetDone ep k o).settleTile ep).startLaunches ep)) ∧
      (ep = 2048 → Runs (.readResp ep p) s (((q.hostWrite 6 h addr p.data).packetDone ep k o).startLaunches ep))) ∧
    (∀ (u : UnitId) (ep port k : Nat) o, epOf u = some ep →
      let q := s.quiet.takeRx u p
      q.sound u p → q.openPacket ep h = some (k, o) → o.closing = false →
      (o.hdr.mcast = 0#1 →
        (o.hdr.cls = 0#1 → Runs (.ack u port p) s ((q.packetDone ep k o).startLaunches ep)) ∧
        (o.hdr.cls = 1#1 → Runs (.ack u port p) s ((q.schedAck ep k o).startLaunches ep))) ∧
      (o.sent = true → o.hdr.stamp = h.inl.setWidth 32 → o.failed = false →
        (o.hdr.cls = 0#1 → o.attempt < 3 → Runs (.nack u port p) s ((q.resend ep k o).startLaunches ep)) ∧
        (o.hdr.cls = 0#1 → 3 ≤ o.attempt → Runs (.nack u port p) s ((q.endEntry ep k 6).startLaunches ep)) ∧
        (o.hdr.cls = 1#1 → Runs (.nack u port p) s ((q.schedFail ep k o).startLaunches ep)))) ∧
    (∀ (n port k : Nat) (r : ReportRec), let q := s.quiet.takeRx (.stair n) p
      (q.sw (.stair n)).reports.find? (fun r =>
        r.2.hdr.src == h.dst && r.2.hdr.stream == h.stream && r.2.hdr.seq == h.seq && r.2.ports.contains port) = some (k, r) →
      checkThree p = none → reservedOperand h = false →
      let answered := if r.answered.contains port then r.answered else r.answered ++ [port]
      let noted (a : State) (x : ReportRec) : State := if r.ports.all (fun y => answered.contains y) then a.sendReport n k x
        else a.onSw (.stair n) (fun w => { w with reports := w.reports.put k x })
      Runs (.ack (.stair n) port p) s (noted q { r with
        answered := answered, delivered := if r.delivered.contains port then r.delivered else r.delivered ++ [port] }) ∧
      Runs (.nack (.stair n) port p) s (noted (q.forward (.stair n) port p) { r with answered := answered })) ∧
    (∀ (ep k : Nat) o, let q := s.quiet.takeRx (epUnit ep) p
      q.sound (epUnit ep) p →
      (q.endedLaunch ep h = some k → Runs (.errorResp ep p) s ((q.endEntry ep k (h.aux.toNat % 256)).startLaunches ep)) ∧
      (q.endedLaunch ep h = none → q.openPacket ep h = some (k, o) → o.sent = true → o.hdr.stamp = (unpackHeader (h.inl ++ 0#256)).stamp →
        (o.hdr.cls = 0#1 → o.closing = false → Runs (.errorResp ep p) s ((q.endEntry ep k (h.aux.toNat % 256)).startLaunches ep)) ∧
        (o.hdr.cls = 1#1 → Runs (.errorResp ep p) s ((q.failStream ep k o.hdr).startLaunches ep)))) ∧
    (∀ (ep k : Nat) o (d : Desc), let q := s.quiet.takeRx (epUnit ep) p
      q.sound (epUnit ep) p → q.openPacket ep h = some (k, o) → o.hdr.mcast = 1#1 → o.hdr.cls = 0#1 → o.hdr.command ≠ 0x22#8 →
      o.sent = true → (h.stamp - o.hdr.stamp).toNat < 2 ^ 31 → (q.entry ep k).desc = some d → bitsAt h.aux.toNat 29 3 = 1 → o.nacked = false →
      let o' := { o with stairs := o.stairs + 1 }
      let a := ((q.reportChip h).2.logDelivery ep k 1 (q.reportChip h).1 (bitsAt h.aux.toNat 17 12) (logMask 1 (h.inl.toNat % 2 ^ 128))
        (logMask 1 (h.inl.toNat / 2 ^ 128)) d.tag).onEntry ep k (fun en => { en with
          outst := en.outst.map (fun x => if x.hdr.seq = o.hdr.seq then o' else x) })
      ∀ c, a.census ep (o.hdr.dst.toNat % 2 ^ 20) = some c →
        (c ≤ o.stairs + 1 → Runs (.mcastReport ep p) s ((a.packetDone ep k o').startLaunches ep)) ∧
        (o.stairs + 1 < c → Runs (.mcastReport ep p) s (a.startLaunches ep))) ∧
    (∀ ep : Nat, let q := s.quiet.takeRx (epUnit ep) p
      ep < 2048 → q.sound (epUnit ep) p → permits ep h = true → addr % 64 = 0 → addr + 64 * (h.aux.toNat % 2 ^ 14) ≤ 0xC0000 →
      Runs (.scrubReq ep p) s (q.startScrub ep addr (h.aux.toNat % 2 ^ 14) (some h))) ∧
    (∀ ep l : Nat, let q := s.quiet.takeRx (epUnit ep) p
      q.soundAt ep p → localOf h.src = l → l < 2048 → chipOf h.src = q.chipNo → (q.tile l).scrubDue.isSome = true → sectorKeeper l = ep →
      (12288 ≤ h.aux.toNat % 2 ^ 14 → Runs (.scrubDone ep p) s (q.scrubDone l)) ∧
      (h.aux.toNat % 2 ^ 14 < 12288 → Runs (.scrubDone ep p) s (q.scrubFailed l))) ∧
    (∀ (u : UnitId) (port : Nat), u.level = 2 ∨ u.level = 3 ∨ u = .special 2060 →
      let q := s.quiet.takeRx u p
      q.sound u p → Runs (.trace u port p) s ((traceRecords p).foldl (fun a r => a.traceTake u r) q)) ∧
    (∀ (port : Nat) (m : BitVec 128) (f : FaultKind), badFault m = false → findKind (fmKind m) = some f → f.k0 = false →
      (s.node (.special 2050)).rxDone.find? (fun x => x.hdr.command == 0x32#8 && x.hdr.inl.setWidth 128 == m) = none →
      let key := sourceKey (fmLevel m) (fmInst m) (fmKind m)
      let a (n : Nat) : State := { s.quiet with gate := { s.gate with
        summary := s.gate.summary.modify 0 key (fun c => c + n)
        flags := if s.val 0x300301 ≤ fmClass m ∧ s.gate.flags.contains key = false then s.gate.flags ++ [key] else s.gate.flags } }
      (fmRepeat m ≠ 0 → Runs (.faultMsg port m) s (a (fmRepeat m))) ∧
      (fmRepeat m = 0 → s.gate.fifo.length < fifoLimit (fmClass m) →
        let time := extendTime s.time (fmTime m)
        let b := ((a 1).fifoPut m time (fmPart m)).latchFirst m (fmClass m) time (some s.gate.recNo.toNat)
        Runs (.faultMsg port m) s (if b.val 0x300302 ≤ fmClass m
          then b.post 0x0001 (if fmPart m < 512 then some (fmPart m) else none) m.toNat else b))) ∧
    (∀ (port : Nat) (m : BitVec 128), let q := s.quiet.takeRx (.special 2050) p
      (s.node (.special 2050)).rxDone.find? (fun x => x.hdr.command == 0x32#8 && x.hdr.inl.setWidth 128 == m) = some p →
      q.sound (.special 2050) p → Runs (.faultMsg port m) s (q.faultMsg m)) ∧
    (let q := s.quiet.takeRx k0 p
     q.soundAt 2051 p → Runs (.timeBeacon p) s q) ∧
    (∀ (u : UnitId) (port : Nat), headerFault h = none → checkThree p = none →
      let key := h.aux.toNat % 1024 * 8 + h.vc.toNat
      let a := (s.quiet.takeRx u p).joinDrain h
      let i := a.markInput u port key
      h.aux.toNat / 2 ^ 10 = a.drain.number → a.domState u ≠ .rejoining →
      Runs (.fenceDrainMark u port p) s (((a.onNode u (fun n => { n with
        marks := if n.marks.contains (i, key) then n.marks else n.marks ++ [(i, key)] })).sendMarks u).answerMarks u)) ∧
    (∀ ep : Nat, let q := s.quiet.takeRx (epUnit ep) p
      q.sound (epUnit ep) p → h.aux.toNat / 2 ^ 10 = q.drain.number →
      (∀ e, ep = 2051 → q.ackCode h.src = e → Runs (.fenceDrainAck ep p) s
        { q with drain := { q.drain with acks := if q.drain.acks.contains e then q.drain.acks else q.drain.acks ++ [e] } }.drainCheck) ∧
      (2052 ≤ ep → ep ≤ 2059 → Runs (.fenceDrainAck ep p) s (q.sectorAnswered ep (localOf h.src))))

/-- The packets of a collective that pass their checks. A contribution that suits what a switch combines for its handle is
combined on die, or enters its cross-chip stage; one that does not is discarded and reported. At the chip root the same holds for its own
members, and the partials of LSE are folded there. A result is written at a member of its group; one of RING's all-gather is passed on by
its hall. Of the count exchanges an arrival is noted by the chip root, a go starts the member's contributions, a count of another chip root
is acknowledged and noted. A reservation is granted whole or refused, released at once, and its answer lets the arrival of the launch
go. The timer of a stair's record sends its report (06 R161, R165, R168; 07 R182, R183, R186, R191 to R194, R202). -/
def Obligations.CollectivePackets : Prop :=
  ∀ (s : State) (p : Packet), s.live →
    let h := p.hdr
    let k := collHandle h
    (∀ (u : UnitId) (port : Nat), isSwitch u = true →
      let q := s.quiet.takeRx u p
      q.sound u p → (q.sw u).aluForces = [] → (q.coll k).ended = false → h.mcast = 0#1 →
      (q.suits u p = true → makerOf h ≠ 5 → chipCount (q.desc k) ≤ 1 ∨ wholeChip (q.desc k) h = false ∨ u = q.completingNode k h.part.toNat →
        Runs (.reduceContrib u port p 0) s (q.takeOnDie u p)) ∧
      (q.suits u p = true → makerOf h = 5 →
        let i := q.stageOf u p
        Runs (.reduceContrib u port p 0) s (q.enterStage 5 u k (launchOf h) i
          (q.inputOf p (q.stageMask k (launchOf h) i h) (q.sumScale k (launchOf h))))) ∧
      (q.suits u p = false → Runs (.reduceContrib u port p 0) s
        ((q.bump 0x200103 (instOf u) 0 0 16 16 1).raise u 3 0x043 h.part.toNat (ctxColl k h.addr.toNat)))) ∧
    (∀ (ep port : Nat), ep < 2048 →
      let q := s.quiet.takeRx (.landing ep) p
      let a := q.tapBytes ep true h.src h.stream h.seq (unitBytes p.data)
      q.soundAt ep p → (q.sw (.landing ep)).aluForces = [] → (a.coll k).ended = false → a.suits (.landing ep) p = true →
      a.answerRetained ep p = none →
      (h.mcast = 0#1 → makerOf h ≠ 5 → chipCount (a.desc k) ≤ 1 ∨ wholeChip (a.desc k) h = false →
        Runs (.reduceContrib (.landing ep) port p 0) s
          ((((a.takeOnDie (.landing ep) p).sendChunks k ep).settleTile ep).startLaunches ep)) ∧
      (h.mcast = 1#1 → Runs (.reduceContrib (.landing ep) port p 0) s
        ((((a.takeFold ep p).sendChunks k ep).settleTile ep).startLaunches ep))) ∧
    (∀ (ep port : Nat) b, ep < 2048 →
      let q := s.quiet.takeRx (.landing ep) p
      let d := b.desc k
      q.soundAt ep p → q.bankAt (.landing ep) h = some b → b.holdsDesc k = true → b.handleOwner k = h.part.toNat → (q.coll k).ended = false →
      q.gathered h = false → (memberIndex d ep).isSome = true → q.scrubbing ep (dOut d + h.addr.toNat) (64 * p.data.length) = false →
      q.permuteMiss ep (dOut d + h.addr.toNat) false p = none →
      Runs (.reduceResult (.landing ep) port p) s
        ((((q.tapBytes ep true h.src h.stream h.seq (unitBytes p.data)).memberResult k d ep h p.data).sendChunks k ep).startLaunches ep)) ∧
    (∀ (n port : Nat) b, let q := s.quiet.takeRx (.hall n) p
      q.sound (.hall n) p → q.bankAt (.hall n) h = some b → b.holdsDesc k = true → b.handleOwner k = h.part.toNat → (q.coll k).ended = false →
      q.gathered h = true → Runs (.reduceResult (.hall n) port p) s
        (q.haveResult (.hall n) k (launchOf h) (h.addr.toNat / 64) p.data (q.gatherStage h) h)) ∧
    (∀ ep : Nat, let q := s.quiet.takeRx (epUnit ep) p
      let d := q.desc k
      q.soundAt ep p → q.holdsDesc k = true → q.handleOwner k = h.part.toNat → h.length = 0#7 →
      (∀ f, q.toRootGroup h = false → h.mcast = 0#1 → ep = chipRoot d → q.filter ep h = (.apply, f) →
        Runs (.countExch ep p) s ((f.takeArrival k (lowRank h) (exchCount h) h).startLaunches ep)) ∧
      (q.toRootGroup h = false → chipOf h.src = q.chipNo → localOf h.src = chipRoot d → h.mcast = 1#1 ∨ ep ≠ chipRoot d →
        Runs (.countExch ep p) s ((q.memberGo k ep (exchCount h)).startLaunches ep)) ∧
      (∀ f, q.toRootGroup h = true → q.filter ep h = (.apply, f) →
        let a := f.ack ep h 0
        let b := a.onColl k (fun c => { c with
          rootCounts := c.rootCounts.filter (fun r => r.1 != lowRank h) ++ [(lowRank h, exchCount h)] })
        (ep ≠ chipRoot (f.desc k) → Runs (.countExch ep p) s (a.startLaunches ep)) ∧
        (ep = chipRoot (f.desc k) → (b.coll k).rootCounts.length ≠ chipCount (f.desc k) →
          Runs (.countExch ep p) s (b.startLaunches ep)))) ∧
    (∀ (u : UnitId) (port : Nat), isSwitch u = true →
      let q := s.quiet.takeRx u p
      q.sound u p →
      let n := h.aux.toNat % 2 ^ 16
      (q.grants u h = true → Runs (.reserveReq u port p) s
        (((q.bump 0x200101 (instOf u) 0 0 0 32 1).onSw u (fun w => { w with resvs := w.resvs ++
          [{ handle := k, part := h.part.toNat, entries := n, cross := localOf h.dst == 2051, form := collForm h }] })).makeAt u
            { answerHeader 0x24 2 h h.dst h.aux 0 with coll := h.coll } [])) ∧
      (q.grants u h = false → Runs (.reserveReq u port p) s
        ((q.bump 0x200101 (instOf u) 0 0 32 32 1).makeAt u { answerHeader 0x25 2 h h.dst h.aux 0 with coll := h.coll } [])) ∧
      Runs (.reserveRelease u port p) s (q.onSw u (fun w => { w with
        resvs := w.resvs.filter (fun r => !(r.handle == k && r.part == h.part.toNat && !r.cross))
        chunks := if w.resvs.any (fun r => r.handle == k && r.cross) then w.chunks else w.chunks.filter (fun c => c.handle != k) }))) ∧
    (∀ (ep x : Nat) o (c : Instr), c ∈ [.reserveGrant ep p, .reserveRefuse ep p] →
      let q := s.quiet.takeRx (epUnit ep) p
      q.sound (epUnit ep) p → q.openPacket ep h = some (x, o) → o.hdr.command = 0x23#8 →
      Runs c s (((q.onEntry ep x (fun en => { en with outst := en.outst.filter (fun y => y.hdr.seq != o.hdr.seq) })).onTile ep (fun t =>
        match t.launches.find k with
        | some y => { t with launches := t.launches.put k { y with asked := y.asked.filter (fun n => n != h.seq.setWidth 32) } }
        | none => t)).sendArrival k ep)) ∧
    (∀ ep : Nat, let q := s.quiet.takeRx (epUnit ep) p
      q.sound (epUnit ep) p → q.openPacket ep h = none → q.isSpanRoot k ep = true →
      (q.coll k).asked.any (fun a => a.1 == h.plane.toNat) = true →
      Runs (.reserveGrant ep p) s (q.hallAnswered k h.plane.toNat true) ∧ Runs (.reserveRefuse ep p) s (q.hallAnswered k h.plane.toNat false)) ∧
    (∀ (n r : Nat) (x : ReportRec), (s.sw (.stair n)).reports.find r = some x → x.expires ≤ s.now (.stair n) →
      let mask (l : List Nat) : Nat := l.foldl (fun a y => a + 2 ^ y) 0
      Runs (.mcastReportTimer n r) s ((s.quiet.onSw (.stair n) (fun w => { w with reports := w.reports.del r })).makeAt (.stair n)
        (answerHeader 0x12 2 x.hdr (BitVec.ofNat 24 (x.hdr.dst.toNat % 2 ^ 20)) (BitVec.ofNat 32 (1 * 2 ^ 29 + n * 2 ^ 17))
          (BitVec.ofNat 256 (mask x.delivered + mask x.fenced * 2 ^ 128))) []))

/-- The form across chips is settled once every hall has answered: ROUNDED where this chip or another fell back, EXACT otherwise;
nothing but the state of that collective changes (07 R193). -/
def Obligations.CrossChipForm : Prop :=
  ∀ (s : State) (h : Nat) (o : Bool), s.live → s.holdsDesc h = true → 1 < chipCount (s.desc h) → dOp (s.desc h) = 0 →
    (s.coll h).asked = [] →
    let x : Coll := { s.coll h with settled := if (s.coll h).fellBack || o then 1 else 0 }
    exec (.settleCrossChipForm h o) s = .next { s with outs := [], colls := s.colls.put h x }

/-! ## The fabric, scheduled and dynamic traffic (01, 03, 04) -/

/-- A slot of a unit, the arrival of a unit and of a credit word. At a slot boundary the island's counter advances; a switch that runs
absorbs, releases, routes and sends on every output port, and reports its credits; a landing decides its streams, a pavilion takes the units of
its line and of its cell, a special endpoint has its own work; an island that is stopped or in DOZE only counts. A unit that comes in time
waits in the alignment buffer for its release slot, and one that comes late is discarded and reported; a unit without its presence bit is
none. A credit word of even parity sets the returned count of its buffer, and one of odd parity is discarded, counted and reported. The load
of the fabric time sets the clock of its island to the value that K0 sent, once, and no other clock (01 R23, R26, R27; 02 R40; 04 R96;
15 R380). -/
def Obligations.FabricCommands : Prop :=
  ∀ (s : State) (u : UnitId) (port : Nat), s.live →
    (∀ x, s.loads.find (loadKey u) = some x → x.left.contains u.code = true → exec (.fabricTimeLoad u) s = .next { s with
      outs := [], clocks := s.clocks.put u.code x.value
      loads := if x.left.all (· == u.code) then s.loads.del (loadKey u)
        else s.loads.put (loadKey u) { x with left := x.left.filter (· != u.code) } }) ∧
    (∀ w, oddOnes 9 w.toNat = false → exec (.creditWord u port w) s =
      .next (s.quiet.onOut u port (fun p => { p with ret := p.ret.put (bitsAt w.toNat 6 3) (bitsAt w.toNat 1 5) }))) ∧
    (∀ w, oddOnes 9 w.toNat = true → Runs (.creditWord u port w) s
      (((s.quiet.count u port 4 1).event u port 0x09 1023 0 0 1).raise u 2 0x007 1023 (ctxLink port 1))) ∧
    (∀ f (hop : BitVec 10), let v := hop.toNat
      let at_ := hopDeparture hop (s.now u) + s.quiet.linkLatency u port
      let a : Aligned := { flit := f, release := at_, esc := v.testBit 8, bad := oddOnes 10 v, forced := v.testBit 1 }
      (v.testBit 9 = false → exec (.unitArrival u port f hop) s = .next s.quiet) ∧
      (v.testBit 9 = true → s.running u = true → s.now u < at_ → (s.inPort u port).align.length < 4 →
        exec (.unitArrival u port f hop) s = .next (s.quiet.onIn u port (fun p => { p with align := p.align ++ [a] }))) ∧
      (∀ h, v.testBit 9 = true → s.running u = true → at_ ≤ s.now u → s.quiet.packetOf u port a f at_ = some h →
        Runs (.unitArrival u port f hop) s (((s.quiet.event u port 0x0B h.part.toNat (vcOf h) 0 1).dropHeader u port 4 h).raise u 1 0x004
          h.part.toNat (ctxPacket port h)))) ∧
    (let t := (s.now u + 1) % 2 ^ 64
     let a : State := { s.quiet with clocks := s.clocks.put u.code (BitVec.ofNat 64 t) }
     let work (r : State) : State := (((r.liftService u t).reroute u t).sendFault u).sendMarks u
     let ports (here : List Present) (x : State) : State := (outPorts u).foldl (fun (y : State) o => y.portSlot u here o t) x
     let rest (x : State) : State := ((x.node u).ins.foldl (fun (y : State) kv =>
       if kv.2.align.length = 4 then y.event u kv.1 0x0C 1023 0 0 1 else y) x).sendCredits u t
     (u ≠ k0 → s.running u = false ∨ s.domState u = .doze → s.domState u ≠ .active ∨ isSwitch u = true →
       Runs (.slotBoundary u) s a.takeLate) ∧
     (isSwitch u = true → s.running u = true → s.domState u ≠ .doze →
       let r := (a.absorbSlot u).releaseAll u t
       Runs (.slotBoundary u) s (rest (((ports r.2 (work r.1)).unclaimed u r.2 t).quietPort u t)).takeLate) ∧
     (∀ l, u = .landing l → s.running u = true → s.domState u ≠ .doze →
       let r := a.releaseAll u t
       let b := (rest ((ports r.2 ((work r.1).decideStreams l t)).quietPort u t)).takeLate
       Runs (.slotBoundary u) s (if b.domState u = .active then b.arbiterSlot l else b)) ∧
     (∀ p, u = .pavilion p → s.running u = true → s.domState u ≠ .doze →
       let r := a.releaseAll u t
       let l := r.1.pavRelease p t
       Runs (.slotBoundary u) s (rest ((((outPorts u).filter (fun o => !l.2.contains o)).foldl (fun (y : State) o => y.portSlot u r.2 o t)
         ((work l.1).pavTakes p r.2 t)).quietPort u t)).takeLate) ∧
     (∀ e, u = .special e → e ≠ 2051 →
       let r := a.releaseAll u t
       let b := work r.1
       Runs (.slotBoundary u) s (rest ((ports r.2 (if e = 2060 then b.bvSlot t else b)).quietPort u t)).takeLate))

/-- The governors: a request asks for half rate for every partition that the island serves, and lowers its clock only where half rate
is in force for all of them; the condition that clears is timed, and after its time the request ends and full rate is asked for (01 R28;
03 R80, R83). -/
def Obligations.Governors : Prop :=
  ∀ (s : State) (u : UnitId), s.live →
    (∀ c, let a := s.quiet.onGov u (fun g => { g with request := true, cause := some c, clearSince := none })
      let q := a.changeRate (s.quiet.ownersIn u) 2 none
      Runs (.governorClockRequest u c) s (if (s.quiet.ownersIn u).all (fun p => (q.part p).rate == 2 || !(q.part p).run)
        then q.onGov u (fun g => { g with lowered := true }) else q)) ∧
    ((s.gov u).request = true → (s.gov u).clearSince = none →
      exec (.governorConditionClear u) s = .next (s.quiet.onGov u (fun g => { g with clearSince := some (s.now u) }))) ∧
    (s.quiet.governorClear u = true → Runs (.governorClearTimeout u) s
      ((s.quiet.onGov u (fun g => { g with request := false, cause := none, clearSince := none, lowered := false })).changeRate
        (s.quiet.ownersIn u) 0 none))

/-- The timers and events of scheduled traffic, where they are due. An attempt whose acknowledgement deadline passes joins the resend
queue, and after the third resend its stream fails. At the end of a frame the holds are raised, the next frame begins, and the streams
whose packets are settled close (that the holds come before the deadlines of the frame is the model's choice, log entry 139). A hold notice
that is late is counted and reported; the first of its frame is passed on and schedules the hold. A loaded plan image that fails a check is
refused with its code, and one that passes is staged for the session that asked for it (03 R61, R73, R76 to R78, R90). -/
def Obligations.ScheduledTraffic : Prop :=
  ∀ s : State, s.live →
    (∀ l e q o, s.quiet.overdue l e q = some o →
      (o.attempt < 3 → Runs (.schedAckDeadline l e q) s
        ((((s.quiet.onTile l (fun t => { t with resendQ := t.resendQ ++ [(e, o.hdr.seq)] })).onEntry l e (fun en => { en with
          outst := en.outst.map (fun x => if x.hdr.seq = o.hdr.seq then { x with attempt := x.attempt + 1, failed := true } else x) })).bump
            0x184003 0 o.hdr.part.toNat 0 0 64 1).startRead l
              { use := .stream e, hdr := o.hdr, base := o.localAddr, bytes := o.bytes, rows := [], kind := .resend })) ∧
      (3 ≤ o.attempt → Runs (.schedAckDeadline l e q) s (s.quiet.failStream l e o.hdr))) ∧
    (∀ p (f : BitVec 16), (s.part p).run = true → let n := s.quiet.noticeFrame p f
      (∀ l, s.partOf l = p → n ≤ (s.part p).frames → Runs (.holdNotice (.landing l) p f) s
        ((s.quiet.bump 0x184002 0 p 0 0 32 1).raise (.landing l) 1 0x025 p (ctxPacket 1 { unpackHeader 0 with seq := f }))) ∧
      (n ∉ (s.part p).noticed →
        let a := s.quiet.onPart p (fun x => { x with noticed := x.noticed.filter (fun g => x.frames ≤ g + 2 ^ 15) ++ [n] })
        (∀ l, s.partOf l = p → (s.part p).frames < n → Runs (.holdNotice (.landing l) p f) s ((a.spreadHold p f none).scheduleHold p n)) ∧
        (∀ q, Runs (.holdNotice (.pavilion q) p f) s ((a.spreadHold p f (some q)).scheduleHold p n))) ∧
      (n ∈ (s.part p).noticed → ∀ q, exec (.holdNotice (.pavilion q) p f) s = .next s.quiet)) ∧
    (∀ p q (f : BitVec 16), (s.part p).run = false → f.toNat ∉ (s.part p).noticed → Runs (.holdNotice (.pavilion q) p f) s
      ((s.quiet.onPart p (fun x => { x with noticed := x.noticed.drop (x.noticed.length - 2047) ++ [f.toNat] })).spreadHold p f (some q))) ∧
    (∀ p, s.quiet.frameEnded p = true →
      let a := (s.quiet.raiseHolds p).nextFrame p
      Runs (.frameBoundary p) s ((a.landingsOf p).foldl (fun b l => (b.tile l).txs.foldl (fun b x => b.tryClose l x.1) b) a)) ∧
    (∀ bs, s.plan.running = true → s.quiet.planBytes = some bs →
      let part := s.val 0x180003
      (s.plan.hostError = true → Runs .planImageCheck s (s.quiet.loadEnds part 9 0)) ∧
      (∀ c n q, s.plan.hostError = false → s.quiet.checkImage part bs = (.inr (c, n), q) → Runs .planImageCheck s (q.loadEnds part c n)) ∧
      (∀ i q, s.plan.hostError = false → s.quiet.checkImage part bs = (.inl i, q) →
        let a := i.writes.foldl (fun (b : State) w => b.stage b.plan.sess w.1 w.2.toNat) q
        Runs .planImageCheck s (({ a with plan := { a.plan with staged := some i, digest := i.digest } } : State).loadEnds part 4 0)))

/-- The timers of dynamic traffic, where they are due: a packet that has waited its time on the normal lane takes the back stair,
an initiator's deadline sends its packet again up to three times and then ends its transaction, the plane map is written without a failed
pavilion (and touches no chip of another plane), and a drain stops an endpoint or runs out of its time, refused with status 7, a PREPARE
answered CONFLICT (04 R101, R105, R111, R114, R115; that the time of a drain counts from its stop is log entry 143). -/
def Obligations.DynamicTraffic : Prop :=
  ∀ s : State, s.live →
    (∀ u i x, s.quiet.escaping u i = some x → Runs (.escapeThresholdExpiry u i) s
      (((s.quiet.onHeld u i (fun y => { y with lane := .escape, outs := [] })).event u ((x.outs.head?.map (·.port)).getD 0) 0x04
        x.hdr.part.toNat (vcOf x.hdr) 0 1).reroute u (s.now u))) ∧
    (∀ ep e q o, s.quiet.expired ep e q = some o →
      (o.hallDrop = true → o.nacked = false → Runs (.initiatorDeadline ep e q) s ((s.quiet.packetDone ep e o).startLaunches ep)) ∧
      (o.hallDrop = false → o.hdr.cls = 0#1 → o.closing = false →
        (o.attempt < 3 → Runs (.initiatorDeadline ep e q) s ((s.quiet.resend ep e o).startLaunches ep)) ∧
        (3 ≤ o.attempt → Runs (.initiatorDeadline ep e q) s ((s.quiet.endEntry ep e 6).startLaunches ep)))) ∧
    (∀ q, s.quiet.pavUp q = false → ∃ t, exec (.planeMapRewrite q) s = .next t ∧ t = { s with outs := [], dict := t.dict } ∧
      ∀ c, s.word 0x101004 0 c 0 ≠ q / 4 → t.word 0x101004 0 c 0 = s.word 0x101004 0 c 0) ∧
    (∀ u e, s.drain.st = 1 ∨ s.drain.st = 2 → epOf u = some e → (s.node u).drainStopped = false → s.drain.ts ≤ s.now u →
      let q := { s.quiet with drain := { s.drain with st := 2 } }.onNode u (fun n => { n with drainStopped := true })
      Runs (.drainStop u) s (((q.pauseDeadlines e).sendMarks u).answerMarks u)) ∧
    (s.quiet.drainLate = true →
      let d := s.drain
      let q := d.parts.foldl (fun (a : State) p => a.raise .chip 0 0x080 p (ctxMachine 0 d.number))
        (s.quiet.triggerSnapshot 1 (d.parts.headD 1023))
      let q := { q with drain := { d with st := 4, commit := none, prepare := none, coord := none } }.resumeAll
      (d.commit = none → d.prepare = none → Runs .drainTimeout s q.nextDrain) ∧
      (∀ a, d.commit = some a → a.own = false → d.prepare = none → Runs .drainTimeout s (q.commitAnswered a 7 0 0).nextDrain) ∧
      (∀ x, d.commit = none → d.prepare = some x → Runs .drainTimeout s (q.answerPrepare (recordFor x) 4).nextDrain))

/-! ## The pavilions and the machine (08) -/

/-- The cells of a pavilion: one is sent in the last slot of a cell time by a pavilion that sends cells, with its header, its records and
its report of credits; in LANE_SYNC a training block takes the place of two. A cell that has come is taken, and the short and long messages
of the cells are carried out: the report of credits, its request, GOING_DOWN, the request to retrain, and those of the training and of the time,
each once (08 R211, R213, R215, R219 to R221, R225, R237). -/
def Obligations.PavilionCells : Prop :=
  ∀ (s : State) (p : Nat), s.live →
    (s.now (.pavilion p) % 16 = 15 → sendsCells (s.pav p) = true →
      Runs (.cellTransmit p) s ((s.quiet.sendCell p (s.now (.pavilion p) - 15)).endGoingDown p (s.pav p).goingDown)) ∧
    (s.now (.pavilion p) % 32 = 31 → sendsCells (s.pav p) = false → (s.pav p).st = .laneSync →
      exec (.cellTransmit p) s = .next { s with outs := [.training p (Config.trainingBlock (s.now (.pavilion p) / 32))] }) ∧
    (∀ c : Cell, (s.pav p).st = .up ∨ (s.pav p).st = .upUnmapped ∨ (s.pav p).st = .exchange ∨ (s.pav p).st = .measure ∨
      (s.pav p).st = .check ∨ (s.pav p).st = .miscabled →
      let bits := (s.pav p).plainCell c
      let hdr : BitVec 256 := bits.extractLsb' 12544 256
      let cell := bitsAt hdr.toNat 232 16
      let n := bitsAt hdr.toNat 179 5
      c.firstBad = none → headerDamaged hdr none = false → n ≤ 22 →
      let q := (s.quiet.countFec p c).onPav p (fun v => { v with
        rxSecond := !v.rxSecond, lastCell := BitVec.ofNat 16 cell, badFrames := badRun v.badFrames cell (headerWrong hdr) })
      Runs (.cellFrame p c) s ((unpackBody (bits.extractLsb' 0 12544) n 0).foldl
        (fun a x => a.takeRecord p (cellStartOf (s.now (.pavilion p)) cell) x) ((q.takeCredits p hdr).takePlaces p hdr))) ∧
    (∀ w, Runs (.creditResyncReq p w) s ((s.quiet.tookShort p w).sendLong p 5 0)) ∧
    (∀ m, (s.pav p).seen = [] → (∀ b, b < 9 → (s.pav p).got.get 0 b < 4096) → ∃ t, exec (.creditResync p m) s = .next t ∧
      ∀ b, b < 9 → (t.pav p).got.get 0 b = bitsAt m.toNat (228 - 12 * b) 12 ∧
        (t.pav p).freed.get 0 b = ((s.pav p).freed.get 0 b + (bitsAt m.toNat (228 - 12 * b) 12 + 4096 - (s.pav p).got.get 0 b)) % 4096) ∧
    (∀ w, s.pavUp p = true → Runs (.goingDown p w) s
      (((s.quiet.tookShort p w).onPav p (fun v => { v with sawGoingDown := true })).retrain p false 0)) ∧
    (∀ w, s.pavUp p = true → Runs (.retrainReq p w) s ((s.quiet.tookShort p w).retrain p true 0)) ∧
    (∀ m, (s.pav p).seen = [] → Runs (.capability p m) s (((s.quiet.tookLong p m).seenBefore p (linkKey m)).2.takeCapability p m)) ∧
    (∀ m rx, (s.pav p).seen = [] → Runs (.beacon p m rx) s (((s.quiet.tookLong p m).seenBefore p (linkKey m)).2.takeBeacon p m rx)) ∧
    (∀ m, (s.pav p).seen = [] → Runs (.timeAnnounce p m) s (((s.quiet.tookLong p m).seenBefore p (linkKey m)).2.takeAnnounce p m))

/-- The training of a link: lane synchronisation leads to EXCHANGE; the loss of the receiver, too many corrected or bad frames lead a
pavilion that is up to its retrain, counted against the limit; the two time limits of the training lead to it uncounted; a round of
measurement stamps a beacon; sixteen rounds lead to the check (08 R225 to R229). -/
def Obligations.LinkTraining : Prop :=
  ∀ (s : State) (p : Nat), s.live →
    ((s.pav p).st = .laneSync → ∃ t, exec (.laneSyncAchieved p) s = .next t ∧ (t.pav p).st = .exchange ∧ (t.pav p).since = s.time ∧
      (t.pav p).retrainCells = 0 ∧ (t.pav p).badFrames = 0 ∧ ∀ k, k ≠ p → t.pav k = s.pav k) ∧
    (s.pavUp p = true → (∀ lane, Runs (.rxrdyFall p lane) s (s.quiet.retrain p true 0)) ∧
      (s.val 0x280103 < (s.pav p).badWords.length → Runs (.fecLimitExceeded p) s (s.quiet.retrain p true 0)) ∧
      (8 ≤ (s.pav p).badFrames → Runs (.syncLoss p) s (s.quiet.retrain p true 0))) ∧
    ((s.pav p).st = .laneSync → (s.pav p).since + 20000000 ≤ s.time → Runs (.trainingTimeout p) s (s.quiet.retrain p false 1)) ∧
    ((s.pav p).st = .exchange → (s.pav p).since + 200000 ≤ s.time → Runs (.trainingTimeout p) s (s.quiet.retrain p false 0)) ∧
    (∀ tx : BitVec 70, let beacon := tx.toNat * 2 ^ 170 + (s.pav p).peerTx.toNat * 2 ^ 100 + (s.pav p).peerRx.toNat * 2 ^ 30
      let announce := (s.mach.grand.getD 0xFFF) % 4096 * 2 ^ 228 + s.mach.grandSeq.toNat * 2 ^ 212 + s.mach.hops % 256 * 2 ^ 204 +
        timeCode s.mach.st * 2 ^ 201
      let q := s.quiet.onPav p (fun v => { v with roundAt := some (s.now (.pavilion p)) })
      ((s.pav p).st = .measure → s.pavUp p = false → (s.pav p).roundAt.all (fun t => t + 256 ≤ s.now (.pavilion p)) = true →
        Runs (.beaconRound p tx) s (q.sendLong p 1 beacon)) ∧
      ((s.pav p).st = .up → s.linked.head? ≠ some p → ((s.pav p).rounds + 1) % 64 ≠ 0 → (s.pav p).roundAt.all (fun t => t + 4096 ≤ s.now (.pavilion p)) = true →
        Runs (.beaconRound p tx) s (((q.sendLong p 1 beacon).sendLong p 2 announce).onPav p (fun v => { v with rounds := v.rounds + 1 })))) ∧
    ((s.pav p).st = .measure → 16 ≤ (s.pav p).rounds →
      let q := s.quiet.onPav p (fun v => { v with dRx := (v.dSum + 31) / 32, alarm := false })
      Runs (.measureComplete p) s ((q.sendTimeBeacon p (BitVec.ofNat 70 (s.now (.pavilion p) * 64))).enterCheck p))

/-- The limit of retrains: a pavilion that leaves UP and has used up its retrains of the last second fails, with reason 6 and its
transmitter idle; one that has not goes to LANE_SYNC and tells its peer in 8 cells; no other pavilion changes. On a chip without
partitions, for a pavilion that is not the parent and knows no peer chip (08 R226; the count is log entry 27). -/
def Obligations.RetrainLimit : Prop :=
  ∀ (s : State) (p reason : Nat), s.pavUp p = true → s.parts = [] → (s.pav p).peerChip = none → s.mach.parent ≠ some p →
    let n := ((s.pav p).retrains.filter (fun t => decide (s.time < t + 2000000000))).length
    let t := s.retrain p true reason
    (s.val 0x280104 < n + 1 → (t.pav p).st = .failed ∧ (t.pav p).reason = 6 ∧ (t.pav p).txIdle = true) ∧
    (n + 1 ≤ s.val 0x280104 → (t.pav p).st = .laneSync ∧ (t.pav p).reason = reason ∧ (t.pav p).retrainCells = 8) ∧
    (∀ k, k ≠ p → t.pav k = s.pav k)

/-- Commits across chips and lost chips: a PREPARE, CONFIRM or CANCEL that this chip has not seen is passed on to every other linked
pavilion and then taken, but for one of its own; the loss of a chip is reported once, and a second notice changes nothing but what
has been seen; the time states' limits (08 R220, R222, R233, R238; 09 R259, R260). -/
def Obligations.MachineEvents : Prop :=
  ∀ (s : State) (p : Nat) (m : BitVec 256), s.live → (∀ k, (s.pav k).seen = []) →
    (let r := recordOf m
     let q := ((s.quiet.tookLong p m).seenBefore p (3 * 2 ^ 40 + r.origin * 2 ^ 16 + r.seq.toNat)).2.flood (some p) 3 (m.toNat % 2 ^ 240)
     (s.fw.changing = none → r.origin ≠ q.chipNo → Runs (.commitPrepare p m) s (q.takePrepare r)) ∧
     (r.origin ≠ q.chipNo → Runs (.commitConfirm p m) s (q.takeConfirm r)) ∧
     (r.origin ≠ q.chipNo → Runs (.commitCancel p m) s (q.takeCancel r))) ∧
    (let key := 4 * 2 ^ 40 + bitsAt m.toNat 216 12 * 2 ^ 16 + bitsAt m.toNat 200 16
     Runs (.chipLost p m) s ((((s.quiet.tookLong p m).seenBefore p key).2.flood (some p) 4 (m.toNat % 2 ^ 240)).takeLost
       (bitsAt m.toNat 228 12))) ∧
    (s.mach.st ≠ .grand → 16 ≤ s.mach.staleRounds → Runs .grandChipLost s s.quiet.grandLost) ∧
    (s.mach.st = .holdover → s.mach.holdSince + s.val 0x280007 ≤ s.time →
      ∃ t, exec .holdoverTimeout s = .next t ∧ t.mach.st = .timeFault) ∧
    (∀ c, s.quiet.pavsTo c ≠ [] → (∀ k, k ∈ s.quiet.pavsTo c → s.pavUp k = false ∧ (s.pav k).downSince + s.val 0x280101 ≤ s.time) →
      Runs (.chipLossTimeout c) s (s.quiet.declareLost c))

/-- A chip is declared lost once: for a chip that is already known to be lost nothing changes (08 R238). -/
def Obligations.LostOnce : Prop :=
  ∀ (s : State) (c : Nat), (c ∈ s.mach.lost → s.takeLost c = s ∧ s.declareLost c = s) ∧ c ∈ (s.takeLost c).mach.lost

/-! ## Partitions and domains (10) -/

/-- The end of a partition at the units and the tiles that it ran on: the stop bit of a unit, the report of an aborted endpoint, the
time-out and the end of a scrub (10 R271, R273, R274; 05 R138). -/
def Obligations.PartitionEnding : Prop :=
  ∀ s : State, s.live →
    (∀ u q, (s.part q).stopped = true → q ∉ (s.node u).stop → Runs (.stopBitSet u q) s (s.quiet.stopAt u q)) ∧
    (∀ l, (s.tile l).aborted = true → (s.tile l).scrubTries = 0 → Runs (.abortedReport l) s (s.quiet.orderScrub l)) ∧
    (∀ l d, (s.tile l).scrubDue = some d → d ≤ s.time → Runs (.scrubTimeout l) s (s.quiet.scrubFailed l)) ∧
    (∀ l x, (s.tile l).scrub = some x → x.order = none → ∃ t, exec (.scrubComplete l) s = .next t ∧
      (t.tile l).scrub = none ∧ (t.tile l).scrubState = 2 ∧ (∀ k, k ≠ l → t.tile k = s.tile k) ∧
      (∀ a, x.base ≤ a → a < x.base + 64 * x.lines → padByte (t.tile l).scratch a = some 0#8) ∧
      (∀ a, a < x.base ∨ x.base + 64 * x.lines ≤ a → padByte (t.tile l).scratch a = padByte (s.tile l).scratch a))

/-- The power states of a domain: ACTIVE to DOZE when it has been idle for the doze delay and may; DOZE to ACTIVE when it is woken; GOING_DOWN to SLEEP
when it is idle or 8,000 slots are over; WAKING to REJOINING 40,000 slots after its power, with the fabric time sent to its units; and the
checks of the rejoining units: each that matches is noted, the last makes the domain ACTIVE, one that does not match makes all begin
again, and the third failure is reported. A failed ALU that passes its self-test waits for the epoch that reinstates it (10 R277, R280,
R282; 06 R173). -/
def Obligations.DomainStates : Prop :=
  ∀ (s : State) (u : UnitId) (d : Nat), s.live → domainOf u = some d →
    ((s.dom d).st = .active → s.val 0x041201 ≠ 0 → s.quiet.idleFor d (s.val 0x041201) = true → s.quiet.domainMay d 1 = true →
      exec (.dozeDelayExpiry u) s = .next (s.quiet.onDom d (fun x => { x with st := .doze, since := s.time }))) ∧
    ((s.dom d).st = .doze → exec (.dozeWake u) s = .next (s.quiet.onDom d (fun x => { x with st := .active, since := s.time }))) ∧
    ((s.dom d).st = .goingDown → s.quiet.domainIdle d = true ∨ (s.dom d).since + 8000 ≤ s.time →
      let left := ((rejoinUnits d).map s.quiet.unitHolds).sum
      let q := s.quiet.enterSleep d
      Runs (.goingDownEnd u) s (if left = 0 then q else q.bump 0x802004 (instOf (domainUnit d)) 0 0 0 16 left)) ∧
    ((s.dom d).st = .waking → (s.dom d).supplyReset = false → s.boot.progress = 3 → (s.dom d).poweredAt + 40000 ≤ s.time →
      ∃ t, exec (.wakingComplete u) s = .next t ∧ (t.dom d).st = .rejoining ∧ (t.dom d).attempts = 0 ∧
        (∀ k, k ≠ d → t.dom k = s.dom k) ∧ t = { s with outs := [], loads := t.loads, doms := t.doms } ∧
        t.loads.find d = some { value := BitVec.ofNat 64 s.time, left := (rejoinUnits d).map UnitId.code }) ∧
    (∀ g e, (s.dom d).st = .rejoining → (s.dom d).attempts < 3 → u ∈ rejoinUnits d → s.quiet.loadDue u = false →
      (s.dom d).epochAt = s.ctl.epoch →
      let m := if (s.dom d).matched.contains u.code then (s.dom d).matched else (s.dom d).matched ++ [u.code]
      let noted := s.quiet.onDom d (fun x => { x with matched := m })
      let again := s.quiet.onDom d (fun x => { x with attempts := x.attempts + 1, matched := [] })
      (g = s.quiet.tableDigest u → e = s.ctl.epoch → (∃ v, v ∈ rejoinUnits d ∧ v.code ∉ m) → Runs (.rejoinCheck u g e) s noted) ∧
      (g = s.quiet.tableDigest u → e = s.ctl.epoch → (∀ v, v ∈ rejoinUnits d → v.code ∈ m) →
        Runs (.rejoinCheck u g e) s (noted.domainActive d)) ∧
      (g ≠ s.quiet.tableDigest u ∨ e ≠ s.ctl.epoch →
        ((s.dom d).attempts < 2 → Runs (.rejoinCheck u g e) s again) ∧
        ((s.dom d).attempts = 2 → Runs (.rejoinCheck u g e) s (again.raise .chip 5 0x084 1023 (ctxMachine d 3))))) ∧
    ((s.sw u).alu = 2 →
      exec (.aluSelfTestComplete u true) s = .next (s.quiet.onSw u (fun w => { w with aluReady := true })) ∧
      Runs (.aluSelfTestComplete u false) s
        ((s.quiet.onSw u (fun w => { w with alu := 1, aluReady := false })).raise u 3 0x044 1023 (ctxColl 0 0)))

/-! ## Supply, temperature and power (10) -/

/-- The sensors of supply and temperature: a reading that crosses its limit for the first time has its effect, and one that has
stayed past the release for its time ends it; a reading that crosses nothing is only stored (10 R284 to R287; log entry 154). -/
def Obligations.SensorCommands : Prop :=
  ∀ (s : State), s.live →
    (∀ d r, let q := s.quiet.readSupply d r
      q = { s.quiet with lim := { s.lim with
        supply := s.lim.supply.put d r
        warnAt := if s.quiet.supplyOf r < s.val 0x041103 * 100 + 100 then s.lim.warnAt.put d s.time else s.lim.warnAt
        lowAt := if s.quiet.supplyOf r < s.val 0x041103 * 100 then s.lim.lowAt.put d s.time else s.lim.lowAt } } ∧
      (s.quiet.supplyOf r < s.val 0x041103 * 100 → s.lim.warn.contains d = false → Runs (.supplyWarning d r) s
        (({ q with lim := { q.lim with warn := s.lim.warn ++ [d] } }.stretch d true).raise (supplyUnit d) 12 0x0A0 1023 (ctxValue r))) ∧
      (s.val 0x041103 * 100 + 100 ≤ s.quiet.supplyOf r → s.lim.warnAt.get 0 d + 20000 ≤ s.time → s.lim.warn.contains d = true →
        Runs (.supplyWarningClear d r) s ({ q with lim := { q.lim with warn := s.lim.warn.filter (fun x => x != d) } }.stretch d false)) ∧
      (s.lim.warn.contains d = false ∨ s.time < s.lim.warnAt.get 0 d + 20000 → s.val 0x041103 * 100 + 100 ≤ s.quiet.supplyOf r →
        Runs (.supplyWarningClear d r) s q) ∧
      (140 ≤ d → s.quiet.supplyOf r < s.val 0x041104 * 100 → s.lim.reset.contains d = false → Runs (.supplyReset d r) s
        ({ q with lim := { q.lim with reset := s.lim.reset ++ [d] } }.raise .chip 12 0x0A2 1023 (ctxValue r))) ∧
      (s.val 0x041103 * 100 ≤ s.quiet.supplyOf r → s.lim.lowAt.get 0 d + 20000 ≤ s.time → s.lim.reset.contains d = true → d < 140 →
        (s.dom d).supplyReset = true → Runs (.supplyResetRelease d r) s
          (({ q with lim := { q.lim with reset := s.lim.reset.filter (fun x => x != d) } }.onDom d
            (fun x => { x with supplyReset := false })).enterRejoining d))) ∧
    (∀ i r, i < s.build.thermalInputs → let q := s.quiet.readThermal i r
      q = { s.quiet with lim := { s.lim with
        thermal := s.lim.thermal.put i r
        hotAt := if 16 * (s.val 0x041101 : Int) - 80 < s.quiet.thermalOf r then s.time else s.lim.hotAt } } ∧
      (16 * (s.val 0x041101 : Int) ≤ s.quiet.thermalOf r → s.lim.throttle = false →
        let a : State := { q with lim := { q.lim with throttle := true, stage := max s.lim.stage 2, above := 0, below := 0 } }
        Runs (.thermalThrottle i r) s ((a.changeRate a.heldParts 2 none).raise .chip 13 0x0A3 1023 (ctxValue (patternOf 16 r)))) ∧
      (16 * (s.val 0x041102 : Int) ≤ s.quiet.thermalOf r → s.lim.tripped = false →
        let on := s.quiet.linked
        let a := on.foldl (fun (s : State) p => s.onPav p (fun v => { v with goingDown := 8 })) { q with lim := { q.lim with tripped := true } }
        Runs (.thermalTrip i r) s ((a.doms.foldl (fun (s : State) x =>
          let s := s.onDom x.1 (fun y => { y with target := 2 })
          if x.2.st = .sleep then s
          else if on.any (fun p => 136 + p / 4 == x.1) then
            s.onDom x.1 (fun y => { y with st := .goingDown, since := s.time - 6000 })
          else s.enterSleep x.1) a).raise .chip 13 0x0A4 1023 (ctxValue (patternOf 16 r))))) ∧
    (s.lim.throttle = true → s.lim.hotAt + 20000000 ≤ s.time → s.quiet.coolTo (16 * (s.val 0x041101 : Int) - 80) = true →
      Runs .throttleEnd s { s.quiet with lim := { s.lim with throttle := false, below := 0 } }.returnRate)

/-- The power cap: the cap that the controller drives is taken within 100 to 240; the emergency holds at least stage 2 until it is
released; and each window estimates the power, a free value (log entry 30), and moves at most one stage: to stage 1 at once where the
estimate exceeds the cap, further up after four windows at a stage, to half rate with stage 3, and down after sixteen windows in a row
below nine tenths of the cap (10 R288, R289; 14 R366). -/
def Obligations.PowerLimits : Prop :=
  ∀ s : State, s.live →
    (∀ v, exec (.plCapChange v) s = .next { s with outs := [], lim := { s.lim with capCore := max 100 (min 240 v.toNat) } }) ∧
    (∃ t, exec .powerEmergency s = .next t ∧ t.lim.emergency = true ∧ 2 ≤ t.lim.stage ∧
      (2 ≤ s.lim.stage → t.lim.stage = s.lim.stage ∧ t.lim.above = s.lim.above) ∧ t = { s with outs := [], lim := t.lim }) ∧
    exec .powerEmergencyRelease s = .next { s with outs := [], lim := { s.lim with emergency := false } } ∧
    (let est := (Config.freeBits 10 s.free).toNat
     let q : State := { s.quiet with free := s.free + 1 }
     let low := if 10 * est ≤ 9 * q.capInForce then s.lim.below + 1 else 0
     (est ≤ q.capInForce → s.lim.stage = 0 → Runs .powerEstimateWindow s
       { q with lim := { s.lim with estimate := est, above := s.lim.above + 1, below := low, unmet := false } }) ∧
     (q.capInForce < est → s.lim.stage = 0 → Runs .powerEstimateWindow s
       { q with lim := { s.lim with estimate := est, above := 0, below := low, stage := 1 } }) ∧
     (q.capInForce < est → s.lim.stage = 1 → 3 ≤ s.lim.above → Runs .powerEstimateWindow s
       { q with lim := { s.lim with estimate := est, above := 0, below := low, stage := 2 } }) ∧
     (q.capInForce < est → s.lim.stage = 2 → 3 ≤ s.lim.above →
       let a : State := { q with lim := { s.lim with estimate := est, above := 0, below := low, stage := 3 } }
       Runs .powerEstimateWindow s (a.changeRate a.heldParts 2 none)) ∧
     (est ≤ q.capInForce → 1 ≤ s.lim.stage → low < 16 → Runs .powerEstimateWindow s
       { q with lim := { s.lim with estimate := est, above := s.lim.above + 1, below := low, unmet := false } }) ∧
     (est ≤ q.capInForce → 16 ≤ low → s.lim.stage = 1 ∨ s.lim.stage = 2 → s.quiet.leastStage < s.lim.stage → Runs .powerEstimateWindow s
       { q with lim := { s.lim with estimate := est, above := 0, below := 0, unmet := false, stage := s.lim.stage - 1 } }))

/-! ## Faults, firmware, the start-up and the observation (11, 13, 14) -/

/-- The timers of the fault sources, and the steps of K0's reactions: a suppression slot whose timer ends sends its count, a unit cut off
from the halls for 2,000 slots has its messages sent by its keeper, a force makes one occurrence each 16 slots, and K0 carries out the reaction at the head
step by step, a fatal one first (11 R295, R296, R301, R302, R305). -/
def Obligations.FaultEvents : Prop :=
  ∀ s : State, s.live →
    (∀ u n, s.quiet.slotDue u n = true → exec (.repeatTimerExpiry u n) s =
      .next (s.quiet.onSrc u (fun f => expireSlot f n (s.quiet.sourceTime u) (s.val 0x300201)))) ∧
    (∀ u, s.quiet.hallsCut u = true → (s.node u).joinedAt + 2000 ≤ s.time → (s.src u).outbox ≠ [] →
      let k := rescuer u
      let q := s.quiet.onSrc u (fun f => { f with
        outbox := [], slots := f.slots.map (fun (x : Nat × Slot) => (x.1, { x.2 with waiting := none })) })
      Runs (.outboxRescue u) s (((s.src u).outbox ++ (s.src u).slots.filterMap (fun x => x.2.waiting)).foldl (fun a m =>
        a.queueTx k .fresh (a.ownHeader 0x32 4 1023 (a.addrOf k) (a.addrOf 2050) 0 (m.setWidth 256)) [] 64) q)) ∧
    (∀ u f, (s.src u).force = some f → f.next ≤ s.quiet.sourceTime u →
      let g := if f.left ≤ 1 then none else some { f with left := f.left - 1, next := f.next + 16 }
      Runs (.forcedOccurrence u) s ((s.quiet.onSrc u (fun x => { x with force := g })).forceOnce u f)) ∧
    (s.fw.changing = none → s.react.st ≠ 3 →
      (∀ r rest, s.react.running = none → s.react.suspended = [] → s.react.queue = r :: rest → (∀ y, y ∈ s.react.queue → y.fatal = false) →
        let y := ({ s.quiet with react := { s.react with st := 1, running := some r, queue := rest } } : State).reactStep r
        Runs .reactionStep s (match y.2 with
          | some n => { y.1 with react := { y.1.react with running := some { r with step := n } } }
          | none => { y.1 with react := { y.1.react with running := none, st := if rest.isEmpty then 0 else 1 } })) ∧
      (∀ r, s.react.queue.find? (·.fatal) = some r →
        let n := (s.react.queue.filter (fun y => !y.fatal)).length + s.react.suspended.length + s.react.running.toList.length
        let y := ({ s.quiet with react := { s.react with
          st := 3, queue := [], suspended := [], running := some r, subsumed := s.react.subsumed + n } } : State).fatalStep 0
        Runs .reactionStep s { y.1 with react := { y.1.react with running := y.2.map (fun n => { r with step := n }) } }))

/-- The firmware and the driver: the end of a load, an activation that fails or is committed again, the loss of the driver and the end
of the time without one (12 R312, R316 to R318, R321, R322). -/
def Obligations.FirmwareEvents : Prop :=
  ∀ s : State, s.live →
    (∀ bs, s.fw.loading = true → s.quiet.firmwareBytes = some bs →
      let f := { s.fw with loading := false, host := [], hostError := false }
      (∀ c, (if s.fw.hostError then Sum.inr 8 else s.quiet.checkFirmware bs) = .inr c →
        exec .firmwareLoadComplete s = .next { s with outs := [], fw := { f with status := c } }) ∧
      (∀ i, (if s.fw.hostError then Sum.inr 8 else s.quiet.checkFirmware bs) = .inl i → s.fw.cold = false →
        exec .firmwareLoadComplete s = .next { s with outs := [], fw := { f with standby := some i, status := 3 } }) ∧
      (∀ i, (if s.fw.hostError then Sum.inr 8 else s.quiet.checkFirmware bs) = .inl i → s.fw.cold = true →
        Runs .firmwareLoadComplete s ({ s.quiet with fw := f }.coldStart i))) ∧
    (s.fw.changing.isSome = true → ∀ k, ∃ t, exec (.activationFailure k) s = .next t ∧ t.fw = { s.fw with changing := none, status := 6 }) ∧
    (s.fw.deferred = true → s.quiet.emergency = false → Runs .activationRecommit s
      ({ s.quiet with fw := { s.fw with status := 4, deferred := false } }.ownCommit [ownStaged 0x440008 0 0 0 1])) ∧
    (s.fw.st = .attached → s.fw.beatAt + s.val 0x043001 ≤ s.time → s.val 0x043003 ≠ 1 →
      exec .graceTimeExpiry s = .next { s with outs := [], fw := { s.fw with st := .hostless, hostlessAt := s.time } }) ∧
    (s.fw.st = .hostless → s.fw.hostlessAt + s.val 0x043002 ≤ s.time → ∃ t, exec .hostlessLimitExpiry s = .next t ∧
      t.fw.st = .ready ∧ t.lodge.bells = [])

/-- The observation: counters freeze, a source flushes its trace records, the Belvedere link goes up or down, and a snapshot is taken
and written (13 R335, R340, R341, R343, R345). -/
def Obligations.ObservationEvents : Prop :=
  ∀ s : State, s.live →
    (s.obs.ctrState = 1 → s.obs.freezeAt ≤ s.time →
      exec .counterFreeze s = .next { s with outs := [], obs := { s.obs with ctrState := 2, frozenAt := s.time } }) ∧
    (∀ u, s.quiet.traceDue u = true → s.quiet.running u = true →
      let o := s.obs.traces.get {} u.code
      let left : TraceOut := if o.lost = 0 then {} else { recs := [lossRecord u (s.now u) o.lost o.lostAt], since := s.now u }
      let q : State := { s.quiet with obs := { s.obs with traces := s.obs.traces.put u.code left } }
      (u.level = 2 ∨ u.level = 3 → s.quiet.streaming = false → Runs (.traceFlush u) s (o.recs.foldl (fun a r => a.traceTake u r) q)) ∧
      (u.level = 0 ∨ u.level = 1 ∨ u.level = 4 →
        let at_ (i : Nat) : Payload := (o.recs.getD i 0).setWidth 512
        let data := (List.range ((o.recs.length + 1) / 2)).map (fun i => at_ (2 * i) ||| (at_ (2 * i + 1) <<< 256))
        let src := match epOf u with | some e => q.addrOf e | none => q.addrOf 2060
        Runs (.traceFlush u) s
          (q.makeFrom u { q.ownHeader 0x33 4 1023 src (q.addrOf 2060) 0 0 with length := BitVec.ofNat 7 data.length } data))) ∧
    exec (.belvedereLinkChange true) s = .next { s with outs := [], obs := { s.obs with bvReady := true } } ∧
    (s.quiet.streaming = true → Runs (.belvedereLinkChange false) s
      ({ s.quiet with obs := { s.obs with bvReady := false, bvQueue := [], bvRun := 0 } }.bvLose s.obs.bvQueue.length)) ∧
    (s.obs.snap.st = 1 → s.obs.snap.ts ≤ s.time →
      let q := s.quiet.capture.writeArea
      let due := q.obs.notices.filter (fun (n : Nat × Nat) => n.2 ≤ q.time)
      let q := due.foldl (fun (s : State) n => s.endTimedOut n.1) q
      Runs .snapshotCapture s
        { q with obs := { q.obs with notices := q.obs.notices.filter (fun (n : Nat × Nat) => !decide (n.2 ≤ q.time)) } }) ∧
    (s.obs.snap.st = 2 → s.quiet.areaBusy = false → ∃ t, exec .snapshotWriteComplete s = .next t ∧ t.obs.snap = { s.obs.snap with st := 3 })

/-- The start-up and its end: a keeper memory or a gatehouse memory that fails its test is fatal, else the control side comes up with
the host link present and every domain powered, the fabric time on its way to their units; a domain that wakes takes the result of its
test; a request for the reset sends every linked pavilion down and is acknowledged, and is withdrawn (01 R26; 14 R351 to R353). -/
def Obligations.StartUp : Prop :=
  ∀ s : State, s.live →
    (s.boot.progress = 1 → Runs (.selfTestComplete 140 .pass) s s.quiet.controlUp ∧
      Runs (.selfTestComplete 140 (.keeperMemory true)) s (s.quiet.fatalAtStart 2049 0x0C1) ∧
      Runs (.selfTestComplete 140 (.keeperMemory false)) s (s.quiet.fatalAtStart 2051 0x0C1) ∧
      Runs (.selfTestComplete 140 .gatehouseMemory) s (s.quiet.fatalAtStart 2050 0x0C3)) ∧
    (s.boot.progress = 1 → ∃ t, exec (.selfTestComplete 140 .pass) s = .next t ∧ t.boot.progress = 2 ∧ t.boot.present = true ∧
      t.boot.inReset = false ∧ (∀ d, d ∈ s.domains → (t.dom d).st = .waking ∧
        t.loads.find d = some { value := BitVec.ofNat 64 s.time, left := (rejoinUnits d).map UnitId.code })) ∧
    (∀ d r, s.boot.progress = 3 → d ∈ s.domains → (s.dom d).st = .waking → (s.dom d).failed = false →
      (r = .pass → exec (.selfTestComplete d r) s = .next { s with
        outs := [], boot := { s.boot with selfTest := s.boot.selfTest.put d 0 } }) ∧
      (r = .bufferFailed → Runs (.selfTestComplete d r) s (s.quiet.failDomain d)) ∧
      (r = .combiningFailed → Runs (.selfTestComplete d r) s (s.quiet.failAlu d))) ∧
    (∃ t, exec .resetRequest s = .next t ∧ t.boot = { s.boot with requested := true, ackLow := true } ∧
      (∀ k, (t.pav k).goingDown = if k ∈ s.linked then 8 else (s.pav k).goingDown) ∧ t = { s with outs := [], boot := t.boot, pavs := t.pavs }) ∧
    (s.boot.requested = true → Runs .resetRequestWithdraw s ((List.range (s.instCount 5)).foldl (fun (s : State) p =>
      let s := (s.setWord 0x281001 (pavInst p) 0 0 0).onPav p (fun v => { v with goingDown := 0, txIdle := true })
      if (s.pav p).st = .disabled then s else s.leaveUp p .disabled)
      { s.quiet with boot := { s.boot with requested := false, ackLow := false } }))
end

