-- ==== Sys2Proof/Laws/FMap.lean ====
section
/-!
SUPPORT. Laws of the sparse tables: a read after a write, and the order of the keys.
-/
namespace Sys2Proof.FMap

variable {α : Type}

@[simp] theorem get_put_same (d : α) (m : FMap α) (k : Nat) (v : α) : get d (put m k v) k = v := by
  induction m with
  | nil => simp [put, get]
  | cons x m ih =>
    obtain ⟨k', v'⟩ := x
    simp only [put]
    split
    · simp [get]
    · split
      · simp [get]
      · simp [get, *]

theorem get_put_other (d : α) (m : FMap α) (k j : Nat) (v : α) (h : j ≠ k) : get d (put m k v) j = get d m j := by
  induction m with
  | nil => simp [put, get, Ne.symm h]
  | cons x m ih =>
    obtain ⟨k', v'⟩ := x
    simp only [put]
    split
    · simp [get, Ne.symm h]
    · split
      · rename_i h1 h2; subst h2; simp [get, Ne.symm h]
      · simp only [get]; split <;> simp [ih]

@[simp] theorem find_put_same (m : FMap α) (k : Nat) (v : α) : find (put m k v) k = some v := by
  induction m with
  | nil => simp [put, find]
  | cons x m ih =>
    obtain ⟨k', v'⟩ := x
    simp only [put]
    split
    · simp [find]
    · split
      · simp [find]
      · simp [find, *]

theorem find_put_other (m : FMap α) (k j : Nat) (v : α) (h : j ≠ k) : find (put m k v) j = find m j := by
  induction m with
  | nil => simp [put, find, Ne.symm h]
  | cons x m ih =>
    obtain ⟨k', v'⟩ := x
    simp only [put]
    split
    · simp [find, Ne.symm h]
    · split
      · rename_i h1 h2; subst h2; simp [find, Ne.symm h]
      · simp only [find]; split <;> simp [ih]

@[simp] theorem find_del_same (m : FMap α) (k : Nat) : find (del m k) k = none := by
  induction m with
  | nil => rfl
  | cons x m ih =>
    obtain ⟨k', v'⟩ := x
    simp only [del]
    split
    · exact ih
    · simp [find, *]

theorem find_del_other (m : FMap α) (k j : Nat) (h : j ≠ k) : find (del m k) j = find m j := by
  induction m with
  | nil => rfl
  | cons x m ih =>
    obtain ⟨k', v'⟩ := x
    simp only [del]
    split
    · rename_i h1; subst h1; simp [find, Ne.symm h, ih]
    · simp only [find]; split <;> simp [ih]

@[simp] theorem get_del_same (d : α) (m : FMap α) (k : Nat) : get d (del m k) k = d := by
  induction m with
  | nil => rfl
  | cons x m ih =>
    obtain ⟨k', v'⟩ := x
    simp only [del]
    split
    · exact ih
    · simp [get, *]

theorem get_del_other (d : α) (m : FMap α) (k j : Nat) (h : j ≠ k) : get d (del m k) j = get d m j := by
  induction m with
  | nil => rfl
  | cons x m ih =>
    obtain ⟨k', v'⟩ := x
    simp only [del]
    split
    · rename_i h1; subst h1; simp [get, Ne.symm h, ih]
    · simp only [get]; split <;> simp [ih]

@[simp] theorem get_modify_same (d : α) (m : FMap α) (k : Nat) (f : α → α) : get d (modify d m k f) k = f (get d m k) := by
  simp [modify]

theorem get_modify_other (d : α) (m : FMap α) (k j : Nat) (f : α → α) (h : j ≠ k) : get d (modify d m k f) j = get d m j := by
  simp [modify, get_put_other, h]

/-- A table that starts above a bound starts above any lower one. -/
theorem sortedFrom_weaken (m : FMap α) (a b : Nat) (h : a ≤ b) (hs : sortedFrom b m = true) : sortedFrom a m = true := by
  cases m with
  | nil => rfl
  | cons x m =>
    obtain ⟨k, v⟩ := x
    simp only [sortedFrom, Bool.and_eq_true, decide_eq_true_eq] at *
    exact ⟨Nat.le_trans h hs.1, hs.2⟩

theorem sortedFrom_put (m : FMap α) (lo k : Nat) (v : α) (hk : lo ≤ k) (hs : sortedFrom lo m = true) :
    sortedFrom lo (put m k v) = true := by
  induction m generalizing lo with
  | nil => simp [put, sortedFrom, hk]
  | cons x m ih =>
    obtain ⟨k', v'⟩ := x
    simp only [sortedFrom, Bool.and_eq_true, decide_eq_true_eq] at hs
    simp only [put]
    split
    · rename_i h1
      simp only [sortedFrom, Bool.and_eq_true, decide_eq_true_eq]
      exact ⟨hk, h1, hs.2⟩
    · split
      · rename_i h2; subst h2
        simp only [sortedFrom, Bool.and_eq_true, decide_eq_true_eq]
        exact ⟨hk, hs.2⟩
      · rename_i h1 h2
        simp only [sortedFrom, Bool.and_eq_true, decide_eq_true_eq]
        exact ⟨hs.1, ih (k' + 1) (by omega) hs.2⟩

theorem sortedFrom_del (m : FMap α) (lo k : Nat) (hs : sortedFrom lo m = true) : sortedFrom lo (del m k) = true := by
  induction m generalizing lo with
  | nil => rfl
  | cons x m ih =>
    obtain ⟨k', v'⟩ := x
    simp only [sortedFrom, Bool.and_eq_true, decide_eq_true_eq] at hs
    simp only [del]
    split
    · exact ih lo (sortedFrom_weaken m lo (k' + 1) (by omega) hs.2)
    · simp only [sortedFrom, Bool.and_eq_true, decide_eq_true_eq]
      exact ⟨hs.1, ih (k' + 1) hs.2⟩

theorem sorted_put (m : FMap α) (k : Nat) (v : α) (hs : sorted m = true) : sorted (put m k v) = true :=
  sortedFrom_put m 0 k v (Nat.zero_le k) hs

theorem sorted_del (m : FMap α) (k : Nat) (hs : sorted m = true) : sorted (del m k) = true := sortedFrom_del m 0 k hs

theorem sorted_modify (d : α) (m : FMap α) (k : Nat) (f : α → α) (hs : sorted m = true) : sorted (modify d m k f) = true :=
  sorted_put m k _ hs

/-- A property of every value of a table survives a write of a value that has it. -/
theorem all_put (p : Nat × α → Bool) (m : FMap α) (k : Nat) (v : α) (hv : p (k, v) = true) (hm : m.all p = true) :
    (put m k v).all p = true := by
  induction m with
  | nil => simp [put, hv]
  | cons x m ih =>
    obtain ⟨k', v'⟩ := x
    simp only [List.all_cons, Bool.and_eq_true] at hm
    simp only [put]
    split
    · simp [hv, hm.1, hm.2]
    · split
      · simp [hv, hm.2]
      · simp [hm.1, ih hm.2]

theorem all_del (p : Nat × α → Bool) (m : FMap α) (k : Nat) (hm : m.all p = true) : (del m k).all p = true := by
  induction m with
  | nil => rfl
  | cons x m ih =>
    obtain ⟨k', v'⟩ := x
    simp only [List.all_cons, Bool.and_eq_true] at hm
    simp only [del]
    split
    · exact ih hm.2
    · simp [hm.1, ih hm.2]

end Sys2Proof.FMap
end

