-- ==== Sys2Proof/Laws/Memory.lean ====
section
/-!
SUPPORT. Laws of the two addressed memories, lodge SRAM and the scratchpads: every operation keeps the canonical form, a read
after a write gives the byte written, and a write leaves every other address alone.
-/
namespace Sys2Proof.Machine

theorem sramPut_wf (m : Memory) (a : Nat) (b : Byte) (h : Memory.wf m = true) : Memory.wf (sramPut m a b) = true := by
  simp only [Memory.wf, Bool.and_eq_true] at *
  by_cases hb : b = 0#8
  · rw [sramPut, if_pos hb]
    exact ⟨FMap.sorted_del m a h.1, FMap.all_del _ m a h.2⟩
  · rw [sramPut, if_neg hb]
    exact ⟨FMap.sorted_put m a b h.1, FMap.all_put _ m a b (by simpa using hb) h.2⟩

theorem sramWrite_wf (m : Memory) (a : Nat) (bs : List Byte) (h : Memory.wf m = true) :
    Memory.wf (sramWrite m a bs) = true := by
  induction bs generalizing m a with
  | nil => exact h
  | cons b bs ih => exact ih (sramPut m a b) (a + 1) (sramPut_wf m a b h)

theorem padWrite_wf (m : Memory) (a : Nat) (bs : List Byte) (h : Memory.padWf m = true) :
    Memory.padWf (padWrite m a bs) = true := by
  induction bs generalizing m a with
  | nil => exact h
  | cons b bs ih => exact ih (FMap.put m a b) (a + 1) (FMap.sorted_put m a b h)

@[simp] theorem sramByte_sramPut_same (m : Memory) (a : Nat) (b : Byte) : sramByte (sramPut m a b) a = b := by
  unfold sramByte sramPut
  split
  · rename_i h; simp [h]
  · simp

theorem sramByte_sramPut_other (m : Memory) (a j : Nat) (b : Byte) (h : j ≠ a) : sramByte (sramPut m a b) j = sramByte m j := by
  unfold sramByte sramPut
  split
  · exact FMap.get_del_other _ m a j h
  · exact FMap.get_put_other _ m a j b h

theorem sramByte_sramWrite_outside (m : Memory) (a j : Nat) (bs : List Byte) (h : j < a ∨ a + bs.length ≤ j) :
    sramByte (sramWrite m a bs) j = sramByte m j := by
  induction bs generalizing m a with
  | nil => rfl
  | cons b bs ih =>
    simp only [List.length_cons] at h
    rw [sramWrite, ih (sramPut m a b) (a + 1) (by omega), sramByte_sramPut_other m a j b (by omega)]

theorem sramByte_sramWrite (m : Memory) (a i : Nat) (bs : List Byte) (h : i < bs.length) :
    sramByte (sramWrite m a bs) (a + i) = bs[i] := by
  induction bs generalizing m a i with
  | nil => simp at h
  | cons b bs ih =>
    cases i with
    | zero =>
      rw [sramWrite, Nat.add_zero, sramByte_sramWrite_outside _ _ _ _ (by omega)]
      simp
    | succ i =>
      have := ih (sramPut m a b) (a + 1) i (by simpa using h)
      rw [sramWrite, show a + (i + 1) = a + 1 + i by omega, this]
      simp

theorem padByte_padWrite_outside (m : Memory) (a j : Nat) (bs : List Byte) (h : j < a ∨ a + bs.length ≤ j) :
    padByte (padWrite m a bs) j = padByte m j := by
  induction bs generalizing m a with
  | nil => rfl
  | cons b bs ih =>
    simp only [List.length_cons] at h
    rw [padWrite, ih (FMap.put m a b) (a + 1) (by omega), padByte, padByte, FMap.find_put_other m a j b (by omega)]

theorem padByte_padWrite (m : Memory) (a i : Nat) (bs : List Byte) (h : i < bs.length) :
    padByte (padWrite m a bs) (a + i) = some bs[i] := by
  induction bs generalizing m a i with
  | nil => simp at h
  | cons b bs ih =>
    cases i with
    | zero =>
      rw [padWrite, Nat.add_zero, padByte_padWrite_outside _ _ _ _ (by omega)]
      simp [padByte]
    | succ i =>
      have := ih (FMap.put m a b) (a + 1) i (by simpa using h)
      rw [padWrite, show a + (i + 1) = a + 1 + i by omega, this]
      simp

theorem reset_sram_wf : Memory.wf State.reset.lodge.sram = true := rfl

end Sys2Proof.Machine
end

