-- ==== Sys2Proof/Laws/Run.lean ====
section
/-!
SUPPORT. What the frames of the commands do: a command of a block out of reset, a command with a guard, and the receipt of a packet
that passes its checks. A proof about a command cites these and does not unfold the frames.
-/
namespace Sys2Proof.Machine

/-- The frame leaves a state alone that keeps the queue, the build and the reset pin. -/
theorem State.framed_eq (s t : State) (h1 : t.pending = s.pending) (h2 : t.build = s.build) (h3 : t.boot.inReset = s.boot.inReset) :
    s.framed t = t := by
  obtain ⟨pending, outs, build⟩ := t
  simp only at h1 h2 h3
  subst h1 h2
  simp only [State.framed, ← h3]

/-- A command of a block out of reset acts on the state with nothing driven out. -/
theorem up_live (s : State) (f : State → State) (h : s.live) : up s f = .next (s.framed (f s.quiet)) := by
  simp only [up, State.quiet]
  rw [if_neg (by rw [h]; exact Bool.false_ne_true)]

/-- A command whose guard holds acts as one without a guard. -/
theorem upWhen_live (s : State) (g : State → Bool) (f : State → State) (h : s.live) (hg : g s.quiet = true) :
    upWhen s g f = .next (s.framed (f s.quiet)) := by
  simp only [upWhen, up_live _ _ h, hg, if_true]

/-- A command whose guard does not hold only drives nothing. -/
theorem upWhen_idle (s : State) (g : State → Bool) (f : State → State) (h : s.live) (hg : g s.quiet = false) :
    upWhen s g f = .next s.quiet := by
  simp only [upWhen, up_live _ _ h, hg]
  exact congrArg _ (s.framed_eq s.quiet rfl rfl rfl)

/-- How a command with the frame `up` runs. -/
theorem runs_up {c : Instr} {s t : State} {f : State → State} (h : s.live) (hc : exec c s = up s f) (ht : f s.quiet = t) : Runs c s t := by
  rw [Runs, hc, up_live s f h, ht]

/-- How a command with a guard runs. -/
theorem runs_when {c : Instr} {s t : State} {g : State → Bool} {f : State → State} (h : s.live) (hc : exec c s = upWhen s g f)
    (hg : g s.quiet = true) (ht : f s.quiet = t) : Runs c s t := by
  rw [Runs, hc, upWhen_live s g f h hg, ht]

/-- The receipt of a sound packet is what its command does. -/
theorem State.receiveOr_sound (s : State) (u : UnitId) (port : Nat) (p : Packet) (g f : State → State) (h : (s.takeRx u p).sound u p) :
    s.receiveOr u port p g f = f (s.takeRx u p) := by
  obtain ⟨h1, h2, h3, h4⟩ := h
  obtain ⟨b, hb⟩ := Option.isSome_iff_exists.mp h2
  simp only [State.receiveOr, h1, hb, h3, h4, Option.isSome_none, Option.isNone_some, Bool.false_eq_true, if_false]

/-- The same of a command whose failure leaves nothing behind. -/
theorem State.receive_sound (s : State) (u : UnitId) (port : Nat) (p : Packet) (f : State → State) (h : (s.takeRx u p).sound u p) :
    s.receive u port p f = f (s.takeRx u p) := s.receiveOr_sound u port p id f h

/-- An endpoint takes in a packet of a valid address, of a command that it serves and permits. -/
theorem State.takeIn_sound (s q : State) (e : Nat) (p : Packet) (f : State → State) (h : q.soundAt e p) : s.takeIn e p.hdr f = f s := by
  obtain ⟨-, h2, h3, h4⟩ := h
  simp only [State.takeIn, h2, h3, h4, Bool.not_true, Bool.false_eq_true, if_false]

/-- A packet that an endpoint takes in, from its receipt on. -/
theorem State.receive_takeIn (s : State) (e port : Nat) (p : Packet) (g f : State → State)
    (h : (s.takeRx (epUnit e) p).soundAt e p) :
    s.receiveOr (epUnit e) port p g (fun s => s.takeIn e p.hdr f) = f (s.takeRx (epUnit e) p) := by
  rw [State.receiveOr_sound _ _ _ _ _ _ h.1, State.takeIn_sound _ _ _ _ _ h]

end Sys2Proof.Machine
end

