-- ==== Sys2Proof/Laws/State.lean ====
section
/-!
SUPPORT. What the named updates of the state leave alone, field by field, and what they write.
-/
namespace Sys2Proof.Machine

@[simp] theorem State.onNode_pending (s : State) (u : UnitId) (f : Node → Node) : (s.onNode u f).pending = s.pending := rfl
@[simp] theorem State.onNode_outs (s : State) (u : UnitId) (f : Node → Node) : (s.onNode u f).outs = s.outs := rfl
@[simp] theorem State.onNode_build (s : State) (u : UnitId) (f : Node → Node) : (s.onNode u f).build = s.build := rfl
@[simp] theorem State.onNode_free (s : State) (u : UnitId) (f : Node → Node) : (s.onNode u f).free = s.free := rfl
@[simp] theorem State.onNode_boot (s : State) (u : UnitId) (f : Node → Node) : (s.onNode u f).boot = s.boot := rfl
@[simp] theorem State.onNode_clocks (s : State) (u : UnitId) (f : Node → Node) : (s.onNode u f).clocks = s.clocks := rfl
@[simp] theorem State.onNode_loads (s : State) (u : UnitId) (f : Node → Node) : (s.onNode u f).loads = s.loads := rfl
@[simp] theorem State.onNode_dict (s : State) (u : UnitId) (f : Node → Node) : (s.onNode u f).dict = s.dict := rfl
@[simp] theorem State.onNode_prev (s : State) (u : UnitId) (f : Node → Node) : (s.onNode u f).prev = s.prev := rfl
@[simp] theorem State.onNode_ctl (s : State) (u : UnitId) (f : Node → Node) : (s.onNode u f).ctl = s.ctl := rfl
@[simp] theorem State.onNode_parts (s : State) (u : UnitId) (f : Node → Node) : (s.onNode u f).parts = s.parts := rfl
@[simp] theorem State.onNode_eps (s : State) (u : UnitId) (f : Node → Node) : (s.onNode u f).eps = s.eps := rfl
@[simp] theorem State.onNode_tiles (s : State) (u : UnitId) (f : Node → Node) : (s.onNode u f).tiles = s.tiles := rfl
@[simp] theorem State.onNode_switches (s : State) (u : UnitId) (f : Node → Node) : (s.onNode u f).switches = s.switches := rfl
@[simp] theorem State.onNode_colls (s : State) (u : UnitId) (f : Node → Node) : (s.onNode u f).colls = s.colls := rfl
@[simp] theorem State.onNode_pavs (s : State) (u : UnitId) (f : Node → Node) : (s.onNode u f).pavs = s.pavs := rfl
@[simp] theorem State.onNode_mach (s : State) (u : UnitId) (f : Node → Node) : (s.onNode u f).mach = s.mach := rfl
@[simp] theorem State.onNode_drain (s : State) (u : UnitId) (f : Node → Node) : (s.onNode u f).drain = s.drain := rfl
@[simp] theorem State.onNode_plan (s : State) (u : UnitId) (f : Node → Node) : (s.onNode u f).plan = s.plan := rfl
@[simp] theorem State.onNode_doms (s : State) (u : UnitId) (f : Node → Node) : (s.onNode u f).doms = s.doms := rfl
@[simp] theorem State.onNode_lim (s : State) (u : UnitId) (f : Node → Node) : (s.onNode u f).lim = s.lim := rfl
@[simp] theorem State.onNode_govs (s : State) (u : UnitId) (f : Node → Node) : (s.onNode u f).govs = s.govs := rfl
@[simp] theorem State.onNode_srcs (s : State) (u : UnitId) (f : Node → Node) : (s.onNode u f).srcs = s.srcs := rfl
@[simp] theorem State.onNode_gate (s : State) (u : UnitId) (f : Node → Node) : (s.onNode u f).gate = s.gate := rfl
@[simp] theorem State.onNode_react (s : State) (u : UnitId) (f : Node → Node) : (s.onNode u f).react = s.react := rfl
@[simp] theorem State.onNode_fw (s : State) (u : UnitId) (f : Node → Node) : (s.onNode u f).fw = s.fw := rfl
@[simp] theorem State.onNode_lodge (s : State) (u : UnitId) (f : Node → Node) : (s.onNode u f).lodge = s.lodge := rfl
@[simp] theorem State.onNode_host (s : State) (u : UnitId) (f : Node → Node) : (s.onNode u f).host = s.host := rfl
@[simp] theorem State.onNode_obs (s : State) (u : UnitId) (f : Node → Node) : (s.onNode u f).obs = s.obs := rfl
@[simp] theorem State.onNode_mgmt (s : State) (u : UnitId) (f : Node → Node) : (s.onNode u f).mgmt = s.mgmt := rfl
@[simp] theorem State.onNode_tap (s : State) (u : UnitId) (f : Node → Node) : (s.onNode u f).tap = s.tap := rfl

@[simp] theorem State.onEp_pending (s : State) (n : Nat) (f : Endpoint → Endpoint) : (s.onEp n f).pending = s.pending := rfl
@[simp] theorem State.onEp_outs (s : State) (n : Nat) (f : Endpoint → Endpoint) : (s.onEp n f).outs = s.outs := rfl
@[simp] theorem State.onEp_build (s : State) (n : Nat) (f : Endpoint → Endpoint) : (s.onEp n f).build = s.build := rfl
@[simp] theorem State.onEp_free (s : State) (n : Nat) (f : Endpoint → Endpoint) : (s.onEp n f).free = s.free := rfl
@[simp] theorem State.onEp_boot (s : State) (n : Nat) (f : Endpoint → Endpoint) : (s.onEp n f).boot = s.boot := rfl
@[simp] theorem State.onEp_clocks (s : State) (n : Nat) (f : Endpoint → Endpoint) : (s.onEp n f).clocks = s.clocks := rfl
@[simp] theorem State.onEp_loads (s : State) (n : Nat) (f : Endpoint → Endpoint) : (s.onEp n f).loads = s.loads := rfl
@[simp] theorem State.onEp_dict (s : State) (n : Nat) (f : Endpoint → Endpoint) : (s.onEp n f).dict = s.dict := rfl
@[simp] theorem State.onEp_prev (s : State) (n : Nat) (f : Endpoint → Endpoint) : (s.onEp n f).prev = s.prev := rfl
@[simp] theorem State.onEp_ctl (s : State) (n : Nat) (f : Endpoint → Endpoint) : (s.onEp n f).ctl = s.ctl := rfl
@[simp] theorem State.onEp_parts (s : State) (n : Nat) (f : Endpoint → Endpoint) : (s.onEp n f).parts = s.parts := rfl
@[simp] theorem State.onEp_nodes (s : State) (n : Nat) (f : Endpoint → Endpoint) : (s.onEp n f).nodes = s.nodes := rfl
@[simp] theorem State.onEp_tiles (s : State) (n : Nat) (f : Endpoint → Endpoint) : (s.onEp n f).tiles = s.tiles := rfl
@[simp] theorem State.onEp_switches (s : State) (n : Nat) (f : Endpoint → Endpoint) : (s.onEp n f).switches = s.switches := rfl
@[simp] theorem State.onEp_colls (s : State) (n : Nat) (f : Endpoint → Endpoint) : (s.onEp n f).colls = s.colls := rfl
@[simp] theorem State.onEp_pavs (s : State) (n : Nat) (f : Endpoint → Endpoint) : (s.onEp n f).pavs = s.pavs := rfl
@[simp] theorem State.onEp_mach (s : State) (n : Nat) (f : Endpoint → Endpoint) : (s.onEp n f).mach = s.mach := rfl
@[simp] theorem State.onEp_drain (s : State) (n : Nat) (f : Endpoint → Endpoint) : (s.onEp n f).drain = s.drain := rfl
@[simp] theorem State.onEp_plan (s : State) (n : Nat) (f : Endpoint → Endpoint) : (s.onEp n f).plan = s.plan := rfl
@[simp] theorem State.onEp_doms (s : State) (n : Nat) (f : Endpoint → Endpoint) : (s.onEp n f).doms = s.doms := rfl
@[simp] theorem State.onEp_lim (s : State) (n : Nat) (f : Endpoint → Endpoint) : (s.onEp n f).lim = s.lim := rfl
@[simp] theorem State.onEp_govs (s : State) (n : Nat) (f : Endpoint → Endpoint) : (s.onEp n f).govs = s.govs := rfl
@[simp] theorem State.onEp_srcs (s : State) (n : Nat) (f : Endpoint → Endpoint) : (s.onEp n f).srcs = s.srcs := rfl
@[simp] theorem State.onEp_gate (s : State) (n : Nat) (f : Endpoint → Endpoint) : (s.onEp n f).gate = s.gate := rfl
@[simp] theorem State.onEp_react (s : State) (n : Nat) (f : Endpoint → Endpoint) : (s.onEp n f).react = s.react := rfl
@[simp] theorem State.onEp_fw (s : State) (n : Nat) (f : Endpoint → Endpoint) : (s.onEp n f).fw = s.fw := rfl
@[simp] theorem State.onEp_lodge (s : State) (n : Nat) (f : Endpoint → Endpoint) : (s.onEp n f).lodge = s.lodge := rfl
@[simp] theorem State.onEp_host (s : State) (n : Nat) (f : Endpoint → Endpoint) : (s.onEp n f).host = s.host := rfl
@[simp] theorem State.onEp_obs (s : State) (n : Nat) (f : Endpoint → Endpoint) : (s.onEp n f).obs = s.obs := rfl
@[simp] theorem State.onEp_mgmt (s : State) (n : Nat) (f : Endpoint → Endpoint) : (s.onEp n f).mgmt = s.mgmt := rfl
@[simp] theorem State.onEp_tap (s : State) (n : Nat) (f : Endpoint → Endpoint) : (s.onEp n f).tap = s.tap := rfl

@[simp] theorem State.onTile_pending (s : State) (l : Nat) (f : Tile → Tile) : (s.onTile l f).pending = s.pending := rfl
@[simp] theorem State.onTile_outs (s : State) (l : Nat) (f : Tile → Tile) : (s.onTile l f).outs = s.outs := rfl
@[simp] theorem State.onTile_build (s : State) (l : Nat) (f : Tile → Tile) : (s.onTile l f).build = s.build := rfl
@[simp] theorem State.onTile_free (s : State) (l : Nat) (f : Tile → Tile) : (s.onTile l f).free = s.free := rfl
@[simp] theorem State.onTile_boot (s : State) (l : Nat) (f : Tile → Tile) : (s.onTile l f).boot = s.boot := rfl
@[simp] theorem State.onTile_clocks (s : State) (l : Nat) (f : Tile → Tile) : (s.onTile l f).clocks = s.clocks := rfl
@[simp] theorem State.onTile_loads (s : State) (l : Nat) (f : Tile → Tile) : (s.onTile l f).loads = s.loads := rfl
@[simp] theorem State.onTile_dict (s : State) (l : Nat) (f : Tile → Tile) : (s.onTile l f).dict = s.dict := rfl
@[simp] theorem State.onTile_prev (s : State) (l : Nat) (f : Tile → Tile) : (s.onTile l f).prev = s.prev := rfl
@[simp] theorem State.onTile_ctl (s : State) (l : Nat) (f : Tile → Tile) : (s.onTile l f).ctl = s.ctl := rfl
@[simp] theorem State.onTile_parts (s : State) (l : Nat) (f : Tile → Tile) : (s.onTile l f).parts = s.parts := rfl
@[simp] theorem State.onTile_nodes (s : State) (l : Nat) (f : Tile → Tile) : (s.onTile l f).nodes = s.nodes := rfl
@[simp] theorem State.onTile_eps (s : State) (l : Nat) (f : Tile → Tile) : (s.onTile l f).eps = s.eps := rfl
@[simp] theorem State.onTile_switches (s : State) (l : Nat) (f : Tile → Tile) : (s.onTile l f).switches = s.switches := rfl
@[simp] theorem State.onTile_colls (s : State) (l : Nat) (f : Tile → Tile) : (s.onTile l f).colls = s.colls := rfl
@[simp] theorem State.onTile_pavs (s : State) (l : Nat) (f : Tile → Tile) : (s.onTile l f).pavs = s.pavs := rfl
@[simp] theorem State.onTile_mach (s : State) (l : Nat) (f : Tile → Tile) : (s.onTile l f).mach = s.mach := rfl
@[simp] theorem State.onTile_drain (s : State) (l : Nat) (f : Tile → Tile) : (s.onTile l f).drain = s.drain := rfl
@[simp] theorem State.onTile_plan (s : State) (l : Nat) (f : Tile → Tile) : (s.onTile l f).plan = s.plan := rfl
@[simp] theorem State.onTile_doms (s : State) (l : Nat) (f : Tile → Tile) : (s.onTile l f).doms = s.doms := rfl
@[simp] theorem State.onTile_lim (s : State) (l : Nat) (f : Tile → Tile) : (s.onTile l f).lim = s.lim := rfl
@[simp] theorem State.onTile_govs (s : State) (l : Nat) (f : Tile → Tile) : (s.onTile l f).govs = s.govs := rfl
@[simp] theorem State.onTile_srcs (s : State) (l : Nat) (f : Tile → Tile) : (s.onTile l f).srcs = s.srcs := rfl
@[simp] theorem State.onTile_gate (s : State) (l : Nat) (f : Tile → Tile) : (s.onTile l f).gate = s.gate := rfl
@[simp] theorem State.onTile_react (s : State) (l : Nat) (f : Tile → Tile) : (s.onTile l f).react = s.react := rfl
@[simp] theorem State.onTile_fw (s : State) (l : Nat) (f : Tile → Tile) : (s.onTile l f).fw = s.fw := rfl
@[simp] theorem State.onTile_lodge (s : State) (l : Nat) (f : Tile → Tile) : (s.onTile l f).lodge = s.lodge := rfl
@[simp] theorem State.onTile_host (s : State) (l : Nat) (f : Tile → Tile) : (s.onTile l f).host = s.host := rfl
@[simp] theorem State.onTile_obs (s : State) (l : Nat) (f : Tile → Tile) : (s.onTile l f).obs = s.obs := rfl
@[simp] theorem State.onTile_mgmt (s : State) (l : Nat) (f : Tile → Tile) : (s.onTile l f).mgmt = s.mgmt := rfl
@[simp] theorem State.onTile_tap (s : State) (l : Nat) (f : Tile → Tile) : (s.onTile l f).tap = s.tap := rfl

@[simp] theorem State.onSw_pending (s : State) (u : UnitId) (f : Switch → Switch) : (s.onSw u f).pending = s.pending := rfl
@[simp] theorem State.onSw_outs (s : State) (u : UnitId) (f : Switch → Switch) : (s.onSw u f).outs = s.outs := rfl
@[simp] theorem State.onSw_build (s : State) (u : UnitId) (f : Switch → Switch) : (s.onSw u f).build = s.build := rfl
@[simp] theorem State.onSw_free (s : State) (u : UnitId) (f : Switch → Switch) : (s.onSw u f).free = s.free := rfl
@[simp] theorem State.onSw_boot (s : State) (u : UnitId) (f : Switch → Switch) : (s.onSw u f).boot = s.boot := rfl
@[simp] theorem State.onSw_clocks (s : State) (u : UnitId) (f : Switch → Switch) : (s.onSw u f).clocks = s.clocks := rfl
@[simp] theorem State.onSw_loads (s : State) (u : UnitId) (f : Switch → Switch) : (s.onSw u f).loads = s.loads := rfl
@[simp] theorem State.onSw_dict (s : State) (u : UnitId) (f : Switch → Switch) : (s.onSw u f).dict = s.dict := rfl
@[simp] theorem State.onSw_prev (s : State) (u : UnitId) (f : Switch → Switch) : (s.onSw u f).prev = s.prev := rfl
@[simp] theorem State.onSw_ctl (s : State) (u : UnitId) (f : Switch → Switch) : (s.onSw u f).ctl = s.ctl := rfl
@[simp] theorem State.onSw_parts (s : State) (u : UnitId) (f : Switch → Switch) : (s.onSw u f).parts = s.parts := rfl
@[simp] theorem State.onSw_nodes (s : State) (u : UnitId) (f : Switch → Switch) : (s.onSw u f).nodes = s.nodes := rfl
@[simp] theorem State.onSw_eps (s : State) (u : UnitId) (f : Switch → Switch) : (s.onSw u f).eps = s.eps := rfl
@[simp] theorem State.onSw_tiles (s : State) (u : UnitId) (f : Switch → Switch) : (s.onSw u f).tiles = s.tiles := rfl
@[simp] theorem State.onSw_colls (s : State) (u : UnitId) (f : Switch → Switch) : (s.onSw u f).colls = s.colls := rfl
@[simp] theorem State.onSw_pavs (s : State) (u : UnitId) (f : Switch → Switch) : (s.onSw u f).pavs = s.pavs := rfl
@[simp] theorem State.onSw_mach (s : State) (u : UnitId) (f : Switch → Switch) : (s.onSw u f).mach = s.mach := rfl
@[simp] theorem State.onSw_drain (s : State) (u : UnitId) (f : Switch → Switch) : (s.onSw u f).drain = s.drain := rfl
@[simp] theorem State.onSw_plan (s : State) (u : UnitId) (f : Switch → Switch) : (s.onSw u f).plan = s.plan := rfl
@[simp] theorem State.onSw_doms (s : State) (u : UnitId) (f : Switch → Switch) : (s.onSw u f).doms = s.doms := rfl
@[simp] theorem State.onSw_lim (s : State) (u : UnitId) (f : Switch → Switch) : (s.onSw u f).lim = s.lim := rfl
@[simp] theorem State.onSw_govs (s : State) (u : UnitId) (f : Switch → Switch) : (s.onSw u f).govs = s.govs := rfl
@[simp] theorem State.onSw_srcs (s : State) (u : UnitId) (f : Switch → Switch) : (s.onSw u f).srcs = s.srcs := rfl
@[simp] theorem State.onSw_gate (s : State) (u : UnitId) (f : Switch → Switch) : (s.onSw u f).gate = s.gate := rfl
@[simp] theorem State.onSw_react (s : State) (u : UnitId) (f : Switch → Switch) : (s.onSw u f).react = s.react := rfl
@[simp] theorem State.onSw_fw (s : State) (u : UnitId) (f : Switch → Switch) : (s.onSw u f).fw = s.fw := rfl
@[simp] theorem State.onSw_lodge (s : State) (u : UnitId) (f : Switch → Switch) : (s.onSw u f).lodge = s.lodge := rfl
@[simp] theorem State.onSw_host (s : State) (u : UnitId) (f : Switch → Switch) : (s.onSw u f).host = s.host := rfl
@[simp] theorem State.onSw_obs (s : State) (u : UnitId) (f : Switch → Switch) : (s.onSw u f).obs = s.obs := rfl
@[simp] theorem State.onSw_mgmt (s : State) (u : UnitId) (f : Switch → Switch) : (s.onSw u f).mgmt = s.mgmt := rfl
@[simp] theorem State.onSw_tap (s : State) (u : UnitId) (f : Switch → Switch) : (s.onSw u f).tap = s.tap := rfl

@[simp] theorem State.onPart_pending (s : State) (p : Nat) (f : Partition → Partition) : (s.onPart p f).pending = s.pending := rfl
@[simp] theorem State.onPart_outs (s : State) (p : Nat) (f : Partition → Partition) : (s.onPart p f).outs = s.outs := rfl
@[simp] theorem State.onPart_build (s : State) (p : Nat) (f : Partition → Partition) : (s.onPart p f).build = s.build := rfl
@[simp] theorem State.onPart_free (s : State) (p : Nat) (f : Partition → Partition) : (s.onPart p f).free = s.free := rfl
@[simp] theorem State.onPart_boot (s : State) (p : Nat) (f : Partition → Partition) : (s.onPart p f).boot = s.boot := rfl
@[simp] theorem State.onPart_clocks (s : State) (p : Nat) (f : Partition → Partition) : (s.onPart p f).clocks = s.clocks := rfl
@[simp] theorem State.onPart_loads (s : State) (p : Nat) (f : Partition → Partition) : (s.onPart p f).loads = s.loads := rfl
@[simp] theorem State.onPart_dict (s : State) (p : Nat) (f : Partition → Partition) : (s.onPart p f).dict = s.dict := rfl
@[simp] theorem State.onPart_prev (s : State) (p : Nat) (f : Partition → Partition) : (s.onPart p f).prev = s.prev := rfl
@[simp] theorem State.onPart_ctl (s : State) (p : Nat) (f : Partition → Partition) : (s.onPart p f).ctl = s.ctl := rfl
@[simp] theorem State.onPart_nodes (s : State) (p : Nat) (f : Partition → Partition) : (s.onPart p f).nodes = s.nodes := rfl
@[simp] theorem State.onPart_eps (s : State) (p : Nat) (f : Partition → Partition) : (s.onPart p f).eps = s.eps := rfl
@[simp] theorem State.onPart_tiles (s : State) (p : Nat) (f : Partition → Partition) : (s.onPart p f).tiles = s.tiles := rfl
@[simp] theorem State.onPart_switches (s : State) (p : Nat) (f : Partition → Partition) : (s.onPart p f).switches = s.switches := rfl
@[simp] theorem State.onPart_colls (s : State) (p : Nat) (f : Partition → Partition) : (s.onPart p f).colls = s.colls := rfl
@[simp] theorem State.onPart_pavs (s : State) (p : Nat) (f : Partition → Partition) : (s.onPart p f).pavs = s.pavs := rfl
@[simp] theorem State.onPart_mach (s : State) (p : Nat) (f : Partition → Partition) : (s.onPart p f).mach = s.mach := rfl
@[simp] theorem State.onPart_drain (s : State) (p : Nat) (f : Partition → Partition) : (s.onPart p f).drain = s.drain := rfl
@[simp] theorem State.onPart_plan (s : State) (p : Nat) (f : Partition → Partition) : (s.onPart p f).plan = s.plan := rfl
@[simp] theorem State.onPart_doms (s : State) (p : Nat) (f : Partition → Partition) : (s.onPart p f).doms = s.doms := rfl
@[simp] theorem State.onPart_lim (s : State) (p : Nat) (f : Partition → Partition) : (s.onPart p f).lim = s.lim := rfl
@[simp] theorem State.onPart_govs (s : State) (p : Nat) (f : Partition → Partition) : (s.onPart p f).govs = s.govs := rfl
@[simp] theorem State.onPart_srcs (s : State) (p : Nat) (f : Partition → Partition) : (s.onPart p f).srcs = s.srcs := rfl
@[simp] theorem State.onPart_gate (s : State) (p : Nat) (f : Partition → Partition) : (s.onPart p f).gate = s.gate := rfl
@[simp] theorem State.onPart_react (s : State) (p : Nat) (f : Partition → Partition) : (s.onPart p f).react = s.react := rfl
@[simp] theorem State.onPart_fw (s : State) (p : Nat) (f : Partition → Partition) : (s.onPart p f).fw = s.fw := rfl
@[simp] theorem State.onPart_lodge (s : State) (p : Nat) (f : Partition → Partition) : (s.onPart p f).lodge = s.lodge := rfl
@[simp] theorem State.onPart_host (s : State) (p : Nat) (f : Partition → Partition) : (s.onPart p f).host = s.host := rfl
@[simp] theorem State.onPart_obs (s : State) (p : Nat) (f : Partition → Partition) : (s.onPart p f).obs = s.obs := rfl
@[simp] theorem State.onPart_mgmt (s : State) (p : Nat) (f : Partition → Partition) : (s.onPart p f).mgmt = s.mgmt := rfl
@[simp] theorem State.onPart_tap (s : State) (p : Nat) (f : Partition → Partition) : (s.onPart p f).tap = s.tap := rfl

@[simp] theorem State.onColl_pending (s : State) (h : Nat) (f : Coll → Coll) : (s.onColl h f).pending = s.pending := rfl
@[simp] theorem State.onColl_outs (s : State) (h : Nat) (f : Coll → Coll) : (s.onColl h f).outs = s.outs := rfl
@[simp] theorem State.onColl_build (s : State) (h : Nat) (f : Coll → Coll) : (s.onColl h f).build = s.build := rfl
@[simp] theorem State.onColl_free (s : State) (h : Nat) (f : Coll → Coll) : (s.onColl h f).free = s.free := rfl
@[simp] theorem State.onColl_boot (s : State) (h : Nat) (f : Coll → Coll) : (s.onColl h f).boot = s.boot := rfl
@[simp] theorem State.onColl_clocks (s : State) (h : Nat) (f : Coll → Coll) : (s.onColl h f).clocks = s.clocks := rfl
@[simp] theorem State.onColl_loads (s : State) (h : Nat) (f : Coll → Coll) : (s.onColl h f).loads = s.loads := rfl
@[simp] theorem State.onColl_dict (s : State) (h : Nat) (f : Coll → Coll) : (s.onColl h f).dict = s.dict := rfl
@[simp] theorem State.onColl_prev (s : State) (h : Nat) (f : Coll → Coll) : (s.onColl h f).prev = s.prev := rfl
@[simp] theorem State.onColl_ctl (s : State) (h : Nat) (f : Coll → Coll) : (s.onColl h f).ctl = s.ctl := rfl
@[simp] theorem State.onColl_parts (s : State) (h : Nat) (f : Coll → Coll) : (s.onColl h f).parts = s.parts := rfl
@[simp] theorem State.onColl_nodes (s : State) (h : Nat) (f : Coll → Coll) : (s.onColl h f).nodes = s.nodes := rfl
@[simp] theorem State.onColl_eps (s : State) (h : Nat) (f : Coll → Coll) : (s.onColl h f).eps = s.eps := rfl
@[simp] theorem State.onColl_tiles (s : State) (h : Nat) (f : Coll → Coll) : (s.onColl h f).tiles = s.tiles := rfl
@[simp] theorem State.onColl_switches (s : State) (h : Nat) (f : Coll → Coll) : (s.onColl h f).switches = s.switches := rfl
@[simp] theorem State.onColl_pavs (s : State) (h : Nat) (f : Coll → Coll) : (s.onColl h f).pavs = s.pavs := rfl
@[simp] theorem State.onColl_mach (s : State) (h : Nat) (f : Coll → Coll) : (s.onColl h f).mach = s.mach := rfl
@[simp] theorem State.onColl_drain (s : State) (h : Nat) (f : Coll → Coll) : (s.onColl h f).drain = s.drain := rfl
@[simp] theorem State.onColl_plan (s : State) (h : Nat) (f : Coll → Coll) : (s.onColl h f).plan = s.plan := rfl
@[simp] theorem State.onColl_doms (s : State) (h : Nat) (f : Coll → Coll) : (s.onColl h f).doms = s.doms := rfl
@[simp] theorem State.onColl_lim (s : State) (h : Nat) (f : Coll → Coll) : (s.onColl h f).lim = s.lim := rfl
@[simp] theorem State.onColl_govs (s : State) (h : Nat) (f : Coll → Coll) : (s.onColl h f).govs = s.govs := rfl
@[simp] theorem State.onColl_srcs (s : State) (h : Nat) (f : Coll → Coll) : (s.onColl h f).srcs = s.srcs := rfl
@[simp] theorem State.onColl_gate (s : State) (h : Nat) (f : Coll → Coll) : (s.onColl h f).gate = s.gate := rfl
@[simp] theorem State.onColl_react (s : State) (h : Nat) (f : Coll → Coll) : (s.onColl h f).react = s.react := rfl
@[simp] theorem State.onColl_fw (s : State) (h : Nat) (f : Coll → Coll) : (s.onColl h f).fw = s.fw := rfl
@[simp] theorem State.onColl_lodge (s : State) (h : Nat) (f : Coll → Coll) : (s.onColl h f).lodge = s.lodge := rfl
@[simp] theorem State.onColl_host (s : State) (h : Nat) (f : Coll → Coll) : (s.onColl h f).host = s.host := rfl
@[simp] theorem State.onColl_obs (s : State) (h : Nat) (f : Coll → Coll) : (s.onColl h f).obs = s.obs := rfl
@[simp] theorem State.onColl_mgmt (s : State) (h : Nat) (f : Coll → Coll) : (s.onColl h f).mgmt = s.mgmt := rfl
@[simp] theorem State.onColl_tap (s : State) (h : Nat) (f : Coll → Coll) : (s.onColl h f).tap = s.tap := rfl

@[simp] theorem State.onPav_pending (s : State) (p : Nat) (f : Pavilion → Pavilion) : (s.onPav p f).pending = s.pending := rfl
@[simp] theorem State.onPav_outs (s : State) (p : Nat) (f : Pavilion → Pavilion) : (s.onPav p f).outs = s.outs := rfl
@[simp] theorem State.onPav_build (s : State) (p : Nat) (f : Pavilion → Pavilion) : (s.onPav p f).build = s.build := rfl
@[simp] theorem State.onPav_free (s : State) (p : Nat) (f : Pavilion → Pavilion) : (s.onPav p f).free = s.free := rfl
@[simp] theorem State.onPav_boot (s : State) (p : Nat) (f : Pavilion → Pavilion) : (s.onPav p f).boot = s.boot := rfl
@[simp] theorem State.onPav_clocks (s : State) (p : Nat) (f : Pavilion → Pavilion) : (s.onPav p f).clocks = s.clocks := rfl
@[simp] theorem State.onPav_loads (s : State) (p : Nat) (f : Pavilion → Pavilion) : (s.onPav p f).loads = s.loads := rfl
@[simp] theorem State.onPav_dict (s : State) (p : Nat) (f : Pavilion → Pavilion) : (s.onPav p f).dict = s.dict := rfl
@[simp] theorem State.onPav_prev (s : State) (p : Nat) (f : Pavilion → Pavilion) : (s.onPav p f).prev = s.prev := rfl
@[simp] theorem State.onPav_ctl (s : State) (p : Nat) (f : Pavilion → Pavilion) : (s.onPav p f).ctl = s.ctl := rfl
@[simp] theorem State.onPav_parts (s : State) (p : Nat) (f : Pavilion → Pavilion) : (s.onPav p f).parts = s.parts := rfl
@[simp] theorem State.onPav_nodes (s : State) (p : Nat) (f : Pavilion → Pavilion) : (s.onPav p f).nodes = s.nodes := rfl
@[simp] theorem State.onPav_eps (s : State) (p : Nat) (f : Pavilion → Pavilion) : (s.onPav p f).eps = s.eps := rfl
@[simp] theorem State.onPav_tiles (s : State) (p : Nat) (f : Pavilion → Pavilion) : (s.onPav p f).tiles = s.tiles := rfl
@[simp] theorem State.onPav_switches (s : State) (p : Nat) (f : Pavilion → Pavilion) : (s.onPav p f).switches = s.switches := rfl
@[simp] theorem State.onPav_colls (s : State) (p : Nat) (f : Pavilion → Pavilion) : (s.onPav p f).colls = s.colls := rfl
@[simp] theorem State.onPav_mach (s : State) (p : Nat) (f : Pavilion → Pavilion) : (s.onPav p f).mach = s.mach := rfl
@[simp] theorem State.onPav_drain (s : State) (p : Nat) (f : Pavilion → Pavilion) : (s.onPav p f).drain = s.drain := rfl
@[simp] theorem State.onPav_plan (s : State) (p : Nat) (f : Pavilion → Pavilion) : (s.onPav p f).plan = s.plan := rfl
@[simp] theorem State.onPav_doms (s : State) (p : Nat) (f : Pavilion → Pavilion) : (s.onPav p f).doms = s.doms := rfl
@[simp] theorem State.onPav_lim (s : State) (p : Nat) (f : Pavilion → Pavilion) : (s.onPav p f).lim = s.lim := rfl
@[simp] theorem State.onPav_govs (s : State) (p : Nat) (f : Pavilion → Pavilion) : (s.onPav p f).govs = s.govs := rfl
@[simp] theorem State.onPav_srcs (s : State) (p : Nat) (f : Pavilion → Pavilion) : (s.onPav p f).srcs = s.srcs := rfl
@[simp] theorem State.onPav_gate (s : State) (p : Nat) (f : Pavilion → Pavilion) : (s.onPav p f).gate = s.gate := rfl
@[simp] theorem State.onPav_react (s : State) (p : Nat) (f : Pavilion → Pavilion) : (s.onPav p f).react = s.react := rfl
@[simp] theorem State.onPav_fw (s : State) (p : Nat) (f : Pavilion → Pavilion) : (s.onPav p f).fw = s.fw := rfl
@[simp] theorem State.onPav_lodge (s : State) (p : Nat) (f : Pavilion → Pavilion) : (s.onPav p f).lodge = s.lodge := rfl
@[simp] theorem State.onPav_host (s : State) (p : Nat) (f : Pavilion → Pavilion) : (s.onPav p f).host = s.host := rfl
@[simp] theorem State.onPav_obs (s : State) (p : Nat) (f : Pavilion → Pavilion) : (s.onPav p f).obs = s.obs := rfl
@[simp] theorem State.onPav_mgmt (s : State) (p : Nat) (f : Pavilion → Pavilion) : (s.onPav p f).mgmt = s.mgmt := rfl
@[simp] theorem State.onPav_tap (s : State) (p : Nat) (f : Pavilion → Pavilion) : (s.onPav p f).tap = s.tap := rfl

@[simp] theorem State.onDom_pending (s : State) (d : Nat) (f : Domain → Domain) : (s.onDom d f).pending = s.pending := rfl
@[simp] theorem State.onDom_outs (s : State) (d : Nat) (f : Domain → Domain) : (s.onDom d f).outs = s.outs := rfl
@[simp] theorem State.onDom_build (s : State) (d : Nat) (f : Domain → Domain) : (s.onDom d f).build = s.build := rfl
@[simp] theorem State.onDom_free (s : State) (d : Nat) (f : Domain → Domain) : (s.onDom d f).free = s.free := rfl
@[simp] theorem State.onDom_boot (s : State) (d : Nat) (f : Domain → Domain) : (s.onDom d f).boot = s.boot := rfl
@[simp] theorem State.onDom_clocks (s : State) (d : Nat) (f : Domain → Domain) : (s.onDom d f).clocks = s.clocks := rfl
@[simp] theorem State.onDom_loads (s : State) (d : Nat) (f : Domain → Domain) : (s.onDom d f).loads = s.loads := rfl
@[simp] theorem State.onDom_dict (s : State) (d : Nat) (f : Domain → Domain) : (s.onDom d f).dict = s.dict := rfl
@[simp] theorem State.onDom_prev (s : State) (d : Nat) (f : Domain → Domain) : (s.onDom d f).prev = s.prev := rfl
@[simp] theorem State.onDom_ctl (s : State) (d : Nat) (f : Domain → Domain) : (s.onDom d f).ctl = s.ctl := rfl
@[simp] theorem State.onDom_parts (s : State) (d : Nat) (f : Domain → Domain) : (s.onDom d f).parts = s.parts := rfl
@[simp] theorem State.onDom_nodes (s : State) (d : Nat) (f : Domain → Domain) : (s.onDom d f).nodes = s.nodes := rfl
@[simp] theorem State.onDom_eps (s : State) (d : Nat) (f : Domain → Domain) : (s.onDom d f).eps = s.eps := rfl
@[simp] theorem State.onDom_tiles (s : State) (d : Nat) (f : Domain → Domain) : (s.onDom d f).tiles = s.tiles := rfl
@[simp] theorem State.onDom_switches (s : State) (d : Nat) (f : Domain → Domain) : (s.onDom d f).switches = s.switches := rfl
@[simp] theorem State.onDom_colls (s : State) (d : Nat) (f : Domain → Domain) : (s.onDom d f).colls = s.colls := rfl
@[simp] theorem State.onDom_pavs (s : State) (d : Nat) (f : Domain → Domain) : (s.onDom d f).pavs = s.pavs := rfl
@[simp] theorem State.onDom_mach (s : State) (d : Nat) (f : Domain → Domain) : (s.onDom d f).mach = s.mach := rfl
@[simp] theorem State.onDom_drain (s : State) (d : Nat) (f : Domain → Domain) : (s.onDom d f).drain = s.drain := rfl
@[simp] theorem State.onDom_plan (s : State) (d : Nat) (f : Domain → Domain) : (s.onDom d f).plan = s.plan := rfl
@[simp] theorem State.onDom_lim (s : State) (d : Nat) (f : Domain → Domain) : (s.onDom d f).lim = s.lim := rfl
@[simp] theorem State.onDom_govs (s : State) (d : Nat) (f : Domain → Domain) : (s.onDom d f).govs = s.govs := rfl
@[simp] theorem State.onDom_srcs (s : State) (d : Nat) (f : Domain → Domain) : (s.onDom d f).srcs = s.srcs := rfl
@[simp] theorem State.onDom_gate (s : State) (d : Nat) (f : Domain → Domain) : (s.onDom d f).gate = s.gate := rfl
@[simp] theorem State.onDom_react (s : State) (d : Nat) (f : Domain → Domain) : (s.onDom d f).react = s.react := rfl
@[simp] theorem State.onDom_fw (s : State) (d : Nat) (f : Domain → Domain) : (s.onDom d f).fw = s.fw := rfl
@[simp] theorem State.onDom_lodge (s : State) (d : Nat) (f : Domain → Domain) : (s.onDom d f).lodge = s.lodge := rfl
@[simp] theorem State.onDom_host (s : State) (d : Nat) (f : Domain → Domain) : (s.onDom d f).host = s.host := rfl
@[simp] theorem State.onDom_obs (s : State) (d : Nat) (f : Domain → Domain) : (s.onDom d f).obs = s.obs := rfl
@[simp] theorem State.onDom_mgmt (s : State) (d : Nat) (f : Domain → Domain) : (s.onDom d f).mgmt = s.mgmt := rfl
@[simp] theorem State.onDom_tap (s : State) (d : Nat) (f : Domain → Domain) : (s.onDom d f).tap = s.tap := rfl

@[simp] theorem State.onSrc_pending (s : State) (u : UnitId) (f : FaultSource → FaultSource) : (s.onSrc u f).pending = s.pending := rfl
@[simp] theorem State.onSrc_outs (s : State) (u : UnitId) (f : FaultSource → FaultSource) : (s.onSrc u f).outs = s.outs := rfl
@[simp] theorem State.onSrc_build (s : State) (u : UnitId) (f : FaultSource → FaultSource) : (s.onSrc u f).build = s.build := rfl
@[simp] theorem State.onSrc_free (s : State) (u : UnitId) (f : FaultSource → FaultSource) : (s.onSrc u f).free = s.free := rfl
@[simp] theorem State.onSrc_boot (s : State) (u : UnitId) (f : FaultSource → FaultSource) : (s.onSrc u f).boot = s.boot := rfl
@[simp] theorem State.onSrc_clocks (s : State) (u : UnitId) (f : FaultSource → FaultSource) : (s.onSrc u f).clocks = s.clocks := rfl
@[simp] theorem State.onSrc_loads (s : State) (u : UnitId) (f : FaultSource → FaultSource) : (s.onSrc u f).loads = s.loads := rfl
@[simp] theorem State.onSrc_dict (s : State) (u : UnitId) (f : FaultSource → FaultSource) : (s.onSrc u f).dict = s.dict := rfl
@[simp] theorem State.onSrc_prev (s : State) (u : UnitId) (f : FaultSource → FaultSource) : (s.onSrc u f).prev = s.prev := rfl
@[simp] theorem State.onSrc_ctl (s : State) (u : UnitId) (f : FaultSource → FaultSource) : (s.onSrc u f).ctl = s.ctl := rfl
@[simp] theorem State.onSrc_parts (s : State) (u : UnitId) (f : FaultSource → FaultSource) : (s.onSrc u f).parts = s.parts := rfl
@[simp] theorem State.onSrc_nodes (s : State) (u : UnitId) (f : FaultSource → FaultSource) : (s.onSrc u f).nodes = s.nodes := rfl
@[simp] theorem State.onSrc_eps (s : State) (u : UnitId) (f : FaultSource → FaultSource) : (s.onSrc u f).eps = s.eps := rfl
@[simp] theorem State.onSrc_tiles (s : State) (u : UnitId) (f : FaultSource → FaultSource) : (s.onSrc u f).tiles = s.tiles := rfl
@[simp] theorem State.onSrc_switches (s : State) (u : UnitId) (f : FaultSource → FaultSource) : (s.onSrc u f).switches = s.switches := rfl
@[simp] theorem State.onSrc_colls (s : State) (u : UnitId) (f : FaultSource → FaultSource) : (s.onSrc u f).colls = s.colls := rfl
@[simp] theorem State.onSrc_pavs (s : State) (u : UnitId) (f : FaultSource → FaultSource) : (s.onSrc u f).pavs = s.pavs := rfl
@[simp] theorem State.onSrc_mach (s : State) (u : UnitId) (f : FaultSource → FaultSource) : (s.onSrc u f).mach = s.mach := rfl
@[simp] theorem State.onSrc_drain (s : State) (u : UnitId) (f : FaultSource → FaultSource) : (s.onSrc u f).drain = s.drain := rfl
@[simp] theorem State.onSrc_plan (s : State) (u : UnitId) (f : FaultSource → FaultSource) : (s.onSrc u f).plan = s.plan := rfl
@[simp] theorem State.onSrc_doms (s : State) (u : UnitId) (f : FaultSource → FaultSource) : (s.onSrc u f).doms = s.doms := rfl
@[simp] theorem State.onSrc_lim (s : State) (u : UnitId) (f : FaultSource → FaultSource) : (s.onSrc u f).lim = s.lim := rfl
@[simp] theorem State.onSrc_govs (s : State) (u : UnitId) (f : FaultSource → FaultSource) : (s.onSrc u f).govs = s.govs := rfl
@[simp] theorem State.onSrc_gate (s : State) (u : UnitId) (f : FaultSource → FaultSource) : (s.onSrc u f).gate = s.gate := rfl
@[simp] theorem State.onSrc_react (s : State) (u : UnitId) (f : FaultSource → FaultSource) : (s.onSrc u f).react = s.react := rfl
@[simp] theorem State.onSrc_fw (s : State) (u : UnitId) (f : FaultSource → FaultSource) : (s.onSrc u f).fw = s.fw := rfl
@[simp] theorem State.onSrc_lodge (s : State) (u : UnitId) (f : FaultSource → FaultSource) : (s.onSrc u f).lodge = s.lodge := rfl
@[simp] theorem State.onSrc_host (s : State) (u : UnitId) (f : FaultSource → FaultSource) : (s.onSrc u f).host = s.host := rfl
@[simp] theorem State.onSrc_obs (s : State) (u : UnitId) (f : FaultSource → FaultSource) : (s.onSrc u f).obs = s.obs := rfl
@[simp] theorem State.onSrc_mgmt (s : State) (u : UnitId) (f : FaultSource → FaultSource) : (s.onSrc u f).mgmt = s.mgmt := rfl
@[simp] theorem State.onSrc_tap (s : State) (u : UnitId) (f : FaultSource → FaultSource) : (s.onSrc u f).tap = s.tap := rfl

@[simp] theorem State.onGov_pending (s : State) (u : UnitId) (f : Governor → Governor) : (s.onGov u f).pending = s.pending := rfl
@[simp] theorem State.onGov_outs (s : State) (u : UnitId) (f : Governor → Governor) : (s.onGov u f).outs = s.outs := rfl
@[simp] theorem State.onGov_build (s : State) (u : UnitId) (f : Governor → Governor) : (s.onGov u f).build = s.build := rfl
@[simp] theorem State.onGov_free (s : State) (u : UnitId) (f : Governor → Governor) : (s.onGov u f).free = s.free := rfl
@[simp] theorem State.onGov_boot (s : State) (u : UnitId) (f : Governor → Governor) : (s.onGov u f).boot = s.boot := rfl
@[simp] theorem State.onGov_clocks (s : State) (u : UnitId) (f : Governor → Governor) : (s.onGov u f).clocks = s.clocks := rfl
@[simp] theorem State.onGov_loads (s : State) (u : UnitId) (f : Governor → Governor) : (s.onGov u f).loads = s.loads := rfl
@[simp] theorem State.onGov_dict (s : State) (u : UnitId) (f : Governor → Governor) : (s.onGov u f).dict = s.dict := rfl
@[simp] theorem State.onGov_prev (s : State) (u : UnitId) (f : Governor → Governor) : (s.onGov u f).prev = s.prev := rfl
@[simp] theorem State.onGov_ctl (s : State) (u : UnitId) (f : Governor → Governor) : (s.onGov u f).ctl = s.ctl := rfl
@[simp] theorem State.onGov_parts (s : State) (u : UnitId) (f : Governor → Governor) : (s.onGov u f).parts = s.parts := rfl
@[simp] theorem State.onGov_nodes (s : State) (u : UnitId) (f : Governor → Governor) : (s.onGov u f).nodes = s.nodes := rfl
@[simp] theorem State.onGov_eps (s : State) (u : UnitId) (f : Governor → Governor) : (s.onGov u f).eps = s.eps := rfl
@[simp] theorem State.onGov_tiles (s : State) (u : UnitId) (f : Governor → Governor) : (s.onGov u f).tiles = s.tiles := rfl
@[simp] theorem State.onGov_switches (s : State) (u : UnitId) (f : Governor → Governor) : (s.onGov u f).switches = s.switches := rfl
@[simp] theorem State.onGov_colls (s : State) (u : UnitId) (f : Governor → Governor) : (s.onGov u f).colls = s.colls := rfl
@[simp] theorem State.onGov_pavs (s : State) (u : UnitId) (f : Governor → Governor) : (s.onGov u f).pavs = s.pavs := rfl
@[simp] theorem State.onGov_mach (s : State) (u : UnitId) (f : Governor → Governor) : (s.onGov u f).mach = s.mach := rfl
@[simp] theorem State.onGov_drain (s : State) (u : UnitId) (f : Governor → Governor) : (s.onGov u f).drain = s.drain := rfl
@[simp] theorem State.onGov_plan (s : State) (u : UnitId) (f : Governor → Governor) : (s.onGov u f).plan = s.plan := rfl
@[simp] theorem State.onGov_doms (s : State) (u : UnitId) (f : Governor → Governor) : (s.onGov u f).doms = s.doms := rfl
@[simp] theorem State.onGov_lim (s : State) (u : UnitId) (f : Governor → Governor) : (s.onGov u f).lim = s.lim := rfl
@[simp] theorem State.onGov_srcs (s : State) (u : UnitId) (f : Governor → Governor) : (s.onGov u f).srcs = s.srcs := rfl
@[simp] theorem State.onGov_gate (s : State) (u : UnitId) (f : Governor → Governor) : (s.onGov u f).gate = s.gate := rfl
@[simp] theorem State.onGov_react (s : State) (u : UnitId) (f : Governor → Governor) : (s.onGov u f).react = s.react := rfl
@[simp] theorem State.onGov_fw (s : State) (u : UnitId) (f : Governor → Governor) : (s.onGov u f).fw = s.fw := rfl
@[simp] theorem State.onGov_lodge (s : State) (u : UnitId) (f : Governor → Governor) : (s.onGov u f).lodge = s.lodge := rfl
@[simp] theorem State.onGov_host (s : State) (u : UnitId) (f : Governor → Governor) : (s.onGov u f).host = s.host := rfl
@[simp] theorem State.onGov_obs (s : State) (u : UnitId) (f : Governor → Governor) : (s.onGov u f).obs = s.obs := rfl
@[simp] theorem State.onGov_mgmt (s : State) (u : UnitId) (f : Governor → Governor) : (s.onGov u f).mgmt = s.mgmt := rfl
@[simp] theorem State.onGov_tap (s : State) (u : UnitId) (f : Governor → Governor) : (s.onGov u f).tap = s.tap := rfl

@[simp] theorem State.emit_pending (s : State) (o : Output) : (s.emit o).pending = s.pending := rfl
@[simp] theorem State.emit_build (s : State) (o : Output) : (s.emit o).build = s.build := rfl
@[simp] theorem State.emit_free (s : State) (o : Output) : (s.emit o).free = s.free := rfl
@[simp] theorem State.emit_boot (s : State) (o : Output) : (s.emit o).boot = s.boot := rfl
@[simp] theorem State.emit_clocks (s : State) (o : Output) : (s.emit o).clocks = s.clocks := rfl
@[simp] theorem State.emit_loads (s : State) (o : Output) : (s.emit o).loads = s.loads := rfl
@[simp] theorem State.emit_dict (s : State) (o : Output) : (s.emit o).dict = s.dict := rfl
@[simp] theorem State.emit_prev (s : State) (o : Output) : (s.emit o).prev = s.prev := rfl
@[simp] theorem State.emit_ctl (s : State) (o : Output) : (s.emit o).ctl = s.ctl := rfl
@[simp] theorem State.emit_parts (s : State) (o : Output) : (s.emit o).parts = s.parts := rfl
@[simp] theorem State.emit_nodes (s : State) (o : Output) : (s.emit o).nodes = s.nodes := rfl
@[simp] theorem State.emit_eps (s : State) (o : Output) : (s.emit o).eps = s.eps := rfl
@[simp] theorem State.emit_tiles (s : State) (o : Output) : (s.emit o).tiles = s.tiles := rfl
@[simp] theorem State.emit_switches (s : State) (o : Output) : (s.emit o).switches = s.switches := rfl
@[simp] theorem State.emit_colls (s : State) (o : Output) : (s.emit o).colls = s.colls := rfl
@[simp] theorem State.emit_pavs (s : State) (o : Output) : (s.emit o).pavs = s.pavs := rfl
@[simp] theorem State.emit_mach (s : State) (o : Output) : (s.emit o).mach = s.mach := rfl
@[simp] theorem State.emit_drain (s : State) (o : Output) : (s.emit o).drain = s.drain := rfl
@[simp] theorem State.emit_plan (s : State) (o : Output) : (s.emit o).plan = s.plan := rfl
@[simp] theorem State.emit_doms (s : State) (o : Output) : (s.emit o).doms = s.doms := rfl
@[simp] theorem State.emit_lim (s : State) (o : Output) : (s.emit o).lim = s.lim := rfl
@[simp] theorem State.emit_govs (s : State) (o : Output) : (s.emit o).govs = s.govs := rfl
@[simp] theorem State.emit_srcs (s : State) (o : Output) : (s.emit o).srcs = s.srcs := rfl
@[simp] theorem State.emit_gate (s : State) (o : Output) : (s.emit o).gate = s.gate := rfl
@[simp] theorem State.emit_react (s : State) (o : Output) : (s.emit o).react = s.react := rfl
@[simp] theorem State.emit_fw (s : State) (o : Output) : (s.emit o).fw = s.fw := rfl
@[simp] theorem State.emit_lodge (s : State) (o : Output) : (s.emit o).lodge = s.lodge := rfl
@[simp] theorem State.emit_host (s : State) (o : Output) : (s.emit o).host = s.host := rfl
@[simp] theorem State.emit_obs (s : State) (o : Output) : (s.emit o).obs = s.obs := rfl
@[simp] theorem State.emit_mgmt (s : State) (o : Output) : (s.emit o).mgmt = s.mgmt := rfl
@[simp] theorem State.emit_tap (s : State) (o : Output) : (s.emit o).tap = s.tap := rfl

@[simp] theorem State.setWord_pending (s : State) (id inst row word v : Nat) : (s.setWord id inst row word v).pending = s.pending := rfl
@[simp] theorem State.setWord_outs (s : State) (id inst row word v : Nat) : (s.setWord id inst row word v).outs = s.outs := rfl
@[simp] theorem State.setWord_build (s : State) (id inst row word v : Nat) : (s.setWord id inst row word v).build = s.build := rfl
@[simp] theorem State.setWord_free (s : State) (id inst row word v : Nat) : (s.setWord id inst row word v).free = s.free := rfl
@[simp] theorem State.setWord_boot (s : State) (id inst row word v : Nat) : (s.setWord id inst row word v).boot = s.boot := rfl
@[simp] theorem State.setWord_clocks (s : State) (id inst row word v : Nat) : (s.setWord id inst row word v).clocks = s.clocks := rfl
@[simp] theorem State.setWord_loads (s : State) (id inst row word v : Nat) : (s.setWord id inst row word v).loads = s.loads := rfl
@[simp] theorem State.setWord_prev (s : State) (id inst row word v : Nat) : (s.setWord id inst row word v).prev = s.prev := rfl
@[simp] theorem State.setWord_ctl (s : State) (id inst row word v : Nat) : (s.setWord id inst row word v).ctl = s.ctl := rfl
@[simp] theorem State.setWord_parts (s : State) (id inst row word v : Nat) : (s.setWord id inst row word v).parts = s.parts := rfl
@[simp] theorem State.setWord_nodes (s : State) (id inst row word v : Nat) : (s.setWord id inst row word v).nodes = s.nodes := rfl
@[simp] theorem State.setWord_eps (s : State) (id inst row word v : Nat) : (s.setWord id inst row word v).eps = s.eps := rfl
@[simp] theorem State.setWord_tiles (s : State) (id inst row word v : Nat) : (s.setWord id inst row word v).tiles = s.tiles := rfl
@[simp] theorem State.setWord_switches (s : State) (id inst row word v : Nat) : (s.setWord id inst row word v).switches = s.switches := rfl
@[simp] theorem State.setWord_colls (s : State) (id inst row word v : Nat) : (s.setWord id inst row word v).colls = s.colls := rfl
@[simp] theorem State.setWord_pavs (s : State) (id inst row word v : Nat) : (s.setWord id inst row word v).pavs = s.pavs := rfl
@[simp] theorem State.setWord_mach (s : State) (id inst row word v : Nat) : (s.setWord id inst row word v).mach = s.mach := rfl
@[simp] theorem State.setWord_drain (s : State) (id inst row word v : Nat) : (s.setWord id inst row word v).drain = s.drain := rfl
@[simp] theorem State.setWord_plan (s : State) (id inst row word v : Nat) : (s.setWord id inst row word v).plan = s.plan := rfl
@[simp] theorem State.setWord_doms (s : State) (id inst row word v : Nat) : (s.setWord id inst row word v).doms = s.doms := rfl
@[simp] theorem State.setWord_lim (s : State) (id inst row word v : Nat) : (s.setWord id inst row word v).lim = s.lim := rfl
@[simp] theorem State.setWord_govs (s : State) (id inst row word v : Nat) : (s.setWord id inst row word v).govs = s.govs := rfl
@[simp] theorem State.setWord_srcs (s : State) (id inst row word v : Nat) : (s.setWord id inst row word v).srcs = s.srcs := rfl
@[simp] theorem State.setWord_gate (s : State) (id inst row word v : Nat) : (s.setWord id inst row word v).gate = s.gate := rfl
@[simp] theorem State.setWord_react (s : State) (id inst row word v : Nat) : (s.setWord id inst row word v).react = s.react := rfl
@[simp] theorem State.setWord_fw (s : State) (id inst row word v : Nat) : (s.setWord id inst row word v).fw = s.fw := rfl
@[simp] theorem State.setWord_lodge (s : State) (id inst row word v : Nat) : (s.setWord id inst row word v).lodge = s.lodge := rfl
@[simp] theorem State.setWord_host (s : State) (id inst row word v : Nat) : (s.setWord id inst row word v).host = s.host := rfl
@[simp] theorem State.setWord_obs (s : State) (id inst row word v : Nat) : (s.setWord id inst row word v).obs = s.obs := rfl
@[simp] theorem State.setWord_mgmt (s : State) (id inst row word v : Nat) : (s.setWord id inst row word v).mgmt = s.mgmt := rfl
@[simp] theorem State.setWord_tap (s : State) (id inst row word v : Nat) : (s.setWord id inst row word v).tap = s.tap := rfl

@[simp] theorem State.setVal_pending (s : State) (id v : Nat) : (s.setVal id v).pending = s.pending := rfl
@[simp] theorem State.setVal_outs (s : State) (id v : Nat) : (s.setVal id v).outs = s.outs := rfl
@[simp] theorem State.setVal_build (s : State) (id v : Nat) : (s.setVal id v).build = s.build := rfl
@[simp] theorem State.setVal_free (s : State) (id v : Nat) : (s.setVal id v).free = s.free := rfl
@[simp] theorem State.setVal_boot (s : State) (id v : Nat) : (s.setVal id v).boot = s.boot := rfl
@[simp] theorem State.setVal_clocks (s : State) (id v : Nat) : (s.setVal id v).clocks = s.clocks := rfl
@[simp] theorem State.setVal_loads (s : State) (id v : Nat) : (s.setVal id v).loads = s.loads := rfl
@[simp] theorem State.setVal_prev (s : State) (id v : Nat) : (s.setVal id v).prev = s.prev := rfl
@[simp] theorem State.setVal_ctl (s : State) (id v : Nat) : (s.setVal id v).ctl = s.ctl := rfl
@[simp] theorem State.setVal_parts (s : State) (id v : Nat) : (s.setVal id v).parts = s.parts := rfl
@[simp] theorem State.setVal_nodes (s : State) (id v : Nat) : (s.setVal id v).nodes = s.nodes := rfl
@[simp] theorem State.setVal_eps (s : State) (id v : Nat) : (s.setVal id v).eps = s.eps := rfl
@[simp] theorem State.setVal_tiles (s : State) (id v : Nat) : (s.setVal id v).tiles = s.tiles := rfl
@[simp] theorem State.setVal_switches (s : State) (id v : Nat) : (s.setVal id v).switches = s.switches := rfl
@[simp] theorem State.setVal_colls (s : State) (id v : Nat) : (s.setVal id v).colls = s.colls := rfl
@[simp] theorem State.setVal_pavs (s : State) (id v : Nat) : (s.setVal id v).pavs = s.pavs := rfl
@[simp] theorem State.setVal_mach (s : State) (id v : Nat) : (s.setVal id v).mach = s.mach := rfl
@[simp] theorem State.setVal_drain (s : State) (id v : Nat) : (s.setVal id v).drain = s.drain := rfl
@[simp] theorem State.setVal_plan (s : State) (id v : Nat) : (s.setVal id v).plan = s.plan := rfl
@[simp] theorem State.setVal_doms (s : State) (id v : Nat) : (s.setVal id v).doms = s.doms := rfl
@[simp] theorem State.setVal_lim (s : State) (id v : Nat) : (s.setVal id v).lim = s.lim := rfl
@[simp] theorem State.setVal_govs (s : State) (id v : Nat) : (s.setVal id v).govs = s.govs := rfl
@[simp] theorem State.setVal_srcs (s : State) (id v : Nat) : (s.setVal id v).srcs = s.srcs := rfl
@[simp] theorem State.setVal_gate (s : State) (id v : Nat) : (s.setVal id v).gate = s.gate := rfl
@[simp] theorem State.setVal_react (s : State) (id v : Nat) : (s.setVal id v).react = s.react := rfl
@[simp] theorem State.setVal_fw (s : State) (id v : Nat) : (s.setVal id v).fw = s.fw := rfl
@[simp] theorem State.setVal_lodge (s : State) (id v : Nat) : (s.setVal id v).lodge = s.lodge := rfl
@[simp] theorem State.setVal_host (s : State) (id v : Nat) : (s.setVal id v).host = s.host := rfl
@[simp] theorem State.setVal_obs (s : State) (id v : Nat) : (s.setVal id v).obs = s.obs := rfl
@[simp] theorem State.setVal_mgmt (s : State) (id v : Nat) : (s.setVal id v).mgmt = s.mgmt := rfl
@[simp] theorem State.setVal_tap (s : State) (id v : Nat) : (s.setVal id v).tap = s.tap := rfl

@[simp] theorem State.setSem_pending (s : State) (l : Nat) (k : BitVec 8) (v : BitVec 32) : (s.setSem l k v).pending = s.pending := rfl
@[simp] theorem State.setSem_outs (s : State) (l : Nat) (k : BitVec 8) (v : BitVec 32) : (s.setSem l k v).outs = s.outs := rfl
@[simp] theorem State.setSem_build (s : State) (l : Nat) (k : BitVec 8) (v : BitVec 32) : (s.setSem l k v).build = s.build := rfl
@[simp] theorem State.setSem_free (s : State) (l : Nat) (k : BitVec 8) (v : BitVec 32) : (s.setSem l k v).free = s.free := rfl
@[simp] theorem State.setSem_boot (s : State) (l : Nat) (k : BitVec 8) (v : BitVec 32) : (s.setSem l k v).boot = s.boot := rfl
@[simp] theorem State.setSem_clocks (s : State) (l : Nat) (k : BitVec 8) (v : BitVec 32) : (s.setSem l k v).clocks = s.clocks := rfl
@[simp] theorem State.setSem_loads (s : State) (l : Nat) (k : BitVec 8) (v : BitVec 32) : (s.setSem l k v).loads = s.loads := rfl
@[simp] theorem State.setSem_dict (s : State) (l : Nat) (k : BitVec 8) (v : BitVec 32) : (s.setSem l k v).dict = s.dict := rfl
@[simp] theorem State.setSem_prev (s : State) (l : Nat) (k : BitVec 8) (v : BitVec 32) : (s.setSem l k v).prev = s.prev := rfl
@[simp] theorem State.setSem_ctl (s : State) (l : Nat) (k : BitVec 8) (v : BitVec 32) : (s.setSem l k v).ctl = s.ctl := rfl
@[simp] theorem State.setSem_parts (s : State) (l : Nat) (k : BitVec 8) (v : BitVec 32) : (s.setSem l k v).parts = s.parts := rfl
@[simp] theorem State.setSem_nodes (s : State) (l : Nat) (k : BitVec 8) (v : BitVec 32) : (s.setSem l k v).nodes = s.nodes := rfl
@[simp] theorem State.setSem_eps (s : State) (l : Nat) (k : BitVec 8) (v : BitVec 32) : (s.setSem l k v).eps = s.eps := rfl
@[simp] theorem State.setSem_switches (s : State) (l : Nat) (k : BitVec 8) (v : BitVec 32) : (s.setSem l k v).switches = s.switches := rfl
@[simp] theorem State.setSem_colls (s : State) (l : Nat) (k : BitVec 8) (v : BitVec 32) : (s.setSem l k v).colls = s.colls := rfl
@[simp] theorem State.setSem_pavs (s : State) (l : Nat) (k : BitVec 8) (v : BitVec 32) : (s.setSem l k v).pavs = s.pavs := rfl
@[simp] theorem State.setSem_mach (s : State) (l : Nat) (k : BitVec 8) (v : BitVec 32) : (s.setSem l k v).mach = s.mach := rfl
@[simp] theorem State.setSem_drain (s : State) (l : Nat) (k : BitVec 8) (v : BitVec 32) : (s.setSem l k v).drain = s.drain := rfl
@[simp] theorem State.setSem_plan (s : State) (l : Nat) (k : BitVec 8) (v : BitVec 32) : (s.setSem l k v).plan = s.plan := rfl
@[simp] theorem State.setSem_doms (s : State) (l : Nat) (k : BitVec 8) (v : BitVec 32) : (s.setSem l k v).doms = s.doms := rfl
@[simp] theorem State.setSem_lim (s : State) (l : Nat) (k : BitVec 8) (v : BitVec 32) : (s.setSem l k v).lim = s.lim := rfl
@[simp] theorem State.setSem_govs (s : State) (l : Nat) (k : BitVec 8) (v : BitVec 32) : (s.setSem l k v).govs = s.govs := rfl
@[simp] theorem State.setSem_srcs (s : State) (l : Nat) (k : BitVec 8) (v : BitVec 32) : (s.setSem l k v).srcs = s.srcs := rfl
@[simp] theorem State.setSem_gate (s : State) (l : Nat) (k : BitVec 8) (v : BitVec 32) : (s.setSem l k v).gate = s.gate := rfl
@[simp] theorem State.setSem_react (s : State) (l : Nat) (k : BitVec 8) (v : BitVec 32) : (s.setSem l k v).react = s.react := rfl
@[simp] theorem State.setSem_fw (s : State) (l : Nat) (k : BitVec 8) (v : BitVec 32) : (s.setSem l k v).fw = s.fw := rfl
@[simp] theorem State.setSem_lodge (s : State) (l : Nat) (k : BitVec 8) (v : BitVec 32) : (s.setSem l k v).lodge = s.lodge := rfl
@[simp] theorem State.setSem_host (s : State) (l : Nat) (k : BitVec 8) (v : BitVec 32) : (s.setSem l k v).host = s.host := rfl
@[simp] theorem State.setSem_obs (s : State) (l : Nat) (k : BitVec 8) (v : BitVec 32) : (s.setSem l k v).obs = s.obs := rfl
@[simp] theorem State.setSem_mgmt (s : State) (l : Nat) (k : BitVec 8) (v : BitVec 32) : (s.setSem l k v).mgmt = s.mgmt := rfl
@[simp] theorem State.setSem_tap (s : State) (l : Nat) (k : BitVec 8) (v : BitVec 32) : (s.setSem l k v).tap = s.tap := rfl

@[simp] theorem State.sramSet_pending (s : State) (a : Nat) (bs : List Byte) : (s.sramSet a bs).pending = s.pending := rfl
@[simp] theorem State.sramSet_outs (s : State) (a : Nat) (bs : List Byte) : (s.sramSet a bs).outs = s.outs := rfl
@[simp] theorem State.sramSet_build (s : State) (a : Nat) (bs : List Byte) : (s.sramSet a bs).build = s.build := rfl
@[simp] theorem State.sramSet_free (s : State) (a : Nat) (bs : List Byte) : (s.sramSet a bs).free = s.free := rfl
@[simp] theorem State.sramSet_boot (s : State) (a : Nat) (bs : List Byte) : (s.sramSet a bs).boot = s.boot := rfl
@[simp] theorem State.sramSet_clocks (s : State) (a : Nat) (bs : List Byte) : (s.sramSet a bs).clocks = s.clocks := rfl
@[simp] theorem State.sramSet_loads (s : State) (a : Nat) (bs : List Byte) : (s.sramSet a bs).loads = s.loads := rfl
@[simp] theorem State.sramSet_dict (s : State) (a : Nat) (bs : List Byte) : (s.sramSet a bs).dict = s.dict := rfl
@[simp] theorem State.sramSet_prev (s : State) (a : Nat) (bs : List Byte) : (s.sramSet a bs).prev = s.prev := rfl
@[simp] theorem State.sramSet_ctl (s : State) (a : Nat) (bs : List Byte) : (s.sramSet a bs).ctl = s.ctl := rfl
@[simp] theorem State.sramSet_parts (s : State) (a : Nat) (bs : List Byte) : (s.sramSet a bs).parts = s.parts := rfl
@[simp] theorem State.sramSet_nodes (s : State) (a : Nat) (bs : List Byte) : (s.sramSet a bs).nodes = s.nodes := rfl
@[simp] theorem State.sramSet_eps (s : State) (a : Nat) (bs : List Byte) : (s.sramSet a bs).eps = s.eps := rfl
@[simp] theorem State.sramSet_tiles (s : State) (a : Nat) (bs : List Byte) : (s.sramSet a bs).tiles = s.tiles := rfl
@[simp] theorem State.sramSet_switches (s : State) (a : Nat) (bs : List Byte) : (s.sramSet a bs).switches = s.switches := rfl
@[simp] theorem State.sramSet_colls (s : State) (a : Nat) (bs : List Byte) : (s.sramSet a bs).colls = s.colls := rfl
@[simp] theorem State.sramSet_pavs (s : State) (a : Nat) (bs : List Byte) : (s.sramSet a bs).pavs = s.pavs := rfl
@[simp] theorem State.sramSet_mach (s : State) (a : Nat) (bs : List Byte) : (s.sramSet a bs).mach = s.mach := rfl
@[simp] theorem State.sramSet_drain (s : State) (a : Nat) (bs : List Byte) : (s.sramSet a bs).drain = s.drain := rfl
@[simp] theorem State.sramSet_plan (s : State) (a : Nat) (bs : List Byte) : (s.sramSet a bs).plan = s.plan := rfl
@[simp] theorem State.sramSet_doms (s : State) (a : Nat) (bs : List Byte) : (s.sramSet a bs).doms = s.doms := rfl
@[simp] theorem State.sramSet_lim (s : State) (a : Nat) (bs : List Byte) : (s.sramSet a bs).lim = s.lim := rfl
@[simp] theorem State.sramSet_govs (s : State) (a : Nat) (bs : List Byte) : (s.sramSet a bs).govs = s.govs := rfl
@[simp] theorem State.sramSet_srcs (s : State) (a : Nat) (bs : List Byte) : (s.sramSet a bs).srcs = s.srcs := rfl
@[simp] theorem State.sramSet_gate (s : State) (a : Nat) (bs : List Byte) : (s.sramSet a bs).gate = s.gate := rfl
@[simp] theorem State.sramSet_react (s : State) (a : Nat) (bs : List Byte) : (s.sramSet a bs).react = s.react := rfl
@[simp] theorem State.sramSet_fw (s : State) (a : Nat) (bs : List Byte) : (s.sramSet a bs).fw = s.fw := rfl
@[simp] theorem State.sramSet_host (s : State) (a : Nat) (bs : List Byte) : (s.sramSet a bs).host = s.host := rfl
@[simp] theorem State.sramSet_obs (s : State) (a : Nat) (bs : List Byte) : (s.sramSet a bs).obs = s.obs := rfl
@[simp] theorem State.sramSet_mgmt (s : State) (a : Nat) (bs : List Byte) : (s.sramSet a bs).mgmt = s.mgmt := rfl
@[simp] theorem State.sramSet_tap (s : State) (a : Nat) (bs : List Byte) : (s.sramSet a bs).tap = s.tap := rfl

@[simp] theorem State.node_onNode_same (s : State) (u : UnitId) (f : Node → Node) : (s.onNode u f).node u = f (s.node u) :=
  FMap.get_modify_same _ _ _ _

theorem State.node_onNode_other (s : State) (u w : UnitId) (f : Node → Node) (h : w.code ≠ u.code) : (s.onNode u f).node w = s.node w :=
  FMap.get_modify_other _ _ _ _ _ h

@[simp] theorem State.sw_onSw_same (s : State) (u : UnitId) (f : Switch → Switch) : (s.onSw u f).sw u = f (s.sw u) :=
  FMap.get_modify_same _ _ _ _

theorem State.sw_onSw_other (s : State) (u w : UnitId) (f : Switch → Switch) (h : w.code ≠ u.code) : (s.onSw u f).sw w = s.sw w :=
  FMap.get_modify_other _ _ _ _ _ h

@[simp] theorem State.src_onSrc_same (s : State) (u : UnitId) (f : FaultSource → FaultSource) : (s.onSrc u f).src u = f (s.src u) :=
  FMap.get_modify_same _ _ _ _

theorem State.src_onSrc_other (s : State) (u w : UnitId) (f : FaultSource → FaultSource) (h : w.code ≠ u.code) : (s.onSrc u f).src w = s.src w :=
  FMap.get_modify_other _ _ _ _ _ h

@[simp] theorem State.gov_onGov_same (s : State) (u : UnitId) (f : Governor → Governor) : (s.onGov u f).gov u = f (s.gov u) :=
  FMap.get_modify_same _ _ _ _

theorem State.gov_onGov_other (s : State) (u w : UnitId) (f : Governor → Governor) (h : w.code ≠ u.code) : (s.onGov u f).gov w = s.gov w :=
  FMap.get_modify_other _ _ _ _ _ h

@[simp] theorem State.ep_onEp_same (s : State) (n : Nat) (f : Endpoint → Endpoint) : (s.onEp n f).ep n = f (s.ep n) :=
  FMap.get_modify_same _ _ _ _

theorem State.ep_onEp_other (s : State) (n w : Nat) (f : Endpoint → Endpoint) (h : w ≠ n) : (s.onEp n f).ep w = s.ep w :=
  FMap.get_modify_other _ _ _ _ _ h

@[simp] theorem State.tile_onTile_same (s : State) (n : Nat) (f : Tile → Tile) : (s.onTile n f).tile n = f (s.tile n) :=
  FMap.get_modify_same _ _ _ _

theorem State.tile_onTile_other (s : State) (n w : Nat) (f : Tile → Tile) (h : w ≠ n) : (s.onTile n f).tile w = s.tile w :=
  FMap.get_modify_other _ _ _ _ _ h

@[simp] theorem State.part_onPart_same (s : State) (n : Nat) (f : Partition → Partition) : (s.onPart n f).part n = f (s.part n) :=
  FMap.get_modify_same _ _ _ _

theorem State.part_onPart_other (s : State) (n w : Nat) (f : Partition → Partition) (h : w ≠ n) : (s.onPart n f).part w = s.part w :=
  FMap.get_modify_other _ _ _ _ _ h

@[simp] theorem State.coll_onColl_same (s : State) (n : Nat) (f : Coll → Coll) : (s.onColl n f).coll n = f (s.coll n) :=
  FMap.get_modify_same _ _ _ _

theorem State.coll_onColl_other (s : State) (n w : Nat) (f : Coll → Coll) (h : w ≠ n) : (s.onColl n f).coll w = s.coll w :=
  FMap.get_modify_other _ _ _ _ _ h

@[simp] theorem State.pav_onPav_same (s : State) (n : Nat) (f : Pavilion → Pavilion) : (s.onPav n f).pav n = f (s.pav n) :=
  FMap.get_modify_same _ _ _ _

theorem State.pav_onPav_other (s : State) (n w : Nat) (f : Pavilion → Pavilion) (h : w ≠ n) : (s.onPav n f).pav w = s.pav w :=
  FMap.get_modify_other _ _ _ _ _ h

@[simp] theorem State.dom_onDom_same (s : State) (n : Nat) (f : Domain → Domain) : (s.onDom n f).dom n = f (s.dom n) :=
  FMap.get_modify_same _ _ _ _

theorem State.dom_onDom_other (s : State) (n w : Nat) (f : Domain → Domain) (h : w ≠ n) : (s.onDom n f).dom w = s.dom w :=
  FMap.get_modify_other _ _ _ _ _ h

/-- A word of the committed view reads as it was set (a value of at most 64 bits). -/
theorem State.word_setWord_same (s : State) (id inst row word v : Nat) (h : v < 2 ^ 64) :
    (s.setWord id inst row word v).word id inst row word = v := by
  unfold State.setWord State.word
  by_cases hd : v = objDefault id row word
  · simp [hd]
  · simp only [hd, if_false, FMap.find_put_same, BitVec.toNat_ofNat]
    exact Nat.mod_eq_of_lt h

/-- Another word of the committed view is unchanged. -/
theorem State.word_setWord_other (s : State) (id inst row word v id' inst' row' word' : Nat)
    (h : dkey id' inst' row' word' ≠ dkey id inst row word) :
    (s.setWord id inst row word v).word id' inst' row' word' = s.word id' inst' row' word' := by
  unfold State.setWord State.word
  by_cases hd : v = objDefault id row word
  · simp [hd, FMap.find_del_other _ _ _ h]
  · simp [hd, FMap.find_put_other _ _ _ _ h]

/-- Setting a word keeps the committed view in order. -/
theorem State.setWord_sorted (s : State) (id inst row word v : Nat) (h : FMap.sorted s.dict = true) :
    FMap.sorted (s.setWord id inst row word v).dict = true := by
  unfold State.setWord
  split
  · exact FMap.sorted_del _ _ h
  · exact FMap.sorted_put _ _ _ h

/-- Writing lodge SRAM keeps its canonical form. -/
theorem State.sramSet_wf (s : State) (a : Nat) (bs : List Byte) (h : Memory.wf s.lodge.sram = true) :
    Memory.wf (s.sramSet a bs).lodge.sram = true := sramWrite_wf _ _ _ h

/-! ## The frame of a command -/

/-- A command that runs outside reset: its effect with nothing driven out before it. -/
theorem up_run (s : State) (f : State → State) (h : s.boot.inReset = false) :
    up s f = .next (s.framed (f { s with outs := [] })) := by simp [up, h]

/-- Every input is ignored in reset (14 R350). -/
theorem up_reset (s : State) (f : State → State) (h : s.boot.inReset = true) : up s f = .next { s with outs := [] } := by
  simp [up, h]

/-- A command whose guard holds runs. -/
theorem upWhen_run (s : State) (g : State → Bool) (f : State → State) (h : s.boot.inReset = false)
    (hg : g { s with outs := [] } = true) : upWhen s g f = .next (s.framed (f { s with outs := [] })) := by
  simp [upWhen, up, h, hg]

/-- A command always answers a next state, and leaves the queue, the build and the reset line as they were. -/
theorem up_next (s : State) (f : State → State) :
    ∃ t, up s f = .next t ∧ t.pending = s.pending ∧ t.build = s.build ∧ t.boot.inReset = s.boot.inReset := by
  by_cases h : s.boot.inReset = true
  · exact ⟨_, up_reset s f h, rfl, rfl, rfl⟩
  · exact ⟨_, up_run s f (by simpa using h), rfl, rfl, rfl⟩

@[simp] theorem State.framed_pending (s t : State) : (s.framed t).pending = s.pending := rfl
@[simp] theorem State.framed_build (s t : State) : (s.framed t).build = s.build := rfl
@[simp] theorem State.framed_inReset (s t : State) : (s.framed t).boot.inReset = s.boot.inReset := rfl
@[simp] theorem State.framed_outs (s t : State) : (s.framed t).outs = t.outs := rfl
@[simp] theorem State.framed_free (s t : State) : (s.framed t).free = t.free := rfl
@[simp] theorem State.framed_clocks (s t : State) : (s.framed t).clocks = t.clocks := rfl
@[simp] theorem State.framed_loads (s t : State) : (s.framed t).loads = t.loads := rfl
@[simp] theorem State.framed_dict (s t : State) : (s.framed t).dict = t.dict := rfl
@[simp] theorem State.framed_prev (s t : State) : (s.framed t).prev = t.prev := rfl
@[simp] theorem State.framed_ctl (s t : State) : (s.framed t).ctl = t.ctl := rfl
@[simp] theorem State.framed_parts (s t : State) : (s.framed t).parts = t.parts := rfl
@[simp] theorem State.framed_nodes (s t : State) : (s.framed t).nodes = t.nodes := rfl
@[simp] theorem State.framed_eps (s t : State) : (s.framed t).eps = t.eps := rfl
@[simp] theorem State.framed_tiles (s t : State) : (s.framed t).tiles = t.tiles := rfl
@[simp] theorem State.framed_switches (s t : State) : (s.framed t).switches = t.switches := rfl
@[simp] theorem State.framed_colls (s t : State) : (s.framed t).colls = t.colls := rfl
@[simp] theorem State.framed_pavs (s t : State) : (s.framed t).pavs = t.pavs := rfl
@[simp] theorem State.framed_mach (s t : State) : (s.framed t).mach = t.mach := rfl
@[simp] theorem State.framed_drain (s t : State) : (s.framed t).drain = t.drain := rfl
@[simp] theorem State.framed_plan (s t : State) : (s.framed t).plan = t.plan := rfl
@[simp] theorem State.framed_doms (s t : State) : (s.framed t).doms = t.doms := rfl
@[simp] theorem State.framed_lim (s t : State) : (s.framed t).lim = t.lim := rfl
@[simp] theorem State.framed_govs (s t : State) : (s.framed t).govs = t.govs := rfl
@[simp] theorem State.framed_srcs (s t : State) : (s.framed t).srcs = t.srcs := rfl
@[simp] theorem State.framed_gate (s t : State) : (s.framed t).gate = t.gate := rfl
@[simp] theorem State.framed_react (s t : State) : (s.framed t).react = t.react := rfl
@[simp] theorem State.framed_fw (s t : State) : (s.framed t).fw = t.fw := rfl
@[simp] theorem State.framed_lodge (s t : State) : (s.framed t).lodge = t.lodge := rfl
@[simp] theorem State.framed_host (s t : State) : (s.framed t).host = t.host := rfl
@[simp] theorem State.framed_obs (s t : State) : (s.framed t).obs = t.obs := rfl
@[simp] theorem State.framed_mgmt (s t : State) : (s.framed t).mgmt = t.mgmt := rfl
@[simp] theorem State.framed_tap (s t : State) : (s.framed t).tap = t.tap := rfl

end Sys2Proof.Machine
end

