-- ==== Sys2Proof/Tests/Slice0.lean ====
section
/-!
SUPPORT. Tests: commands that are not well formed are refused by WellFormed, the hypotheses of every statement are met by a state,
and small results worked out by hand from the tables and rules of spec/.
-/
namespace Sys2Proof.Tests

open Sys2Proof.Machine

set_option Elab.async false

/-! ## States to test on -/

/-- A block that has started: every domain has been tested and the host link is present. -/
def base : State := { State.reset with boot := { State.reset.boot with inReset := false, progress := 3, present := true } }

/-- The same, at slot `n` of K0's time. -/
def at_ (n : Nat) : State := { base with clocks := FMap.put [] k0.code (BitVec.ofNat 64 n) }

/-- The same, at slot `n` of the time of unit `u`. -/
def atUnit (u : UnitId) (n : Nat) : State := { base with clocks := FMap.put [] u.code (BitVec.ofNat 64 n) }

/-- The default build with a static I3C address or without one. -/
def i3c (a : BitVec 7) : State := { base with build := { base.build with i3cStatic := a } }

/-- A header of zeros. -/
def h0 : Header := unpackHeader 0

/-- A packet of that header alone. -/
def p0 : Packet := { hdr := h0, data := [], tail := 0, trunc := false, resend := false }

/-- The state after a command. -/
def after (c : Instr) (s : State) : State :=
  match exec c s with
  | .next t => t
  | _ => s

/-- A channel 5 that is enabled, owned by identity 7, with the plain peer 9. -/
def chan5 : State := base.setWord 0x402001 0 5 0 (2 ^ 63 + 2 ^ 50 + 9 * 2 ^ 32 + 7)

/-- A packet of a header and data units, with the CRC that its sender makes. -/
def pk (h : Header) (us : List Payload) : Packet :=
  { hdr := { h with version := 1, length := BitVec.ofNat 7 us.length }, data := us
    tail := crc32c (packHeader { h with version := 1, length := BitVec.ofNat 7 us.length } :: us), trunc := false, resend := false }

theorem pk_passes (h : Header) (us : List Payload) (hl : us.length < 128) : checkThree (pk h us) = none := by
  simp [checkThree, pk, Nat.mod_eq_of_lt hl]

/-- The checks of a packet into a unit, but for its data. -/
def passes (s : State) (u : UnitId) (p : Packet) : Bool :=
  (headerFault p.hdr).isNone && ((s.takeRx u p).bankAt u p.hdr).isSome && !reservedOperand p.hdr

/-- The checks of a packet into an endpoint, but for its data. -/
def passesAt (s : State) (e : Nat) (p : Packet) : Bool :=
  passes s (epUnit e) p && (addressFault e p.hdr).isNone && serves e p.hdr.command.toNat && permits e p.hdr

theorem sound_pk (s : State) (u : UnitId) (h : Header) (us : List Payload) (hl : us.length < 128) (hp : passes s u (pk h us) = true) :
    (s.takeRx u (pk h us)).sound u (pk h us) := by
  simp only [passes, Bool.and_eq_true, Option.isNone_iff_eq_none, Bool.not_eq_true'] at hp
  exact ⟨hp.1.1, hp.1.2, pk_passes h us hl, hp.2⟩

theorem soundAt_pk (s : State) (e : Nat) (h : Header) (us : List Payload) (hl : us.length < 128) (hp : passesAt s e (pk h us) = true) :
    (s.takeRx (epUnit e) (pk h us)).soundAt e (pk h us) := by
  simp only [passesAt, Bool.and_eq_true, Option.isNone_iff_eq_none] at hp
  exact ⟨sound_pk s (epUnit e) h us hl hp.1.1.1, hp.1.1.2, hp.1.2, hp.2⟩

/-- The header of a command, on a virtual channel, for a partition. -/
def hd (command vc part : Nat) : Header := { h0 with command := BitVec.ofNat 8 command, vc := BitVec.ofNat 3 vc, part := BitVec.ofNat 10 part }

/-- The started block with packet `o` outstanding in entry `k` of endpoint `ep`. -/
def awaiting (ep k : Nat) (o : Outst) : State := base.onEp ep (fun e => { e with entries := FMap.put [] k { outst := [o] } })

/-- A collective of handle 4095, of partition 5, over landings 0 and 1 of `axes`, with a word 7 of its descriptor. -/
def withColl (axes w7 : Nat) : State :=
  ((base.setWord 0x210002 0 4095 0 5).setWord 0x210001 0 4095 4 (2 ^ 54 + axes)).setWord 0x210001 0 4095 7 w7

/-- The started block with its domains 0, 127, 135, 136 and 139 ACTIVE. -/
def awake : State := { base with doms := [0, 127, 135, 136, 139].map (fun d => (d, { st := .active })) }

/-- The same with a driver attached and session 1 of ring set 0 open, privileged; partition 5 is in use. -/
def manager : State :=
  let s := awake.onPart 5 (fun p => { p with st := .held })
  { s with fw := { s.fw with st := .attached }, ctl := { s.ctl with sessions := FMap.put [] 1 ⟨2, 0, .host 0, 0⟩ } }

/-- Who that session is. -/
def owner : Who := { key := 1, right := 2, part := 0, num := 1 }

theorem owner_of : manager.quiet.who (.host 0) 1 = (some owner, manager.quiet) := by rfl

/-- The checks of `State.allows`, as they are computed. -/
def taken (s : State) (path : Path) (e : DictEntry) (x : Nat) : Bool :=
  match s.locate e with
  | .inl o => decide (s.mayWrite owner path o e.inst.toNat e.row.toNat = 0) &&
    !s.stagedElsewhere owner.key (s.placeOf owner.key o.id e.inst.toNat e.row.toNat e.word.toNat) &&
    s.statePermits o e.inst.toNat e.row.toNat e.value.toNat &&
    decide (s.rangeOf o e.inst.toNat e.row.toNat e.word.toNat e.value.toNat = .fit x) &&
    s.ownRule owner.key o e.inst.toNat e.row.toNat x && (!s.takesAtOnce o || !s.targetAsleep o.id e.inst.toNat)
  | .inr _ => false

theorem allows_of {s : State} {path : Path} {e : DictEntry} {x : Nat} (h : taken s path e x = true) : s.allows owner path e x := by
  unfold taken at h
  split at h
  · rename_i o ho
    simp only [Bool.and_eq_true, decide_eq_true_eq, Bool.not_eq_true', Bool.or_eq_true] at h
    exact ⟨o, ho, h.1.1.1.1.1, h.1.1.1.1.2, h.1.1.1.2, h.1.1.2, h.1.2, fun ht => h.2.resolve_left (by simp [ht])⟩
  · exact absurd h Bool.false_ne_true

/-! ## Well-formed commands -/

theorem test_wf_landing : (Instr.abortedReport 2047).wf Config.p2048 = true ∧ (Instr.abortedReport 2048).wf Config.p2048 = false := by
  decide +kernel
theorem test_wf_pavilion : (Instr.cellTransmit 15).wf Config.p2048 = true ∧ (Instr.cellTransmit 16).wf Config.p2048 = false := by
  decide +kernel
theorem test_wf_pavilion_absent : (Instr.cellTransmit 0).wf { Config.p2048 with pavilions := false } = false := by decide +kernel
theorem test_wf_special : (Instr.errorResp 2059 p0).wf Config.p2048 = true ∧
    (Instr.errorResp 2061 p0).wf Config.p2048 = false := by decide +kernel
theorem test_wf_special_small : (Instr.errorResp 2059 p0).wf { Config.p2048 with galleries := 2 } = false := by
  decide +kernel
theorem test_wf_endpoint : (Instr.write 2051 p0).wf Config.p2048 = true ∧
    (Instr.write 3000 p0).wf Config.p2048 = false := by decide +kernel
theorem test_wf_unit : (Instr.stopBitSet (.stair 127) 0).wf Config.p2048 = true ∧ (Instr.stopBitSet (.stair 128) 0).wf Config.p2048 = false := by
  decide +kernel
theorem test_wf_gallery : (Instr.slotBoundary (.gallery 8)).wf Config.p2048 = false := by decide +kernel
theorem test_wf_hall : (Instr.slotBoundary (.hall 4)).wf Config.p2048 = false := by decide +kernel
theorem test_wf_switch : (Instr.dozeWake (.landing 0)).wf Config.p2048 = false := by decide +kernel
theorem test_wf_island : (Instr.slotBoundary .chip).wf Config.p2048 = false := by decide +kernel
theorem test_wf_port : (Instr.creditWord (.hall 0) 84 0).wf Config.p2048 = true ∧ (Instr.creditWord (.hall 0) 85 0).wf Config.p2048 = false := by
  decide +kernel
theorem test_wf_client : (Instr.injectionRequest 0 31).wf Config.p2048 = true ∧ (Instr.injectionRequest 0 32).wf Config.p2048 = false := by
  decide +kernel
theorem test_wf_path : (Instr.detach (.host 31) 1 1).wf Config.p2048 = true ∧ (Instr.detach (.host 32) 1 1).wf Config.p2048 = false ∧
    (Instr.detach (.lodge 64) 1 1).wf Config.p2048 = false ∧ (Instr.detach (.remote 1024) 1 1).wf Config.p2048 = false := by decide +kernel
theorem test_wf_session : (Instr.detach (.host 0) 63 1).wf Config.p2048 = true ∧ (Instr.detach (.host 0) 64 1).wf Config.p2048 = false := by
  decide +kernel
theorem test_wf_domain : (Instr.supplyWarning 140 0).wf Config.p2048 = true ∧ (Instr.supplyWarning 141 0).wf Config.p2048 = false := by
  decide +kernel
theorem test_wf_partition : (Instr.frameBoundary 511).wf Config.p2048 = true ∧ (Instr.frameBoundary 512).wf Config.p2048 = false := by
  decide +kernel
theorem test_wf_entry : (Instr.schedAckDeadline 0 64 0).wf Config.p2048 = false := by decide +kernel
theorem test_wf_handle : (Instr.settleCrossChipForm 4096 false).wf Config.p2048 = false := by decide +kernel
theorem test_wf_lane : (Instr.rxrdyFall 0 8).wf Config.p2048 = false := by decide +kernel
theorem test_wf_chip : (Instr.chipLossTimeout 1024).wf Config.p2048 = false := by decide +kernel
theorem test_wf_ring_set : (Instr.doorbell 32 0).wf Config.p2048 = false := by decide +kernel
theorem test_wf_channel : (Instr.chStatus true 0 0 64).wf Config.p2048 = false := by decide +kernel
theorem test_wf_words : (Instr.chRead true 0 0 0 16).wf Config.p2048 = true ∧ (Instr.chRead false 0 0 0 14).wf Config.p2048 = false := by
  decide +kernel
theorem test_wf_counter : (Instr.counterConfigWrite (.host 0) 1 (.landing 0) 4 0).wf Config.p2048 = false := by decide +kernel
theorem test_wf_row : (Instr.sourceRowRead 0 8192 0 0 false).wf Config.p2048 = false := by decide +kernel
theorem test_wf_keeper : (Instr.activationFailure 9).wf Config.p2048 = false := by decide +kernel
theorem test_wf_thermal : (Instr.thermalTrip 16 0).wf Config.p2048 = false := by decide +kernel
theorem test_wf_beats : (Instr.sramRead 0 0 128 0).wf Config.p2048 = false := by decide +kernel
theorem test_wf_tag : (Instr.outboundResponse 64 0 []).wf Config.p2048 = false := by decide +kernel

/-! ## The hypotheses of the statements are met -/

theorem test_hyps_CommandFrame : exec .powerEmergencyRelease base = .next (base.framed base) ∧
    Instr.powerEmergencyRelease ≠ .blockReset ∧ Instr.powerEmergencyRelease ≠ .resetRelease := ⟨rfl, by decide, by decide⟩
theorem test_hyps_HeldInResetKept : State.reset.heldInReset ∧ step State.reset = .next State.reset := ⟨fun _ => rfl, rfl⟩
theorem test_hyps_EmptyQueue : base.pending = [] := rfl
theorem test_hyps_ResetIgnoresInputs : State.reset.boot.inReset = true ∧ takenInReset .resetRequest = false := ⟨rfl, rfl⟩
theorem test_hyps_BlockReset_accepted : base.resetAccepted = true := by decide +kernel
theorem test_hyps_BlockReset_hot :
    ({ base with lim := { base.lim with tripped := true, thermal := FMap.put [] 15 (16 * 105) } } : State).resetAccepted = false := by
  decide +kernel
theorem test_hyps_BlockReset_edges : State.reset.boot.inReset = true ∧ base.live := ⟨rfl, rfl⟩
theorem test_hyps_SecdedDecoding_clean :
    xorPositions (dataPositions.take 160) 0 ^^^ (0 % 256) = 0 ∧ (oddOnes 160 0 ^^ oddOnes 9 0) = false := by decide +kernel
theorem test_hyps_SecdedDecoding_code :
    (oddOnes 160 0 ^^ oddOnes 9 256) = true ∧ xorPositions (dataPositions.take 160) 0 ^^^ (256 % 256) = 0 ∧
    (oddOnes 160 0 ^^ oddOnes 9 128) = true ∧ isCheckPos (xorPositions (dataPositions.take 160) 0 ^^^ (128 % 256)) = true := by decide +kernel
theorem test_hyps_SecdedDecoding_data :
    (oddOnes 160 (2 ^ 159) ^^ oddOnes 9 0) = true ∧ xorPositions (dataPositions.take 160) (2 ^ 159) ^^^ (0 % 256) = 168 ∧
    isCheckPos 168 = false ∧ 168 ≤ (dataPositions.take 160).getLastD 0 := by decide +kernel
theorem test_hyps_SecdedDecoding_past :
    (oddOnes 128 1 ^^ oddOnes 9 0xA6) = true ∧ xorPositions (dataPositions.take 128) 1 ^^^ (0xA6 % 256) = 165 ∧ isCheckPos 165 = false ∧
    (dataPositions.take 128).getLastD 0 < 165 := by decide +kernel
theorem test_hyps_SecdedDecoding_double :
    xorPositions (dataPositions.take 132) 3 ^^^ (0 % 256) ≠ 0 ∧ (oddOnes 132 3 ^^ oddOnes 9 0) = false := by decide +kernel
theorem test_hyps_SecdedCorrectsSingle : (160 = 128 ∨ 160 = 132 ∨ 160 = 160) ∧ 2 ^ 160 - 1 < 2 ^ 160 ∧ 159 < 160 ∧ 8 < 9 := by decide
theorem test_hyps_SecdedDetectsDouble : (132 = 128 ∨ 132 = 132 ∨ 132 = 160) ∧ 0 < 2 ^ 132 ∧ 0 < 131 ∧ 131 < 132 ∧ 7 < 8 ∧ 8 < 9 := by decide
theorem test_hyps_SecdedCode : 3 < 4 ∧ 127 < 128 ∧ 31 < 32 ∧ 159 < 160 ∧ 160 ≤ 160 ∧ 7 < 8 := by decide
theorem test_hyps_HopWordTime : 5 ≤ 68 ∧ 68 < 5 + 64 := by decide
theorem test_hyps_IntegerSum : fmtOf 0 ∈ fmts ∧ (fmtOf 0).isInt = true ∧ (fmtOf 0).bytes = 1 ∧ ((2 ^ 7 : Nat) : Int) - 1 < 128 ∧
    (-129 : Int) < -((2 ^ 7 : Nat) : Int) := by decide
theorem test_hyps_SumAnyOrder : List.Perm [1, 2] [2, 1] := by decide
theorem test_hyps_TapCommands : base.live ∧ State.reset.boot.inReset = true := ⟨rfl, rfl⟩
theorem test_hyps_ManagementPort : (i3c 9).live ∧ 2 ≤ (i3c 9).boot.progress ∧ (1 : BitVec 8) ≠ 0 ∧ (1 : BitVec 8) ≠ 0xFF ∧
    (i3c 9).build.i3cStatic ≠ 0 ∧ (i3c 0).build.i3cStatic = 0 ∧ (i3c 0).live ∧ 2 ≤ (i3c 0).boot.progress := by decide +kernel
theorem test_hyps_SramRead : base.live ∧ base.boot.present = true ∧ 1 ≤ 64 ∧ (0x1FF000#24).toNat % 64 = 0 ∧
    (0x1FF000#24).toNat + 64 * 64 ≤ 0x200000 ∧ 63 < 64 := by decide +kernel
theorem test_hyps_SramRead_refused : (0#24).toNat % 64 = 0 ∧ 64 < 65 ∧ (1#24).toNat % 64 ≠ 0 ∧ 0x200000 < (0x1FFFC0#24).toNat + 64 * 2 := by
  decide
theorem test_hyps_SramRead_write : ([] : List (Payload × BitVec 64)).length = 0 ∧ [((0 : Payload), (0 : BitVec 64))].length = 1 ∧
    (63#24).toNat % 64 ≠ 0 := by decide
theorem test_hyps_SramWrite : base.live ∧ base.boot.present = true ∧ 1 ≤ [((0 : Payload), (1 : BitVec 64))].length ∧
    (0x1FFFC0#24).toNat % 64 = 0 ∧ (0x1FFFC0#24).toNat + 64 * 1 ≤ 0x200000 ∧ Memory.wf base.lodge.sram = true := by decide +kernel
theorem test_hyps_Doorbell : base.live ∧ base.boot.present = true ∧ 31 < 32 ∧ 3 < 4 := by decide
theorem test_hyps_HostDescriptor : base.live ∧ base.boot.present = true ∧ 32 ≤ 32 ∧ 31 < 32 ∧ base.hostOpen < 64 ∧
    64 ≤ ({ base with host := { base.host with cmpl := List.replicate 64 (0, 0) } } : State).hostOpen := by decide +kernel
theorem test_hyps_CompletionRead : base.live ∧ base.boot.present = true ∧ 31 < 32 ∧
    ((({ base with host := { base.host with cmpl := [(31, 5)] } } : State).host.cmpl.filter (fun x => x.1 == 31)).take 8)[0]? = some (31, 5) := by
  decide +kernel
theorem test_hyps_OutboundResponse : base.live ∧ base.boot.present = true ∧ base.host.outReqs.find 63 = none ∧
    (({ base with host := { base.host with outReqs := FMap.put [] 63 { use := 1, beats := 1, hdr := none } } } : State).host.outReqs.find 63).isSome =
      true := by decide +kernel
theorem test_hyps_ChannelWrite : chan5.live ∧ chan5.boot.present = true ∧ 5 < 64 ∧ chan5.chanOn 5 = true ∧
    chan5.quiet.chanEnd 5 7 = some true ∧ chan5.quiet.chanEnd 5 9 = some false ∧ (chan5.chan 5).inq.length + 13 ≤ 16 ∧
    (chan5.chan 5).outq.length + 13 ≤ 16 := by decide +kernel
theorem test_hyps_ChannelRead : (chan5.onChan 5 (fun c => { c with outq := [(1, 7)] })).chanOn 5 = true ∧
    (chan5.onChan 5 (fun c => { c with outq := [(1, 7)] })).quiet.chanEnd 5 7 = some true ∧
    ((chan5.onChan 5 (fun c => { c with outq := [(1, 7)] })).chan 5).outq ≠ [] := by decide +kernel
theorem test_hyps_SessionOpen : base.live ∧ base.hears (.host 0) = true ∧ (2#16).toNat ≤ 2 ∧ base.ctl.sessions.find 1 = none := by
  decide +kernel
theorem test_hyps_SessionOpen_full :
    ∀ j, j < 64 → ((List.range 64).foldl (fun (m : FMap Session) j => m.put j ⟨0, 0, .host 0, 0⟩) []).find j ≠ none := by decide +kernel
theorem test_hyps_SessionClose : base.hears (.host 0) = true ∧
    (FMap.put [] 63 (⟨2, 0, .host 0, 0⟩ : Session)).find 63 = some ⟨2, 0, .host 0, 0⟩ ∧ 63 ≠ 0 := by decide +kernel
theorem test_hyps_FirstFaultClear :
    let s : State := { base with fw := { base.fw with st := .attached }, ctl := { base.ctl with sessions := FMap.put [] 1 ⟨2, 0, .host 0, 0⟩ } }
    s.live ∧ s.hears (.host 0) = true ∧ s.fw.st = .attached ∧ s.ctl.sessions.find 1 = some ⟨2, 0, .host 0, 0⟩ ∧ s.allStaged = [] := by
  decide +kernel
theorem test_hyps_CrossChipForm :
    let s := (base.setWord 0x210002 0 4095 0 5).setWord 0x210001 0 4095 6 (2 ^ 63)
    s.live ∧ s.holdsDesc 4095 = true ∧ dOp (s.desc 4095) = 0 ∧ (s.coll 4095).asked = [] := by decide +kernel
theorem test_hyps_RetrainLimit :
    let s := base.onPav 15 (fun v => { v with st := .up, retrains := [0, 0, 0] })
    s.pavUp 15 = true ∧ s.parts = [] ∧ (s.pav 15).peerChip = none ∧ s.mach.parent ≠ some 15 ∧ s.val 0x280104 = 3 ∧
      ((s.pav 15).retrains.filter (fun t => decide (s.time < t + 2000000000))).length = 3 := by decide +kernel
theorem test_hyps_MachineEvents : base.live ∧ (∀ k, (base.pav k).seen = []) ∧ base.fw.changing = none ∧
    (recordOf (BitVec.ofNat 256 (5 * 2 ^ 228))).origin ≠ base.chipNo := ⟨rfl, fun _ => rfl, rfl, by decide +kernel⟩
theorem test_hyps_MachineEvents_time :
    ({ at_ 1000000 with mach := { base.mach with st := .holdover, staleRounds := 16 } } : State).mach.holdSince + base.val 0x280007 ≤ (at_ 1000000).time := by
  decide +kernel
theorem test_hyps_MachineEvents_loss :
    let s := ((at_ 400000).setWord 0x281001 (pavInst 15) 0 0 1).onPav 15 (fun v => { v with peerChip := some 1023 })
    s.quiet.pavsTo 1023 = [15] ∧ s.pavUp 15 = false ∧ (s.pav 15).downSince + s.val 0x280101 ≤ s.time := by decide +kernel
theorem test_hyps_PartitionEnding :
    ((base.onPart 511 (fun p => { p with stopped := true })).part 511).stopped = true ∧ 511 ∉ (base.node (.hall 3)).stop ∧
    ((base.onTile 0 (fun t => { t with aborted := true })).tile 0).scrubTries = 0 ∧
    ((base.onTile 0 (fun t => { t with scrubDue := some 0 })).tile 0).scrubDue = some 0 ∧ 0 ≤ base.time ∧
    ((base.onTile 0 (fun t => { t with scrub := some { base := 0, lines := 12288, order := none } })).tile 0).scrub =
      some { base := 0, lines := 12288, order := none } := by decide +kernel
theorem test_hyps_SensorCommands :
    base.quiet.supplyOf 0x3FFF < base.val 0x041103 * 100 ∧ base.quiet.supplyOf 9399 < base.val 0x041103 * 100 ∧
    base.lim.warn.contains 140 = false ∧ base.val 0x041103 * 100 + 100 ≤ base.quiet.supplyOf 9500 ∧
    base.quiet.supplyOf 8999 < base.val 0x041104 * 100 ∧ 15 < base.build.thermalInputs ∧
    16 * (base.val 0x041101 : Int) ≤ base.quiet.thermalOf (16 * 105) ∧ 16 * (base.val 0x041102 : Int) ≤ base.quiet.thermalOf (16 * 115) ∧
    base.lim.throttle = false ∧ base.lim.tripped = false := by decide +kernel
theorem test_hyps_SensorCommands_back :
    ({ at_ 20000000 with lim := { base.lim with reset := [139], warn := [139], throttle := true, thermal := FMap.put [] 0 1600 } } : State).quiet.coolTo
      (16 * (base.val 0x041101 : Int) - 80) = true ∧ base.lim.hotAt + 20000000 ≤ (at_ 20000000).time ∧
      base.lim.warnAt.get 0 139 + 20000 ≤ (at_ 20000).time ∧ base.lim.lowAt.get 0 139 + 20000 ≤ (at_ 20000).time ∧ ((base.onDom 139 (fun x => { x with supplyReset := true })).dom 139).supplyReset = true := by
  decide +kernel
theorem test_hyps_FaultEvents_force :
    let f : Force := { kind := 1, act := false, sub := 0, port := 0, left := 1, next := 0 }
    let s := base.onSrc (.hall 0) (fun x => { x with force := some f })
    (s.src (.hall 0)).force = some f ∧ f.next ≤ s.quiet.sourceTime (.hall 0) := by decide +kernel
theorem test_hyps_FirmwareEvents_load :
    let s : State := { base.setVal 0x440001 1 with fw := { base.fw with loading := true, hostError := true } }
    s.fw.loading = true ∧ s.quiet.firmwareBytes = some [] := by decide +kernel
theorem test_hyps_FirmwareEvents :
    ({ base with fw := { base.fw with changing := some 1, deferred := true } } : State).quiet.emergency = false ∧
    ({ at_ (2 ^ 32) with fw := { base.fw with st := .attached } } : State).fw.beatAt + base.val 0x043001 ≤ (at_ (2 ^ 32)).time ∧
    base.val 0x043003 ≠ 1 ∧
    ({ at_ (2 ^ 50) with fw := { base.fw with st := .hostless } } : State).fw.hostlessAt + base.val 0x043002 ≤ (at_ (2 ^ 50)).time := by decide +kernel
theorem test_hyps_ObjectWrites_who : manager.live ∧ manager.hears (.host 0) = true ∧
    manager.quiet.who (.host 0) 1 = (some owner, manager.quiet) := ⟨rfl, by decide +kernel, owner_of⟩
theorem test_hyps_ObjectWrites : domainOf (.gallery 7) = some 135 ∧
    [writeOf 0x180004 0 0 0 1, writeOf 0x181101 0 0 0 5, writeOf 0x181102 0 0 0 5, writeOf 0x182003 (instOf (.stair 0)) 0 0 0,
      writeOf 0x182004 (instOf (.stair 0)) 0 0 0, writeOf 0x200005 (instOf (.stair 0)) 0 0 0, writeOf 0x800504 8192 0 0 0x1000000,
      writeOf 0x281001 (pavInst 15) 0 0 0, writeOf 0x280008 0 0 0 1, writeOf 0x080201 0 0 0 5, writeOf 0x802001 (instOf (.gallery 7)) 0 0 0,
      writeOf 0x300102 0 0 0 1, writeOf 0x300502 0 0 0 1, writeOf 0x302001 (instOf (.hall 0)) 0 0 (2 * 2 ^ 22 + 1), writeOf 0x440003 0 0 0 1,
      writeOf 0x401001 0 1 0 1, writeOf 0x401004 0 0 0 1, writeOf 0x000006 0 0 0 1, writeOf 0x400001 0 0 0 0, writeOf 0x402001 0 63 0 0,
      writeOf 0x381003 (instOf (.hall 0)) 3 0 0, writeOf 0x382202 (instOf (.hall 0)) 0 0 1, writeOf 0x386001 0 0 0 1].all (fun e =>
        taken manager.quiet (.host 0) e e.value.toNat) = true := by decide +kernel
theorem test_hyps_ObjectWrites_attach :
    taken ({ manager.quiet with fw := { manager.quiet.fw with attachWord := some 1 } } : State) (.host 0) (writeOf 0x401001 0 0 0 7) 7 = true ∧
    taken ({ manager.quiet with obs := { manager.quiet.obs with snap := { manager.quiet.obs.snap with st := 3 } } } : State) (.host 0)
      (writeOf 0x386006 0 0 0 1) 1 = true := by decide +kernel
theorem test_hyps_DictionaryMessages_read :
    let e : DictEntry := { idx := 0x0100#16, sub := 1#8, inst := 0, row := 0, word := 0, outcome := 0, value := 0 }
    manager.hears (.host 0) = true ∧ 1 ≤ 255 ∧ 255 ≤ entryLimit (.host 0) ∧
      (match manager.quiet.locate e with
       | .inl o => manager.quiet.mayRead owner (.host 0) o 0 0 && manager.quiet.fwAdmits o.id false && !manager.quiet.targetAsleep o.id 0 &&
           isIdentity o.id
       | .inr _ => false) = true := by decide +kernel
theorem test_hyps_DictionaryMessages_write :
    let e := writeOf 0x000006 0 0 0 1
    (match (manager.quiet.touch 0).locate e with | .inl _ => true | .inr _ => false) = true ∧
      (manager.quiet.touch 0).checkEntry owner (.host 0) e = ⟨0, 1, []⟩ := by decide +kernel
theorem test_hyps_DictionaryMessages_commit :
    manager.quiet.takesCommits = true ∧ owner.right ≠ 0 ∧ manager.quiet.react.st ≠ 3 ∧ (0 : Nat) ≤ manager.quiet.time + 2000000000 ∧
      (manager.quiet.commitFails (manager.quiet.ctl.staged.filter (fun y => y.sess == owner.key))).1 = none := by decide +kernel

/-- Lodge SRAM with the control block of ring set 0, its command ring at 64, and a command with the message header `h`. -/
def ringed (h arr : Nat) : State :=
  { base.setVal 0x400001 1 with lodge := { base.lodge with
      bells := [0], rings := FMap.put (FMap.put [] 0 (64, 4)) 1 (1088, 4)
      sram := sramWrite (sramWrite [] 4 [1#8]) 64 (bytesOf 4 h ++ bytesOf 4 arr) } }

theorem test_hyps_CarriedMessages_ring :
    [ringed (6 * 2 ^ 28) 0, ringed (2 ^ 28 + 3) 0, ringed (2 ^ 28 + 255) 0x1000].all (fun s => decide (s.quiet.readySets = [0])) = true ∧
    (let bs := sramRead (ringed (2 ^ 28 + 255) 0x1000).lodge.sram (64 + (ringed 0 0).consumer 0 0 % 16 * 64) 64
     bitsAt (ofBytes (bs.take 4)) 28 4 = 1 ∧ ofBytes ((bs.drop 4).take 4) = 0x1000 ∧ ofBytes (bs.take 4) % 256 = 255) := by decide +kernel
theorem test_hyps_CarriedMessages_channel :
    let s := (base.setWord 0x402001 0 63 0 (2 ^ 63 + 7)).onChan 63 (fun c => { c with inq := [(7 * 2 ^ 28, 7)] })
    let s : State := { s with lodge := { s.lodge with mail := [63] } }
    s.chanOn 63 = true ∧ s.chanPlain 63 = false ∧ s.lodge.mail.contains 63 = true ∧ s.lodge.busy.contains (32 + 63) = false ∧
      messageWords 7 0 = some 1 ∧ (s.chan 63).outq.length + answerWords 7 0 ≤ 16 ∧ (s.chan 63).inq = [(7 * 2 ^ 28, 7)] := by decide +kernel
theorem test_hyps_CarriedMessages_service :
    passesAt base 2059 (pk { hd 0x30 4 1023 with src := 2051, aux := 7 * 2 ^ 28 } []) = true ∧
    base.servicePath 2051 = .keeper ∧ (base.takeRx (epUnit 2059) (pk { hd 0x30 4 1023 with src := 2051, aux := 7 * 2 ^ 28 } [])).readsFull 2059 = false ∧
    passesAt base 2049 (pk { hd 0x30 4 1023 with aux := 15 * 2 ^ 28 + 63 * 2 ^ 12 } []) = true ∧
    passesAt base 2049 (pk { hd 0x30 4 1023 with aux := 14 * 2 ^ 28 + 63 * 2 ^ 12 } []) = true ∧
    ((base.setWord 0x402001 0 63 0 (2 ^ 63 + 0x8007)).chanEnd 63 (BitVec.ofNat 16 (0x8000 + localOf 7))).isSome = true := by decide +kernel
theorem test_hyps_CarriedMessages_answer :
    let a : CommitAsk := { path := .keeper, req := 0, sess := 0, num := 0, time := 0, scope := 1, part := 0, writes := [], own := true }
    let x : CrossCommit := { ask := a, time := 5000, flood := 100, attempt := 0, answers := [], ruleFailed := false, seq := 9 }
    let s : State := { base with ctl := { base.ctl with cross := some x } }
    let p := pk { hd 0x31 4 1023 with src := 4096 + 2051, aux := 4 * 2 ^ 28 + 9 * 2 ^ 20 } []
    passesAt s 2051 p = true ∧ chipOf p.hdr.src ≠ s.chipNo ∧ localOf p.hdr.src = 2051 ∧ bitsAt p.hdr.aux.toNat 28 4 = 4 ∧
      bitsAt p.hdr.aux.toNat 20 8 = x.seq.toNat % 256 := by decide +kernel
theorem test_hyps_CarriedMessages_tree :
    base.quiet.asleep (.landing 0) = true ∧ awake.quiet.asleep (.landing 0) = false ∧
    (match (awake.quiet.touch (instOf (.hall 0))).locate { writeOf 0x302001 0 0 0 0 with inst := BitVec.ofNat 16 (instOf (.hall 0)) } with
     | .inl o => o.acc != .ro && o.takes != .never
     | .inr _ => false) = true := by decide +kernel
theorem test_hyps_Epochs_switch :
    let e : Epoch := { time := 10, scope := 0, part := 0, sessions := [], writes := [], sched := false }
    let s : State := { at_ 10 with ctl := { base.ctl with pending := some e } }
    s.react.st ≠ 3 ∧ e.time ≤ s.time := by decide +kernel
theorem test_hyps_Epochs_window :
    let s : State := { at_ 10 with ctl := { base.ctl with windowOpen := true, windowEnd := 10 } }
    s.ctl.windowOpen = true ∧ s.ctl.windowEnd ≤ s.time := by decide +kernel
theorem test_hyps_Epochs_decision :
    let a : CommitAsk := { path := .keeper, req := 0, sess := 0, num := 0, time := 0, scope := 1, part := 0, writes := [], own := true }
    let x (l : List (Nat × Bool)) : CrossCommit := { ask := a, time := 5000, flood := 100, attempt := 0, answers := l, ruleFailed := false, seq := 0 }
    let s : State := { (at_ 900).setWord 0x101001 0 7 0 (2 ^ 16) with ctl := { base.ctl with cross := some (x []) } }
    base.react.st ≠ 3 ∧ (x []).time ≤ s.time + (x []).flood + 4000 ∧
      (∀ c, c ∈ s.quiet.scopeChips 1 0 → (c, true) ∈ (x ((s.quiet.scopeChips 1 0).map (fun c => (c, true)))).answers) ∧
      (∀ c, c ∈ s.quiet.scopeChips 1 0 → (c, true) ∉ (x []).answers) := by decide +kernel
theorem test_hyps_Epochs_late :
    let x : Prepare := { origin := 5, seq := 0, time := 4000, sess := 1, scope := 1, part := 0, confirmed := false }
    ({ at_ 0 with ctl := { base.ctl with prepares := [x] } } : State).quiet.lateRecord = some x := by decide +kernel
theorem test_hyps_SemaphoreOperations : awake.live ∧ (awake.tile 2047).waits.find 31 = none ∧ awake.domState (.landing 2047) = .active ∧
    (∀ d w, (awake.tile 2047).waits.find d = some w → w.sem ≠ 255 ∧ (awake.sem 2047 w.sem).toInt < w.operand.toInt) ∧
    domainOf (.landing 0) = some 0 ∧ ((awake.onDom 0 (fun x => { x with st := .doze })).dom 0).st = .doze ∧ base.asleep (.landing 0) = true :=
  ⟨rfl, rfl, by decide +kernel, fun _ _ h => by simp [awake, base, State.tile, State.reset, FMap.get, FMap.find] at h, by decide +kernel,
    by decide +kernel, by decide +kernel⟩
theorem test_hyps_SemaphoreWaits : awake.live ∧ awake.domState (.landing 0) = .active ∧ 31 < 32 ∧ (awake.tile 0).waits.find 31 = none ∧
    (awake.sem 0 255).toInt < (1#32).toInt ∧
    ((awake.onTile 0 (fun t => { t with sems := FMap.put [] 255 0x80000000 })).sem 0 255).toInt < (0x80000001#32).toInt ∧
    (0#32).toInt ≤ (awake.sem 0 255).toInt := by decide +kernel
theorem test_hyps_TileFrame : base.live ∧ ∃ t, exec (.semAdd 0 0 0 1) base = .next t := ⟨rfl, _, rfl⟩
theorem test_hyps_InjectionArbiter_free : awake.domState (.landing 0) = .active ∧ (awake.tile 0).owner = none ∧ (awake.tile 0).queue = [] ∧
    (awake.tile 0).detached.getLsbD 31 = false ∧ base.asleep (.landing 0) = true := by decide +kernel
theorem test_hyps_InjectionArbiter_held :
    let s := awake.onTile 0 (fun t => { t with owner := some 30 })
    (s.tile 0).owner = some 30 ∧ 30 ≠ 31 ∧ 31 ∉ (s.tile 0).queue ∧ (s.tile 0).detached.getLsbD 31 = false ∧ (s.tile 0).queue = [] := by
  decide +kernel
theorem test_hyps_InjectionWatchdog :
    let s := awake.onTile 0 (fun t => { t with owner := some 31, idle := 128000 })
    s.domState (.landing 0) = .active ∧ (s.tile 0).owner = some 31 ∧ s.val 0x042001 ≤ (s.tile 0).idle := by decide +kernel

/-- Landing 2047 of partition 5, its path held by client 31. -/
def driven : State := (awake.setWord 0x080001 0 2047 0 5).onTile 2047 (fun t => { t with owner := some 31 })

/-- A descriptor with a length and opcode-specific bits. -/
def desc_ (length : Nat) (specific : Nat) : Desc := { unpackDesc 0 with length := BitVec.ofNat 14 length, specific := BitVec.ofNat 102 specific }

theorem test_hyps_TileDescriptors : driven.live ∧ driven.domState (.landing 2047) = .active ∧ (driven.tile 2047).owner = some 31 ∧
    driven.partOf 2047 < 512 ∧ (driven.tile 2047).aborted = false ∧ driven.quiet.freeEntry 2047 = some 0 ∧
    driven.quiet.descOk 2047 1 (desc_ 0 0) = false ∧
    [(1, desc_ 1 0), (2, desc_ 32 0), (3, desc_ 1 0), (4, desc_ 0 0), (5, desc_ 1 0)].all (fun x =>
      driven.quiet.descOk 2047 x.1 x.2 && !driven.quiet.noEndpoint x.1 x.2) = true ∧
    driven.windowsAt 2047 0 64 = [] ∧ (driven.freeWindow 2047).isSome = true := by decide +kernel
theorem test_hyps_TileDescriptors_multicast :
    let s := driven.setWord 0x801001 (8192 + 2047) 0 0 (7 * 2 ^ 18 + 1)
    let d : Desc := { desc_ 1 0 with vc5 := true, dest := 7 }
    [6, 7].all (fun op => s.quiet.descOk 2047 op d && !s.quiet.noEndpoint op d) = true := by decide +kernel
theorem test_hyps_TileDescriptors_local :
    driven.quiet.descOk 2047 8 (desc_ 1 (63 * 2 ^ 96 + 2 ^ 72 + 2 ^ 59)) = true ∧ (driven.tile 2047).windows.find 63 = none ∧
    ((driven.onTile 2047 (fun t => { t with windows := FMap.put [] 63 (openedWindow 31 0 (desc_ 1 0)) })).tile 2047).windows.find 63 =
      some (openedWindow 31 0 (desc_ 1 0)) ∧ (openedWindow 31 0 (desc_ 1 0)).byRead = none ∧
    driven.quiet.descOk 2047 10 (desc_ 0 (2 ^ 98)) = true ∧ driven.quiet.descOk 2047 11 (desc_ 0 0) = true ∧ (desc_ 0 0).after = false := by
  decide +kernel
theorem test_hyps_TileDescriptors_row :
    let j : ReadJob := { use := .response, hdr := h0, base := 0, bytes := 256, rows := [], kind := .answer }
    let s := base.onEp 0 (fun e => { e with jobs := [j] })
    s.jobOfRow 0 0 = some j ∧ s.jobOfRow 0 1 = some j ∧ (s.tile 0).rowForces = [] ∧
      ((rowsOf 0 256).all (fun r => (FMap.put ([] : FMap (BitVec 1024)) 0 7 |>.find r).isSome)) = false ∧
      ((rowsOf 0 128).all (fun r => (FMap.put ([] : FMap (BitVec 1024)) 0 7 |>.find r).isSome)) = true := by decide +kernel
theorem test_hyps_TileDescriptors_wait :
    let w : Wait := { sem := 3, take := false, operand := 1, start := 0, timedOut := false, suspended := false }
    let s := (atUnit (.landing 0) 20000000).onTile 0 (fun t => { t with waits := FMap.put [] 31 w })
    s.live ∧ (s.tile 0).waits.find 31 = some w ∧ w.start + s.val 0x384001 ≤ s.now (.landing 0) := by decide +kernel
theorem test_hyps_StreamControl :
    let x : TxStream := { desc := 0, ready := 0, close := none, frame := 0, pending := true, built := none, ahead := false, aheadBuilt := none,
                          sentUnits := 0, seq := 0, failed := false, closed := false, closing := false, noShows := 0 }
    let s := awake.onTile 0 (fun t => { t with txs := FMap.put [] 63 x })
    s.domState (.landing 0) = .active ∧ (s.tile 0).txs.find (63#6).toNat = some x := by decide +kernel
theorem test_hyps_FabricCommands_load :
    let x : TimeLoad := { value := 7, left := [(UnitId.special 2060).code] }
    ({ base with loads := base.loads.put (loadKey (.special 2060)) x } : State).loads.find (loadKey (.special 2060)) = some x ∧
      x.left.contains (UnitId.special 2060).code = true := by decide +kernel
theorem test_hyps_FabricCommands_credit : oddOnes 9 (0x1FE#9).toNat = false ∧ oddOnes 9 (0x0FE#9).toNat = true := by decide
theorem test_hyps_FabricCommands_unit :
    (0x200#10).toNat.testBit 9 = true ∧ (0x1FF#10).toNat.testBit 9 = false ∧ awake.running (.hall 0) = true ∧
    awake.now (.hall 0) < hopDeparture 0x205#10 (awake.now (.hall 0)) + awake.quiet.linkLatency (.hall 0) 84 + 64 ∧
    (awake.inPort (.hall 0) 84).align.length < 4 := by decide +kernel
theorem test_hyps_FabricCommands_arrival :
    let s : State := { awake with clocks := FMap.put [] (UnitId.hall 0).code 100 }
    let v := hopWord false false 100
    s.now (.hall 0) < hopDeparture v 100 + s.quiet.linkLatency (.hall 0) 84 ∧ hopDeparture v 100 = 100 ∧ v.toNat.testBit 9 = true := by
  decide +kernel
theorem test_hyps_FabricCommands_late :
    let s : State := { awake with clocks := FMap.put [] (UnitId.hall 0).code 100 }
    let at_ := hopDeparture (hopWord false false 60) 100 + s.quiet.linkLatency (.hall 0) 84
    let f : Flit := { payload := 0, tail := 0, first := true, last := true, trunc := false, resend := false, codes := 0 }
    at_ ≤ 100 ∧ (s.quiet.packetOf (.hall 0) 84 { flit := f, release := at_, esc := false, bad := false, forced := false } f at_).isSome = true := by
  decide +kernel
theorem test_hyps_FabricCommands_slot : UnitId.stair 0 ≠ k0 ∧ base.running (.stair 0) = false ∧ isSwitch (.stair 0) = true ∧
    awake.running (.stair 0) = true ∧ awake.domState (.stair 0) ≠ .doze ∧ awake.running (.landing 0) = true ∧
    awake.running (.pavilion 15) = true := by decide +kernel
theorem test_hyps_Governors : (base.quiet.ownersIn (.hall 3)).all (fun p => (base.part p).rate == 2 || !(base.part p).run) = true ∧
    (let s := base.onGov (.hall 3) (fun g => { g with request := true })
     (s.gov (.hall 3)).request = true ∧ (s.gov (.hall 3)).clearSince = none) ∧
    ((atUnit (.hall 3) 20000000).onGov (.hall 3) (fun g => { g with request := true, clearSince := some 0 })).quiet.governorClear (.hall 3) = true := by
  decide +kernel
theorem test_hyps_ScheduledTraffic_deadline :
    let h : Header := { h0 with seq := 7, cls := 1, part := 5 }
    let s (n : Nat) := (base.onEp 2047 (fun e => { e with entries := FMap.put [] 63 { outst := [{ newOutst h 0 0 with attempt := n }] } })).onPart 5
      (fun p => { p with frames := 1 })
    ((s 2).quiet.overdue 2047 63 7).map (·.attempt) = some 2 ∧ ((s 3).quiet.overdue 2047 63 7).map (·.attempt) = some 3 := by decide +kernel
theorem test_hyps_ScheduledTraffic_hold :
    let s := (base.setWord 0x080001 0 2047 0 5).onPart 5 (fun p => { p with run := true, frames := 3, noticed := [9] })
    (s.part 5).run = true ∧ s.partOf 2047 = 5 ∧ s.quiet.noticeFrame 5 3 ≤ (s.part 5).frames ∧ (s.part 5).frames < s.quiet.noticeFrame 5 4 ∧
      s.quiet.noticeFrame 5 4 ∉ (s.part 5).noticed ∧ s.quiet.noticeFrame 5 9 ∈ (s.part 5).noticed ∧ (s.part 6).run = false ∧
      (9#16).toNat ∉ (s.part 6).noticed := by decide +kernel
theorem test_hyps_ScheduledTraffic_frame :
    ((at_ 16).onPart 511 (fun p => { p with run := true, frameLen := 16 })).quiet.frameEnded 511 = true := by decide +kernel
theorem test_hyps_ScheduledTraffic_plan :
    let s : State := { base.setVal 0x180001 1 with plan := { base.plan with running := true, hostError := true } }
    s.live ∧ s.plan.running = true ∧ s.quiet.planBytes.isSome = true := by decide +kernel
theorem test_hyps_DynamicTraffic_escape :
    let x : Held := { id := 3, inp := 0, lane := .normal, hdr := h0, buf := 0, rel := 0, units := [], freed := 0, closed := true, outs := [] }
    ((atUnit (.hall 0) (2 ^ 40)).onNode (.hall 0) (fun n => { n with held := [x] })).quiet.escaping (.hall 0) 3 = some x := by decide +kernel
theorem test_hyps_DynamicTraffic_deadline :
    let h : Header := { h0 with seq := 7 }
    let o := { newOutst h 0 0 with deadline := some 0 }
    [o, { o with attempt := 3 }, { o with hallDrop := true }].all (fun o =>
      decide ((base.onEp 2059 (fun e => { e with entries := FMap.put [] 63 { outst := [o] } })).quiet.expired 2059 63 7 = some o)) = true := by
  decide +kernel
theorem test_hyps_DynamicTraffic_planes : base.quiet.pavUp 15 = false ∧ base.word 0x101004 0 1023 0 ≠ 15 / 4 := by decide +kernel
theorem test_hyps_DynamicTraffic_drain :
    let s : State := { at_ 200000 with drain := { base.drain with st := 1, parts := [5] } }
    s.live ∧ epOf (.landing 2047) = some 2047 ∧ (s.node (.landing 2047)).drainStopped = false ∧ s.drain.ts ≤ s.now (.landing 2047) ∧
      s.quiet.drainLate = true ∧ s.drain.commit = none ∧ s.drain.prepare = none := by decide +kernel
theorem test_hyps_DynamicTraffic_refused :
    let a : CommitAsk := { path := .host 0, req := 0, sess := 1, num := 1, time := 0, scope := 0, part := 0, writes := [], own := false }
    let x : Prepare := { origin := 5, seq := 0, time := 4000, sess := 1, scope := 1, part := 0, confirmed := false }
    ({ at_ 200000 with drain := { base.drain with st := 2, commit := some a } } : State).quiet.drainLate = true ∧ a.own = false ∧
    ({ at_ 200000 with drain := { base.drain with st := 2, prepare := some x } } : State).quiet.drainLate = true := by decide +kernel
theorem test_hyps_PavilionCells_send :
    let s := (atUnit (.pavilion 15) 31).onPav 15 (fun v => { v with st := .up })
    s.live ∧ s.now (.pavilion 15) % 16 = 15 ∧ sendsCells (s.pav 15) = true ∧ s.pavUp 15 = true ∧ (s.pav 15).seen = [] ∧
      (∀ b, b < 9 → (s.pav 15).got.get 0 b < 4096) ∧ s.now (.pavilion 15) % 32 = 31 ∧
      sendsCells ((s.onPav 15 (fun v => { v with st := .laneSync })).pav 15) = false := by decide +kernel

/-- A cell header of cell 7, with no record. -/
def cellHeader : BitVec 256 := BitVec.ofNat 256 (0xB8 * 2 ^ 248 + 7 * 2 ^ 232 + 61540)

/-- The cell that bears it at a pavilion. -/
def cellAt (v : Pavilion) : Cell :=
  { bits := (cellHeader.setWidth 12800 <<< 12544) ^^^ (if v.rxSecond then lineKey.extractLsb' 0 12800 else lineKey.extractLsb' 12800 12800)
    firstBad := none, corrected := 0, uncorrectable := 0 }

theorem test_hyps_PavilionCells_header : ((cellHeader.setWidth 12800 <<< 12544).extractLsb' 12544 256) = cellHeader ∧
    headerDamaged cellHeader none = false ∧ bitsAt cellHeader.toNat 179 5 ≤ 22 := by decide +kernel
theorem test_hyps_PavilionCells_frame :
    let v := (base.onPav 15 (fun v => { v with st := .check })).pav 15
    let hdr : BitVec 256 := (v.plainCell (cellAt v)).extractLsb' 12544 256
    v.st = .check ∧ (cellAt v).firstBad = none ∧ headerDamaged hdr none = false ∧ bitsAt hdr.toNat 179 5 ≤ 22 := by
  have h : ∀ v : Pavilion, v.plainCell (cellAt v) = cellHeader.setWidth 12800 <<< 12544 := by
    intro v
    simp only [Pavilion.plainCell, cellAt, BitVec.xor_assoc, BitVec.xor_self, BitVec.xor_zero]
  simp only [h, test_hyps_PavilionCells_header]
  exact ⟨by decide +kernel, rfl, trivial, trivial⟩
theorem test_hyps_LinkTraining :
    let s := base.onPav 0 (fun v => { v with st := .laneSync })
    let up := (base.setWord 0x281001 (pavInst 1) 0 0 1).onPav 1 (fun v => { v with st := .up, badFrames := 8, badWords := List.replicate 100 0 })
    (s.pav 0).st = .laneSync ∧ up.pavUp 1 = true ∧ 8 ≤ (up.pav 1).badFrames ∧ up.val 0x280103 < 100 ∧
    ((at_ 20000000).onPav 0 (fun v => { v with st := .laneSync })).time = 20000000 ∧
    ((at_ 200000).onPav 0 (fun v => { v with st := .exchange })).time = 200000 ∧
    ((base.onPav 0 (fun v => { v with st := .measure, rounds := 16 })).pav 0).rounds = 16 ∧
    (base.onPav 0 (fun v => { v with st := .measure })).pavUp 0 = false ∧ (base.pav 0).roundAt.all (fun t => t + 256 ≤ base.now (.pavilion 0)) = true ∧
    (atUnit (.pavilion 3) 4096).now (.pavilion 3) = 4096 ∧ up.linked.head? ≠ some 3 ∧
    (((base.onPav 3 (fun v => { v with st := .up })).pav 3).rounds + 1) % 64 ≠ 0 := by decide +kernel
theorem test_hyps_DomainStates_doze :
    let s := (at_ 20000).onDom 135 (fun x => { x with st := .active })
    domainOf (.gallery 7) = some 135 ∧ (s.dom 135).st = .active ∧ (s.setVal 0x041201 20000).val 0x041201 ≠ 0 ∧
      (s.setVal 0x041201 20000).quiet.idleFor 135 20000 = true ∧ (s.setVal 0x041201 20000).quiet.domainMay 135 1 = true := by decide +kernel
theorem test_hyps_DomainStates_down :
    ((at_ 8000).onDom 0 (fun x => { x with st := .goingDown })).time = 8000 ∧ domainOf (.stair 0) = some 0 ∧
    ((at_ 40000).onDom 0 (fun x => { x with st := .waking })).time = 40000 ∧ (base.dom 0).supplyReset = false ∧ base.boot.progress = 3 ∧
    UnitId.stair 0 ∈ rejoinUnits 0 ∧ ((base.onSw (.stair 0) (fun w => { w with alu := 2 })).sw (.stair 0)).alu = 2 := by decide +kernel
theorem test_hyps_DomainStates_rejoin :
    let s := base.onDom 135 (fun x => { x with st := .rejoining, attempts := 2 })
    (s.dom 135).st = .rejoining ∧ UnitId.gallery 7 ∈ rejoinUnits 135 ∧ s.quiet.loadDue (.gallery 7) = false ∧ (s.dom 135).epochAt = s.ctl.epoch ∧
      (∀ v, v ∈ rejoinUnits 135 → v.code ∈ [(UnitId.gallery 7).code]) ∧
      (∃ v, v ∈ rejoinUnits 0 ∧ v.code ∉ [(UnitId.stair 0).code]) ∧ (s.onDom 135 (fun x => { x with attempts := 1 })).ctl.epoch ≠ 1 :=
  ⟨by decide +kernel, by decide +kernel, by decide +kernel, by decide +kernel, by decide +kernel, ⟨.landing 0, by decide +kernel⟩, by decide +kernel⟩
/-- The started block at a window of the power, with free value `n` to be drawn next. -/
def windowAt (n stage below : Nat) : State := { base with free := n, lim := { base.lim with stage := stage, above := 3, below := below } }

theorem windowAt_cap (n a b : Nat) : (windowAt n a b).quiet.capInForce = base.capInForce := rfl

/-- The estimate of the power is a free value, so that a window above the cap is met only if the value is; likewise one below it. -/
theorem test_hyps_PowerLimits (n : Nat) (h : 240 < (Config.freeBits 10 n).toNat) :
    (windowAt n 0 0).quiet.capInForce < (Config.freeBits 10 (windowAt n 0 0).free).toNat := by
  have : base.capInForce ≤ 240 := by decide +kernel
  rw [windowAt_cap, show (windowAt n 0 0).free = n from rfl]
  omega
theorem test_hyps_PowerLimits_low (n : Nat) (h : (Config.freeBits 10 n).toNat ≤ 90) :
    10 * (Config.freeBits 10 (windowAt n 2 15).free).toNat ≤ 9 * (windowAt n 2 15).quiet.capInForce ∧
      (windowAt n 2 15).quiet.leastStage < (windowAt n 2 15).lim.stage := by
  have : 100 ≤ base.capInForce := by decide +kernel
  rw [windowAt_cap, show (windowAt n 2 15).free = n from rfl]
  exact ⟨by omega, Nat.succ_pos 1⟩
theorem test_hyps_FaultEvents :
    (base.onSrc (.hall 0) (fun f => { f with slots := FMap.put [] 7 { active := true } })).quiet.slotDue (.hall 0) 7 = true ∧
    (let s := ({ at_ 2000 with doms := (List.range 140).map (fun d => (d, { st := .sleep })) } : State).onSrc (.stair 0) (fun f => { f with outbox := [0] })
     s.quiet.hallsCut (.stair 0) = true ∧ (s.node (.stair 0)).joinedAt + 2000 ≤ s.time) ∧ base.fw.changing = none ∧ base.react.st ≠ 3 ∧
    (let r : Reaction := { kind := 1, part := 0, fatal := false, ctx := 0, step := 0, inst := 0 }
     [r].find? (·.fatal) = none ∧ [r, { r with fatal := true }].find? (·.fatal) = some { r with fatal := true }) := by
  decide +kernel
theorem test_hyps_ObservationEvents :
    ({ base with obs := { base.obs with ctrState := 1 } } : State).obs.freezeAt ≤ base.time ∧
    ({ base with obs := { base.obs with traces := FMap.put [] (UnitId.stair 0).code { recs := [0, 0] } } } : State).quiet.traceDue (.stair 0) = true ∧
    ({ base with obs := { base.obs with traces := FMap.put [] (UnitId.hall 0).code { recs := [0, 0] } } } : State).quiet.traceDue (.hall 0) = true ∧
    awake.quiet.running (.stair 0) = true ∧ awake.quiet.running (.hall 0) = true ∧ base.quiet.streaming = false ∧
    ({ base.setVal 0x382101 1 with obs := { base.obs with bvReady := true } } : State).quiet.streaming = true ∧
    ({ base with obs := { base.obs with snap := { base.obs.snap with st := 1 } } } : State).obs.snap.ts ≤ base.time ∧
    base.quiet.areaBusy = false := by decide +kernel
theorem test_hyps_StartUp :
    base.live ∧ 139 ∈ base.domains ∧ (base.dom 139).st = .waking ∧ (base.dom 139).failed = false ∧ 3 ∈ (base.onPav 3 (fun v => { v with st := .up })).linked ∧
    ({ base with boot := { base.boot with requested := true } } : State).boot.requested = true ∧
    ({ base with boot := { base.boot with progress := 1 } } : State).boot.progress = 1 := by decide +kernel

/-- The smallest plan image: one chip, a frame of 256 slots, landing 0, no table; its SHA-384 was made outside the model. -/
def image : List Byte :=
  bytesOf 64 (0x5A56504C * 2 ^ 480 + 1 * 2 ^ 472 + 1 * 2 ^ 462 + 256 * 2 ^ 416 + 2 * 2 ^ 384 + 1 * 2 ^ 376 + 1 * 2 ^ 364 + 2 * 2 ^ 320 +
    496 * 2 ^ 288) ++
  bytesOf 16 (0x000A * 2 ^ 112 + 6 * 2 ^ 81 + 128 * 2 ^ 32 + 320) ++ bytesOf 16 (0x00FF * 2 ^ 112 + 6 * 2 ^ 81 + 448 * 2 ^ 32 + 48) ++
  List.replicate 32 0 ++ bytesOf 320 (2 ^ 512) ++
  bytesOf 48 0x6a990177c1b438b04dd1c1700723451621ee3c2324f869ed4ca7894b657ef7a4a4b7fc46651d379b1db71bb73e4fd42a

theorem test_hyps_ScheduledTraffic_image :
    let s : State := { base.setVal 0x180001 1 with plan := { base.plan with running := true, host := image } }
    s.plan.running = true ∧ s.plan.hostError = false ∧ s.quiet.planBytes = some image ∧
      (match (s.quiet.checkImage 5 image).1 with | .inl _ => true | .inr _ => false) = true ∧
      (match (s.quiet.checkImage 5 (image.set 0 1)).1 with | .inl _ => (0, 0) | .inr x => x) = (8, 1) := by decide +kernel

/-- The smallest firmware image: no section but its digest, whose SHA-384 was made outside the model. -/
def firmware : List Byte :=
  bytesOf 64 (0x5A564657 * 2 ^ 480 + 1 * 2 ^ 472 + 1 * 2 ^ 462 + 1 * 2 ^ 416 + 1 * 2 ^ 256 + 176 * 2 ^ 224) ++
  bytesOf 16 (0x00FF * 2 ^ 112 + 128 * 2 ^ 32 + 48) ++ List.replicate 48 0 ++
  bytesOf 48 0xfc4102e6fe4b7b48f987ef3ece794c183bd05626a508683efa4e13957fd815a48eb5ff32a62005ca9005f53efa8abc82

theorem test_hyps_FirmwareEvents_image :
    let s : State := { base.setVal 0x440001 1 with fw := { base.fw with loading := true, cold := true, host := firmware } }
    s.fw.loading = true ∧ s.quiet.firmwareBytes = some firmware ∧
      (match s.quiet.checkFirmware firmware with | .inl i => i.version.toNat | .inr _ => 0) = 1 ∧
      (match s.quiet.checkFirmware (firmware.set 0 1) with | .inl _ => 0 | .inr c => c) = 9 := by decide +kernel

/-! ## The packets at their units -/

theorem test_hyps_packets_write :
    [pk (hd 1 1 511) [0], pk { hd 2 1 0 with aux := 1 } [], pk (hd 7 1 0) [], pk (hd 8 5 0) [0], pk { hd 0x10 5 0 with mcast := 1 } [0],
      pk { hd 0x11 5 0 with mcast := 1 } [0]].all (fun p =>
        passesAt base 2047 p && decide (((base.takeRx (epUnit 2047) p).filter 2047 p.hdr).1 = .apply) &&
          ((base.takeRx (epUnit 2047) p).writeMiss 2047 p none).isNone) = true := by decide +kernel
theorem test_hyps_packets_mismatch :
    let p : Packet := { pk (hd 1 1 511) [0, 0] with permBad := some 1 }
    let s := base.onTile 2047 (fun t => { t with windows := FMap.put [] 63 { openedWindow 31 0 (desc_ 1 0) with permute := true, length := 128 } })
    passesAt s 2047 p = true ∧ ((s.takeRx (epUnit 2047) p).filter 2047 p.hdr).1 = .apply ∧
      (s.takeRx (epUnit 2047) p).writeMiss 2047 p none = some 1 := by decide +kernel
theorem test_hyps_packets_scheduled :
    let p := pk { hd 8 0 0 with cls := 1 } [0]
    let s := base.onTile 0 (fun t => { t with rxs := FMap.put [] 3 { desc := 0, filled := false } })
    passesAt s 0 p = true ∧ ((s.takeRx (epUnit 0) p).rxDesc 0 p).isSome = true ∧ ((s.takeRx (epUnit 0) p).filter 0 p.hdr).1 = .apply ∧
      (s.takeRx (epUnit 0) p).writeMiss 0 p ((s.takeRx (epUnit 0) p).rxDesc 0 p) = none := by decide +kernel
theorem test_hyps_packets_duplicate :
    let s := base.onEp 0 (fun e => { e with filter := [{ src := 0, stream := 0, base := 0, map := 1, last := 0 }] })
    passesAt s 0 (pk (hd 7 1 0) []) = true ∧ ((s.takeRx (epUnit 0) (pk (hd 7 1 0) [])).filter 0 (pk (hd 7 1 0) []).hdr).1 = .duplicate := by
  decide +kernel
theorem test_hyps_packets_lodge :
    let p := pk { hd 1 1 1023 with addr := 0x1FFFC0 } [0]
    passesAt base 2049 p = true ∧ ((base.takeRx (epUnit 2049) p).filter 2049 p.hdr).1 = .apply := by decide +kernel
theorem test_hyps_packets_host :
    let p := pk { hd 2 1 0 with aux := 32 } []
    passesAt base 2048 p = true ∧ ((base.takeRx (epUnit 2048) p).filter 2048 p.hdr).1 = .apply ∧ p.hdr.command ≠ 7#8 := by decide +kernel
theorem test_hyps_packets_switch : (base.quiet.bank { hd 0x10 5 0 with mcast := 1 }).isSome = true ∧ isSwitch (.hall 3) = true ∧
    (UnitId.pavilion 15).level = 4 := by decide +kernel
theorem test_hyps_packets_read :
    [0, 2047, 2048].all (fun e => let p := pk { hd 3 1 0 with aux := 64 } []
      passesAt base e p && !(base.takeRx (epUnit e) p).readsFull e && decide (((base.takeRx (epUnit e) p).filter e p.hdr).1 = .apply) &&
        !(base.takeRx (epUnit e) p).scrubbing e 0 4096) = true ∧
    passesAt base 2049 (pk { hd 3 1 1023 with aux := 1 } []) = true := by decide +kernel
theorem test_hyps_packets_response :
    [0, 2048].all (fun e =>
      let p := pk { hd 4 2 0 with stream := BitVec.ofNat 17 (streamOf e 63) } [0]
      let s := awaiting e 63 (newOutst (hd 3 1 0) 0 64)
      passesAt s e p && ((s.takeRx (epUnit e) p).openPacket e p.hdr).isSome && !(s.takeRx (epUnit e) p).scrubbing e 0 64 &&
        ((s.takeRx (epUnit e) p).permuteMiss e 0 false p).isNone) = true := by
  decide +kernel
theorem test_hyps_packets_ack :
    let p := pk { hd 5 2 0 with stream := 63 } []
    [newOutst (hd 1 1 0) 0 64, newOutst { hd 1 0 0 with cls := 1 } 0 64].all (fun o =>
      let s := awaiting 0 63 o
      passes s (.landing 0) p && decide ((s.takeRx (.landing 0) p).openPacket 0 p.hdr = some (63, o)) && !o.closing) = true := by decide +kernel
theorem test_hyps_packets_nack :
    let p := pk { hd 6 2 0 with stream := 63, aux := 3 } []
    let o : Outst := { newOutst (hd 1 1 0) 0 64 with sent := true }
    [o, { o with attempt := 3 }, { o with hdr := { hd 1 0 0 with cls := 1 } }].all (fun o =>
      let s := awaiting 0 63 o
      passes s (.landing 0) p && decide ((s.takeRx (.landing 0) p).openPacket 0 p.hdr = some (63, o)) &&
        decide (o.hdr.stamp = p.hdr.inl.setWidth 32) && !o.failed) = true := by decide +kernel
theorem test_hyps_packets_stair :
    let r : ReportRec := { hdr := hd 0x10 5 0, ports := [3], answered := [], delivered := [], fenced := [], expires := 0 }
    let s := base.onSw (.stair 127) (fun w => { w with reports := FMap.put [] 9 r })
    let p := pk (hd 5 2 0) []
    (((s.takeRx (.stair 127) p).sw (.stair 127)).reports.find? (fun r =>
        r.2.hdr.src == p.hdr.dst && r.2.hdr.stream == p.hdr.stream && r.2.hdr.seq == p.hdr.seq && r.2.ports.contains 3)) = some (9, r) ∧
      reservedOperand p.hdr = false ∧ reservedOperand (pk { hd 6 2 0 with aux := 1 } []).hdr = false := by decide +kernel
theorem test_hyps_packets_error :
    let p := pk { hd 0x35 2 0 with aux := 2 } []
    let o : Outst := { newOutst (hd 1 1 0) 0 64 with sent := true }
    [o, { o with hdr := { hd 1 0 0 with cls := 1 } }].all (fun o =>
      let s := awaiting 0 0 o
      passes s (epUnit 0) p && decide ((s.takeRx (epUnit 0) p).endedLaunch 0 p.hdr = none) &&
        decide ((s.takeRx (epUnit 0) p).openPacket 0 p.hdr = some (0, o)) &&
        decide (o.hdr.stamp = (unpackHeader (p.hdr.inl ++ 0#256)).stamp)) = true := by decide +kernel
theorem test_hyps_packets_error_launch :
    let p := pk { hd 0x35 2 0 with aux := 6 } []
    let s := (withColl 0 0).onEp 0 (fun e => { e with entries := FMap.put [] 0 { opcode := 12, handle := 4095, desc := some (unpackDesc 0) } })
    passes s (epUnit 0) p = true ∧ (s.takeRx (epUnit 0) p).endedLaunch 0 p.hdr = some 0 := by decide +kernel
theorem test_hyps_packets_report :
    let h : Header := { hd 0x10 5 0 with mcast := 1, dst := 7 }
    let o : Outst := { newOutst h 0 64 with sent := true }
    let s := (base.setWord 0x801001 8192 0 0 (7 * 2 ^ 18 + 1)).onEp 0 (fun e => { e with entries := FMap.put [] 0 { desc := some (unpackDesc 0), outst := [o] } })
    let p := pk { hd 0x12 2 0 with aux := 1 * 2 ^ 29 } []
    passes s (epUnit 0) p = true ∧ (s.takeRx (epUnit 0) p).openPacket 0 p.hdr = some (0, o) ∧ (p.hdr.stamp - o.hdr.stamp).toNat < 2 ^ 31 ∧
      ((s.takeRx (epUnit 0) p).entry 0 0).desc.isSome = true ∧ bitsAt p.hdr.aux.toNat 29 3 = 1 ∧ s.census 0 7 = some 1 ∧
      (s.setWord 0x801001 8192 0 0 (7 * 2 ^ 18 + 2)).census 0 7 = some 2 := by decide +kernel
theorem test_hyps_packets_scrub :
    let p := pk { hd 0x40 4 1023 with aux := 12288 } []
    passes base (epUnit 2047) p = true ∧ permits 2047 p.hdr = true ∧ p.hdr.addr.toNat + 64 * (p.hdr.aux.toNat % 2 ^ 14) ≤ 0xC0000 := by
  decide +kernel
theorem test_hyps_packets_scrub_done :
    let s := base.onTile 2047 (fun t => { t with scrubDue := some 0 })
    [12288, 12287].all (fun n => let p := pk { hd 0x41 4 1023 with src := 2047, aux := n } []
      passesAt s 2059 p && decide (localOf p.hdr.src = 2047) && decide (chipOf p.hdr.src = (s.takeRx (epUnit 2059) p).chipNo) &&
        ((s.takeRx (epUnit 2059) p).tile 2047).scrubDue.isSome && decide (sectorKeeper 2047 = 2059)) = true := by decide +kernel
theorem test_hyps_packets_trace :
    [UnitId.gallery 7, .hall 3, .special 2060].all (fun u => passes base u (pk (hd 0x33 4 1023) [0])) = true := by decide +kernel
theorem test_hyps_packets_fault :
    let m (n : Nat) : BitVec 128 := faultMessage 0 1 0 0x002 1 5 0 0 n
    badFault (m 0) = false ∧ ((findKind (fmKind (m 0))).map (·.k0)) = some false ∧ fmRepeat (m 0) = 0 ∧ fmRepeat (m 7) = 7 ∧
      base.gate.fifo.length < fifoLimit (fmClass (m 0)) := by decide +kernel
theorem test_hyps_packets_fault_held :
    let m : BitVec 128 := faultMessage 0 1 0 0x002 1 5 0 0 0
    let p := pk { hd 0x32 4 1023 with inl := m.setWidth 256 } []
    let s := base.onNode (.special 2050) (fun n => { n with rxDone := [p] })
    headerFault p.hdr = none ∧ (s.bankAt (.special 2050) p.hdr).isSome = true ∧ reservedOperand p.hdr = false ∧
      ((s.node (.special 2050)).rxDone.find? (fun x => x.hdr.command == 0x32#8 && x.hdr.inl.setWidth 128 == m)).isSome = true := by decide +kernel
theorem test_hyps_packets_beacon : passesAt base 2051 (pk (hd 0x34 4 1023) []) = true := by decide +kernel
theorem test_hyps_packets_drain_mark :
    let p := pk { hd 0x42 3 1023 with aux := 5 * 2 ^ 10 + 511 } []
    let s : State := { base with drain := { base.drain with st := 2, number := 5, parts := [511] } }
    headerFault p.hdr = none ∧ p.hdr.aux.toNat / 2 ^ 10 = ((s.quiet.takeRx (.hall 3) p).joinDrain p.hdr).drain.number ∧
      ((s.quiet.takeRx (.hall 3) p).joinDrain p.hdr).domState (.hall 3) ≠ .rejoining := by decide +kernel
theorem test_hyps_packets_drain_ack :
    let s : State := { base with drain := { base.drain with st := 2, number := 5, parts := [511] } }
    let p := pk { hd 0x43 4 1023 with aux := 5 * 2 ^ 10 + 511 } []
    [2051, 2052, 2059].all (fun e => passes s (epUnit e) p && decide (p.hdr.aux.toNat / 2 ^ 10 = (s.takeRx (epUnit e) p).drain.number)) = true := by
  decide +kernel

/-- A contribution of rank 0 to handle 4095, of 64 INT8 elements. -/
def contrib (n : Nat) : Packet := pk { hd 0x20 3 5 with coll := BitVec.ofNat 32 (4095 * 2 ^ 9), inl := BitVec.ofNat 256 n } [0]

/-- The contribution of the other chip of two, of the chips that the first of the cross-chip stages sends here: its partial of 64 elements. -/
def stepPartial : Packet :=
  pk { hd 0x20 3 5 with coll := BitVec.ofNat 32 (4095 * 2 ^ 9 + 2 ^ 22), src := 4096, inl := 5 * 2 ^ 24 + 64, aux := 2 ^ 31 + 2 } (List.replicate 8 0)

/-- A collective of 64 elements over two chips. -/
def twoChips : State := ((withColl (2 ^ 47 + 2 ^ 31) (64 * 2 ^ 16)).setVal 0x101003 1).setWord 0x101001 0 1 0 1


theorem test_hyps_collectives_switch :
    let s := withColl 0 (64 * 2 ^ 16)
    passes s (.stair 0) (contrib 64) = true ∧ ((s.takeRx (.stair 0) (contrib 64)).sw (.stair 0)).aluForces = [] ∧
      (s.coll 4095).ended = false ∧ (s.takeRx (.stair 0) (contrib 64)).suits (.stair 0) (contrib 64) = true ∧
      makerOf (contrib 64).hdr ≠ 5 ∧ chipCount (s.desc 4095) ≤ 1 ∧ s.suits (.stair 0) (contrib 65) = false := by decide +kernel
theorem test_hyps_collectives_stage :
    passes twoChips (.hall 0) stepPartial = true ∧ makerOf stepPartial.hdr = 5 ∧
      (twoChips.takeRx (.hall 0) stepPartial).suits (.hall 0) stepPartial = true ∧
      ((twoChips.takeRx (.hall 0) stepPartial).sw (.hall 0)).aluForces = [] := by decide +kernel
theorem test_hyps_collectives_root :
    let s := withColl 0 (64 * 2 ^ 16)
    let q := s.takeRx (.landing 0) (contrib 64)
    let a := q.tapBytes 0 true (contrib 64).hdr.src (contrib 64).hdr.stream (contrib 64).hdr.seq (unitBytes (contrib 64).data)
    passesAt s 0 (contrib 64) = true ∧ (q.sw (.landing 0)).aluForces = [] ∧ (a.coll 4095).ended = false ∧
      a.suits (.landing 0) (contrib 64) = true ∧ (a.answerRetained 0 (contrib 64)).isNone = true := by decide +kernel
theorem test_hyps_collectives_fold :
    let s := ((withColl (2 ^ 47 + 2 ^ 31) (9 * 2 ^ 48 + 7 * 2 ^ 44 + 8 * 2 ^ 16)).setVal 0x101003 1).setWord 0x101001 0 1 0 1
    let p := pk { hd 0x20 3 5 with coll := BitVec.ofNat 32 (9 * 2 ^ 28 + 7 * 2 ^ 24 + 4095 * 2 ^ 9), src := 4096, mcast := 1
                                   inl := 4 * 2 ^ 24 + 8, aux := 2 ^ 31 + 2 } [0]
    let q := s.takeRx (.landing 0) p
    let a := q.tapBytes 0 true p.hdr.src p.hdr.stream p.hdr.seq (unitBytes p.data)
    passesAt s 0 p = true ∧ a.suits (.landing 0) p = true ∧ (a.answerRetained 0 p).isNone = true := by decide +kernel
theorem test_hyps_collectives_result :
    let s := withColl 0 (64 * 2 ^ 16)
    let p := pk { hd 0x21 3 5 with coll := BitVec.ofNat 32 (4095 * 2 ^ 9), mcast := 1, inl := 64 } [0]
    let q := s.takeRx (.landing 1) p
    passesAt s 1 p = true ∧ ((q.bankAt (.landing 1) p.hdr).map (fun b => b.holdsDesc 4095 && decide (b.handleOwner 4095 = 5) &&
      (memberIndex (b.desc 4095) 1).isSome && !q.scrubbing 1 (dOut (b.desc 4095)) 64 &&
        (q.permuteMiss 1 (dOut (b.desc 4095)) false p).isNone)) = some true ∧ q.gathered p.hdr = false := by decide +kernel
theorem test_hyps_collectives_gather :
    let p := pk { hd 0x21 3 5 with coll := BitVec.ofNat 32 (4095 * 2 ^ 9), src := 4096, inl := 64 } [0]
    passes twoChips (.hall 0) p = true ∧ (twoChips.takeRx (.hall 0) p).gathered p.hdr = true ∧
      (((twoChips.takeRx (.hall 0) p).bankAt (.hall 0) p.hdr).map (fun b => b.holdsDesc 4095 && decide (b.handleOwner 4095 = 5))) = some true := by
  decide +kernel
theorem test_hyps_collectives_arrival :
    let s := withColl 0 (64 * 2 ^ 16)
    let p := pk { hd 0x22 3 5 with coll := BitVec.ofNat 32 (4095 * 2 ^ 9), inl := 64, aux := 1, src := 1 } []
    let q := s.takeRx (epUnit 0) p
    passesAt s 0 p = true ∧ q.holdsDesc 4095 = true ∧ q.handleOwner 4095 = 5 ∧ p.hdr.length = 0#7 ∧ q.toRootGroup p.hdr = false ∧
      0 = chipRoot (q.desc 4095) ∧ (q.filter 0 p.hdr).1 = .apply := by decide +kernel
theorem test_hyps_collectives_go :
    let s := withColl 0 (64 * 2 ^ 16)
    let p := pk { hd 0x22 3 5 with coll := BitVec.ofNat 32 (4095 * 2 ^ 9), inl := 64, mcast := 1, dst := 9 } []
    passesAt s 1 p = true ∧ s.toRootGroup p.hdr = false ∧ chipOf p.hdr.src = s.chipNo ∧ localOf p.hdr.src = chipRoot (s.desc 4095) := by
  decide +kernel
theorem test_hyps_collectives_roots :
    let p := pk { hd 0x22 3 5 with coll := BitVec.ofNat 32 (4095 * 2 ^ 9), inl := 64, mcast := 1, src := 4096, aux := 2 } []
    let q := twoChips.takeRx (epUnit 0) p
    let f := (q.filter 0 p.hdr).2
    passesAt twoChips 0 p = true ∧ q.toRootGroup p.hdr = true ∧ (q.filter 0 p.hdr).1 = .apply ∧ 0 = chipRoot (f.desc 4095) ∧
      1 ≠ chipRoot (f.desc 4095) ∧ (((f.ack 0 p.hdr 0).onColl 4095 (fun c => { c with
        rootCounts := c.rootCounts.filter (fun r => r.1 != 2) ++ [(2, 64)] })).coll 4095).rootCounts.length ≠ chipCount (f.desc 4095) := by
  decide +kernel
theorem test_hyps_collectives_reserve :
    let s := (withColl 0 (64 * 2 ^ 16)).onPart 5 (fun p => { p with quotas := (16, 16, 16) })
    let p (n : Nat) := pk { hd 0x23 3 5 with coll := BitVec.ofNat 32 (4095 * 2 ^ 9), aux := BitVec.ofNat 32 n } []
    passes s (.stair 0) (p 16) = true ∧ (s.takeRx (.stair 0) (p 16)).grants (.stair 0) (p 16).hdr = true ∧
      (s.takeRx (.stair 0) (p 17)).grants (.stair 0) (p 17).hdr = false ∧
      passes s (.stair 0) (pk { hd 0x26 3 5 with coll := BitVec.ofNat 32 (4095 * 2 ^ 9) } []) = true := by decide +kernel
theorem test_hyps_collectives_answer :
    let p := pk { hd 0x24 2 5 with coll := BitVec.ofNat 32 (4095 * 2 ^ 9) } []
    let o := newOutst (hd 0x23 3 5) 0 0
    let s := awaiting 0 0 o
    passes s (epUnit 0) p = true ∧ (s.takeRx (epUnit 0) p).openPacket 0 p.hdr = some (0, o) ∧ o.hdr.command = 0x23#8 := by decide +kernel
theorem test_hyps_collectives_hall :
    let p := pk { hd 0x25 2 5 with coll := BitVec.ofNat 32 (4095 * 2 ^ 9) } []
    let s := twoChips.onColl 4095 (fun c => { c with asked := [(0, 0)] })
    passes s (epUnit 0) p = true ∧ (s.takeRx (epUnit 0) p).openPacket 0 p.hdr = none ∧ (s.takeRx (epUnit 0) p).isSpanRoot 4095 0 = true ∧
      ((s.takeRx (epUnit 0) p).coll 4095).asked.any (fun a => a.1 == p.hdr.plane.toNat) = true := by decide +kernel
theorem test_hyps_collectives_timer :
    let x : ReportRec := { hdr := h0, ports := [], answered := [], delivered := [], fenced := [], expires := 0 }
    let s := base.onSw (.stair 127) (fun w => { w with reports := FMap.put [] 4095 x })
    (s.sw (.stair 127)).reports.find 4095 = some x ∧ x.expires ≤ s.now (.stair 127) := by decide +kernel

/-! ## Results from the tables and examples of spec/ -/

/-- 02, the example at its end: the top 64 bits of the WRITE header. -/
theorem test_header_write :
    (packHeader { h0 with version := 1, vc := 1, command := 1, tag := 0xB, part := 17, src := 0x54D2, dst := 0x5025 }).toNat / 2 ^ 448 =
      0x4405608802A69002 := by decide +kernel
/-- 02 R57: the check value of the CRC-32C over the nine ASCII digits. -/
theorem test_crc32c : crcRefl 0x82F63B78#32 72 0x393837363534333231 0xFFFFFFFF#32 ^^^ 0xFFFFFFFF#32 = 0xE3069283#32 := by decide +kernel
/-- 05 R141: the check value of the CRC-64 over the nine ASCII digits. -/
theorem test_crc64 : crc64 [0x31, 0x32, 0x33, 0x34, 0x35, 0x36, 0x37, 0x38, 0x39] 0 = 0x6C40DF5F0B497347#64 := by decide +kernel
/-- 00, the example after R17: landing 1234 lies in stair 77 and gallery 4, which keeper 5 serves. -/
theorem test_numbers : domainOf (.landing 1234) = some 77 ∧ sectorKeeper 1234 = 2056 := by decide +kernel
/-- 02 R55: with the first data bit alone set, position 3 sets c0 and c1, and c8 is the parity of three ones. -/
theorem test_secded_first_bit : secded 160 1 = 0x103 := by decide +kernel
/-- 02 R55: data bit 4 stands at position 9. -/
theorem test_secded_fifth_bit : secded 128 16 = 0x109 := by decide +kernel
/-- 02 R40: valid, slot 1,000,000 mod 64 = 0, even parity. -/
theorem test_hop_word : hopWord false false 1000000 = 0x201 := by decide +kernel
/-- 04 R96: three units freed from VC2, even parity. -/
theorem test_credit_word : creditWordOf 2 3 = 0x087 := by decide +kernel
/-- 06, the four FP16 inputs added exactly. -/
theorem test_sum_fp16 :
    (accResult 0 (fmtOf 5) 24 false (([0x3C00, 0x1000, 0x1000, 0xBC00].map (sumInput (fmtOf 5) 24)).foldl (accJoin 0 (fmtOf 5) (accWidth (fmtOf 5) false)) (.sum 0 0))).1 =
      0x1400 := by decide +kernel
/-- 06, the same with +0 for the last input. -/
theorem test_sum_fp16_zero :
    (accResult 0 (fmtOf 5) 24 false (([0x3C00, 0x1000, 0x1000, 0].map (sumInput (fmtOf 5) 24)).foldl (accJoin 0 (fmtOf 5) (accWidth (fmtOf 5) false)) (.sum 0 0))).1 =
      0x3C01 := by decide +kernel
/-- 06 R150: 127 + 1 saturates INT8, and wraps to -128 with integer wrap. -/
theorem test_sum_int8 : sumResult (fmtOf 0) 0 false 128 0 = (0x7F, { sat := true }) ∧ sumResult (fmtOf 0) 0 true 128 0 = (0x80, {}) := by
  decide +kernel
/-- 06, the beam-search example: rank 1 wins the tie on 12.0 with index 8,812. -/
theorem test_argmax :
    accJoin 7 (fmtOf 5) 0 (.val (3 * 2 ^ 104 + 301 * 2 ^ 64 + 0x4A00)) (.val (1 * 2 ^ 104 + 8812 * 2 ^ 64 + 0x4A00)) =
      .val 0x000001000000226C0000000000004A00 := by decide +kernel
/-- 06, row A of the softmax example. -/
theorem test_lse_row_a :
    lseFold [(0x40000000, 0x3FC00000), (0xFF800000, 0), (0x40400000, 0x3F800000), (0xFF800000, 0)] = (0x40400000, 0x3FC6A203) := by decide +kernel
/-- 06, row B of the softmax example. -/
theorem test_lse_row_b :
    lseFold [(0x40A00000, 0x3F800000), (0x7F800000, 0x3F800000), (0x3F800000, 0x40400000), (0x7F800000, 0x40000000)] =
      (0x7F800000, 0x40400000) := by decide +kernel

/-- 05 R134: ADD wraps modulo 2^32, and the response carries the new value with status 0. -/
theorem test_sem_add :
    let t := after (.semAdd 0 3 12 2) (awake.onTile 0 (fun t => { t with sems := FMap.put [] 12 0xFFFFFFFF }))
    t.sem 0 12 = 1 ∧ t.outs = [.tpSemr 0 (BitVec.ofNat 40 (3 * 2 ^ 35 + 1))] := by decide +kernel
/-- 05 R134: WAIT_TAKE on a value that is reached subtracts the operand and answers the difference. -/
theorem test_sem_wait_take :
    let t := after (.semWaitTake 0 3 12 5) (awake.onTile 0 (fun t => { t with sems := FMap.put [] 12 7 }))
    t.sem 0 12 = 2 ∧ t.outs = [.tpSemr 0 (BitVec.ofNat 40 (3 * 2 ^ 35 + 2))] ∧ (t.tile 0).waits = [] := by decide +kernel
/-- 05 R134: values are signed, so 0xFFFFFFFF does not reach 0. -/
theorem test_sem_wait_signed :
    let t := after (.semWait 0 3 12 0) (awake.onTile 0 (fun t => { t with sems := FMap.put [] 12 0xFFFFFFFF }))
    t.outs = [] ∧ ((t.tile 0).waits.find 3).isSome = true := by decide +kernel
/-- 05 R120: a request to a free arbiter is granted and the pointer moves past the client. -/
theorem test_injection_request :
    let t := after (.injectionRequest 0 3) awake
    t.outs = [.tpGrant 0 8] ∧ (t.tile 0).ptr = 4 := by decide +kernel
/-- 12 R323: a doorbell writes the producer at byte 4 of the control block, low byte first. -/
theorem test_doorbell :
    let t := after (.doorbell 1 0x00010203) base
    (List.range 5).map (fun i => sramByte t.lodge.sram (68 + i)) = [3#8, 2#8, 1#8, 0#8, 0#8] := by decide +kernel
/-- 14 R358, R359: an SRAM write of one enabled byte is read back. -/
theorem test_sram :
    let t := after (.sramWrite 0 1 64 [(0xAB00, 2)]) base
    sramByte t.lodge.sram 65 = 0xAB#8 ∧ sramByte t.lodge.sram 64 = 0#8 ∧ t.outs = [.hlResp (BitVec.ofNat 64 (2 ^ 56)) []] := by decide +kernel
/-- 12 R329: a read of an empty queue is a bus error (status 1 at the host port). -/
theorem test_channel_empty :
    let t := after (.chRead true 7 1 5 1) chan5
    t.outs = [.hlResp (BitVec.ofNat 64 (2 ^ 56 + 2 ^ 52)) []] := by decide +kernel
/-- 12 R328: a word of the peer goes out to the owner with the peer's identity. -/
theorem test_channel_peer :
    let t := after (.chWrite true 9 1 5 [0xABCD]) chan5
    (t.chan 5).outq = [(0xABCD, 9)] ∧ (t.chan 5).inq = [] := by decide +kernel
/-- 09 R242: the first session is number 1. -/
theorem test_session_open :
    let t := after (.sessionOpen (.host 0) 9 0 2 0xFFFF) base
    t.outs = [.dictResp (.host 0) (BitVec.ofNat 32 (6 * 2 ^ 28 + 9 * 2 ^ 20 + 1 * 2 ^ 12)) [] 0] := by decide +kernel
/-- 09 R242: a right above 2 is refused with status 5. -/
theorem test_session_right :
    let t := after (.sessionOpen (.host 0) 9 0 3 0xFFFF) base
    t.outs = [.dictResp (.host 0) (BitVec.ofNat 32 (6 * 2 ^ 28 + 9 * 2 ^ 20 + 5 * 2 ^ 8)) [] 0] := by decide +kernel
/-- 10 R286: 105 degrees is the throttle temperature, in sixteenths. -/
theorem test_throttle_edge : (after (.thermalThrottle 2 1679) base).lim.throttle = false ∧ (after (.thermalThrottle 2 1680) base).lim.throttle = true ∧
    (after (.thermalThrottle 2 1680) base).lim.stage = 2 := by decide +kernel
/-- 14 R366: the cap of the power-management core is clamped to 100 and 240. -/
theorem test_cap : (after (.plCapChange 99) base).lim.capCore = 100 ∧ (after (.plCapChange 255) base).lim.capCore = 240 := by decide +kernel
/-- 08 R226: the fourth retrain within a second fails the link; the third does not. -/
theorem test_retrain_limit :
    ((after (.rxrdyFall 0 0) (base.onPav 0 (fun v => { v with st := .up, retrains := [0, 0] }))).pav 0).st = .laneSync ∧
    ((after (.rxrdyFall 0 0) (base.onPav 0 (fun v => { v with st := .up, retrains := [0, 0, 0] }))).pav 0).st = .failed := by decide +kernel
/-- 14 R352: a gatehouse memory that fails its self-test is fatal, and the link to the host does not come up. -/
theorem test_self_test :
    let t := after (.selfTestComplete 140 .gatehouseMemory) { base with boot := { base.boot with progress := 1, present := false } }
    t.boot.progress = 4 ∧ t.boot.present = false := by decide +kernel
/-- 11 R299: the first-fault record is cleared by a privileged write of 1. -/
theorem test_first_fault_clear :
    let s : State := { base with fw := { base.fw with st := .attached }, gate := { base.gate with first := 5 }
                                 ctl := { base.ctl with sessions := FMap.put [] 1 ⟨2, 0, .host 0, 0⟩ } }
    let t := after (.firstFaultClear (.host 0) 1 1) s
    t.gate.first = 0 ∧ t.outs = [.dictResp (.host 0) (msgHeader 2 0 1 0 1)
      [{ idx := 0x3004, sub := 2, inst := 0, row := 0, word := 0, outcome := 0, value := 1 }] 0] := by decide +kernel

end Sys2Proof.Tests
end

section
/-!
# PROOFS. 01, the fabric architecture: the start-up, the commands of the fabric, the governors

The three statements of this family. Most clauses say what the body of one command does in one of its cases, so the lemmas below
give each body one equation for each case; the rest are frames: what the answers that a command sends leave alone, and what a fold of
one update over many keys does to each key.
-/
namespace Sys2Proof

/-! ## Folds of one update over many keys -/

/-- A fold whose every step keeps a part of the state keeps that part. -/
theorem foldl_keeps {σ α β : Type} (g : σ → β) (f : σ → α → σ) (h : ∀ s a, g (f s a) = g s) (l : List α) (s : σ) :
    g (l.foldl f s) = g s := by
  induction l generalizing s with
  | nil => rfl
  | cons a l ih => rw [List.foldl_cons, ih, h]

namespace FMap
variable {α : Type}

/-- A table built by a function over a list of keys holds the function's value at each of them. -/
theorem get_map_of_mem (d : α) (f : Nat → α) {l : List Nat} {k : Nat} (h : k ∈ l) : get d (l.map (fun x => (x, f x))) k = f k := by
  induction l with
  | nil => cases h
  | cons x l ih =>
    by_cases hx : x = k
    · simp [get, hx]
    · simp [get, hx, ih ((List.mem_cons.mp h).resolve_left (Ne.symm hx))]

/-- Writes at keys that depend on nothing but the key: the table holds the value written at each of them. -/
theorem find_foldl_put_of_mem (g : Nat → α) {l : List Nat} (m : FMap α) {k : Nat} (h : k ∈ l) :
    find (l.foldl (fun (m : FMap α) x => m.put x (g x)) m) k = some (g k) := by
  induction l using List.reverseRecOn with
  | nil => cases h
  | append_singleton l x ih =>
    rw [List.foldl_append, List.foldl_cons, List.foldl_nil]
    by_cases hx : k = x
    · rw [hx, find_put_same]
    · rw [find_put_other _ _ _ _ hx]
      exact ih ((List.mem_append.mp h).resolve_right (by simpa using hx))

end FMap
end Sys2Proof

namespace Sys2Proof.Machine

/-! ## The dispatch of this family's commands -/

theorem exec_slotBoundary (u : UnitId) (s : State) : exec (.slotBoundary u) s = execSlotBoundary u s := rfl
theorem exec_unitArrival (u : UnitId) (port : Nat) (f : Flit) (hop : BitVec 10) (s : State) :
    exec (.unitArrival u port f hop) s = execUnitArrival u port f hop s := rfl
theorem exec_creditWord (u : UnitId) (port : Nat) (w : BitVec 9) (s : State) :
    exec (.creditWord u port w) s = execCreditWord u port w s := rfl
theorem exec_fabricTimeLoad (u : UnitId) (s : State) : exec (.fabricTimeLoad u) s = execFabricTimeLoad u s := rfl
theorem exec_governorClockRequest (u : UnitId) (cause : GovCause) (s : State) :
    exec (.governorClockRequest u cause) s = execGovernorClockRequest u cause s := rfl
theorem exec_governorConditionClear (u : UnitId) (s : State) :
    exec (.governorConditionClear u) s = execGovernorConditionClear u s := rfl
theorem exec_governorClearTimeout (u : UnitId) (s : State) : exec (.governorClearTimeout u) s = execGovernorClearTimeout u s := rfl
theorem exec_selfTestComplete (d : Nat) (r : SelfTest) (s : State) :
    exec (.selfTestComplete d r) s = execSelfTestComplete d r s := rfl
theorem exec_resetRequest (s : State) : exec .resetRequest s = execResetRequest s := rfl
theorem exec_resetRequestWithdraw (s : State) : exec .resetRequestWithdraw s = execResetRequestWithdraw s := rfl

/-- A command that runs to a state which already has the queue, the build and the reset pin as they were answers that very state. -/
theorem Runs.exec_eq {c : Instr} {s t : State} (h : Runs c s t) (hpending : t.pending = s.pending) (hbuild : t.build = s.build)
    (hreset : t.boot.inReset = s.boot.inReset) : exec c s = .next t := by
  rw [h, s.framed_eq t hpending hbuild hreset]

/-! ## What a fault, an event and an answer leave alone -/

@[simp] theorem State.raiseFor_boot (s : State) (holder u : UnitId) (sub kind part ctx : Nat) :
    (s.raiseFor holder u sub kind part ctx).boot = s.boot := by
  simp only [State.raiseFor]
  split <;> simp

@[simp] theorem State.raiseFor_doms (s : State) (holder u : UnitId) (sub kind part ctx : Nat) :
    (s.raiseFor holder u sub kind part ctx).doms = s.doms := by
  simp only [State.raiseFor]
  split <;> simp

@[simp] theorem State.event_doms (s : State) (u : UnitId) (port ev part vc reason n : Nat) :
    (s.event u port ev part vc reason n).doms = s.doms := by
  simp only [State.event, State.onCtrs]
  split
  · split <;> rfl
  · rfl

@[simp] theorem State.trace_doms (s : State) (u : UnitId) (type part time body : Nat) : (s.trace u type part time body).doms = s.doms := by
  simp only [State.trace]
  split <;> rfl

@[simp] theorem State.malformed_doms (s : State) (u : UnitId) (port : Nat) (h : Header) : (s.malformed u port h).doms = s.doms := by
  simp [State.malformed, State.raise, State.traceDrop]

@[simp] theorem State.readServed_doms (s : State) (e : Nat) (h : Header) : (s.readServed e h).doms = s.doms := by
  simp only [State.readServed]
  split
  · split <;> simp
  · rfl

@[simp] theorem State.queueTx_doms (s : State) (e : Nat) (kind : TxKind) (h : Header) (data : List Payload) (entry : Nat) :
    (s.queueTx e kind h data entry).doms = s.doms := by
  simp only [State.queueTx]
  split <;> simp

/-! ## A PREPARE that is taken late wakes no domain (09 R259) -/

@[simp] theorem State.answerPrepare_doms (s : State) (r : Record) (status : Nat) : (s.answerPrepare r status).doms = s.doms :=
  s.queueTx_doms _ _ _ _ _

@[simp] theorem State.drainForPrepare_doms (s : State) (x : Prepare) (parts : List Nat) : (s.drainForPrepare x parts).doms = s.doms := by
  simp only [State.drainForPrepare, State.openDrain]
  split
  · simp
  · split <;> simp

/-- The checks of R257 draw free values; they touch no domain. -/
@[simp] theorem State.commitFails_doms (s : State) (ws : List StagedWrite) : (s.commitFails ws).2.doms = s.doms := by
  simp only [State.commitFails]
  split; · rfl
  split; · rfl
  split; · rfl
  split; · rfl
  refine foldl_keeps (fun r : Option Nat × State => r.2.doms) _ (fun r p => ?_) _ _
  split
  · rfl
  · split <;> rfl

@[simp] theorem State.takePrepare_doms (s : State) (r : Record) : (s.takePrepare r).doms = s.doms := by
  simp only [State.takePrepare]
  split
  · rfl
  · split
    · simp [State.clampPut]
    · split <;> simp

theorem State.takeLate_doms (s : State) : s.takeLate.doms = s.doms := by
  simp only [State.takeLate]
  split
  · rfl
  · exact foldl_keeps State.doms _ (fun t _ => t.takePrepare_doms _) _ _

/-- The state of a domain is read from the table of domains alone. -/
theorem State.domState_of_doms {s t : State} (h : t.doms = s.doms) (u : UnitId) : t.domState u = s.domState u := by
  simp only [State.domState, State.dom, h]

/-! ## The start-up (14 R351 to R353) -/

/-- The end of the control domain's test powers every domain (R352 step 3). -/
theorem State.controlUp_dom (s : State) {d : Nat} (h : d ∈ s.domains) :
    s.controlUp.dom d = { st := .waking, since := s.time, poweredAt := s.time } :=
  FMap.get_map_of_mem _ (fun _ => ({ st := .waking, since := s.time, poweredAt := s.time } : Domain)) h

/-- K0 sends its own time to the units of every domain that it powers (01 R26). -/
theorem State.controlUp_load (s : State) {d : Nat} (h : d ∈ s.domains) :
    s.controlUp.loads.find d = some { value := BitVec.ofNat 64 s.time, left := (rejoinUnits d).map UnitId.code } :=
  FMap.find_foldl_put_of_mem
    (fun d => ({ value := BitVec.ofNat 64 s.time, left := (rejoinUnits d).map UnitId.code } : TimeLoad)) s.loads h

/-- The self-test of a domain that wakes while the block is up is the test of that domain. -/
theorem runs_selfTest_waking {s : State} {d : Nat} (hs : s.live) (r : SelfTest) (hp : s.boot.progress = 3) (hd : d ∈ s.domains)
    (hw : (s.dom d).st = .waking) (hf : (s.dom d).failed = false) : Runs (.selfTestComplete d r) s (s.quiet.domainTested d r) := by
  have hp' : s.quiet.boot.progress = 3 := hp
  have hw' : (s.quiet.dom d).st = .waking := hw
  have hf' : (s.quiet.dom d).failed = false := hf
  have hd' : d ∈ s.quiet.domains := hd
  refine runs_up hs (exec_selfTestComplete d r s) ?_
  simp [hp', hw', hf', hd']

theorem State.failDomain_progress (s : State) (d : Nat) : (s.failDomain d).boot.progress = s.boot.progress := by
  simp only [State.failDomain]
  split
  · simp [State.fresh, State.testResult]
  · rw [foldl_keeps (fun t : State => t.boot.progress)]
    · simp [State.fresh, State.testResult]
    · intro t i
      split
      · rfl
      · simp [State.testResult]

theorem State.failAlu_progress (s : State) (d : Nat) : (s.failAlu d).boot.progress = s.boot.progress := by
  simp [State.failAlu, State.fresh, State.testResult]

/-- After the start-up a domain that passes its test only publishes the result: its rejoin goes on. -/
theorem State.domainTested_pass (s : State) (d : Nat) (hp : s.boot.progress = 3) : s.domainTested d .pass = s.testResult d 0 := by
  simp [State.domainTested, State.testResult, hp]

theorem State.domainTested_bufferFailed (s : State) (d : Nat) (hp : s.boot.progress = 3) :
    s.domainTested d .bufferFailed = s.failDomain d := by
  simp [State.domainTested, s.failDomain_progress d, hp]

theorem State.domainTested_combiningFailed (s : State) (d : Nat) (hp : s.boot.progress = 3) :
    s.domainTested d .combiningFailed = s.failAlu d := by
  simp [State.domainTested, s.failAlu_progress d, hp]

/-- An update of some pavilions changes the table of pavilions alone. -/
theorem State.foldl_onPav_eq (f : Pavilion → Pavilion) (l : List Nat) (s : State) :
    l.foldl (fun s p => s.onPav p f) s = { s with pavs := (l.foldl (fun s p => s.onPav p f) s).pavs } := by
  induction l generalizing s with
  | nil => rfl
  | cons p l ih => rw [List.foldl_cons, ih]; rfl

/-- The pavilions that are told to go down do so for the same number of cells, and no other. -/
theorem State.foldl_goingDown (n : Nat) (l : List Nat) (s : State) (k : Nat) :
    ((l.foldl (fun s p => s.onPav p (fun v => { v with goingDown := n })) s).pav k).goingDown =
      if k ∈ l then n else (s.pav k).goingDown := by
  induction l generalizing s with
  | nil => simp
  | cons p l ih =>
    rw [List.foldl_cons, ih]
    by_cases hk : k = p
    · simp [hk]
    · simp [hk, s.pav_onPav_other p k _ hk]

/-- A request for the reset: it is acknowledged, and every linked pavilion announces for 8 cells that it goes down (R351). -/
def State.resetAsked (s : State) : State :=
  s.linked.foldl (fun s p => s.onPav p (fun v => { v with goingDown := 8 }))
    { s with boot := { s.boot with requested := true, ackLow := true } }

theorem State.resetAsked_eq (s : State) :
    s.resetAsked = { s with boot := { s.boot with requested := true, ackLow := true }, pavs := s.resetAsked.pavs } :=
  State.foldl_onPav_eq _ _ _

theorem State.resetAsked_goingDown (s : State) (k : Nat) :
    (s.resetAsked.pav k).goingDown = if k ∈ s.linked then 8 else (s.pav k).goingDown :=
  State.foldl_goingDown 8 s.linked _ k

theorem runs_resetRequest {s : State} (hs : s.live) : Runs .resetRequest s s.quiet.resetAsked := runs_up hs (exec_resetRequest s) rfl

/-! ## Arrivals and slot boundaries (01 R27; 15 R380) -/

/-- A unit without its presence bit is none. -/
theorem State.arrive_absent (s : State) (u : UnitId) (port : Nat) (f : Flit) (hop : BitVec 10) (h : hop.toNat.testBit 9 = false) :
    s.arrive u port f hop = s := by
  simp [State.arrive, h]

/-- The place that a unit takes in the alignment buffer of the port at which it arrives (02 R40). -/
def State.alignedAt (s : State) (u : UnitId) (port : Nat) (f : Flit) (hop : BitVec 10) : Aligned :=
  { flit := f, release := hopDeparture hop (s.now u) + s.linkLatency u port, esc := hop.toNat.testBit 8, bad := oddOnes 10 hop.toNat
    forced := hop.toNat.testBit 1 }

/-- A unit that comes before its release slot waits where there is room. -/
theorem State.arrive_waits (s : State) (u : UnitId) (port : Nat) (f : Flit) (hop : BitVec 10) (h : hop.toNat.testBit 9 = true)
    (hr : s.running u = true) (ht : s.now u < (s.alignedAt u port f hop).release) (hl : (s.inPort u port).align.length < 4) :
    s.arrive u port f hop = s.onIn u port (fun p => { p with align := p.align ++ [s.alignedAt u port f hop] }) := by
  simp only [State.alignedAt] at ht ⊢
  simp only [State.arrive, h, hr]
  rw [if_neg (by simp), if_neg (by omega)]

/-- A unit that comes at its release slot or later is discarded, and reported under the packet that it belongs to. -/
theorem State.arrive_late (s : State) (u : UnitId) (port : Nat) (f : Flit) (hop : BitVec 10) (x : Header) (h : hop.toNat.testBit 9 = true)
    (hr : s.running u = true) (ht : (s.alignedAt u port f hop).release ≤ s.now u)
    (hx : s.packetOf u port (s.alignedAt u port f hop) f (s.alignedAt u port f hop).release = some x) :
    s.arrive u port f hop =
      ((s.event u port 0x0B x.part.toNat (vcOf x) 0 1).dropHeader u port 4 x).raise u 1 0x004 x.part.toNat (ctxPacket port x) := by
  simp only [State.alignedAt] at ht hx
  simp only [State.arrive, h, hr]
  rw [if_neg (by simp), if_pos (Or.inl ht), hx]

/-- The slot that begins at a unit. -/
def State.nextSlot (s : State) (u : UnitId) : Nat := (s.now u + 1) % 2 ^ 64

/-- The counter of a unit's island advances. -/
def State.tick (s : State) (u : UnitId) : State := { s with clocks := s.clocks.put u.code (BitVec.ofNat 64 (s.nextSlot u)) }

/-- What a unit does between its releases and the work of its own kind: it lifts, routes, and sends on its own account. -/
def State.slotWork (s : State) (u : UnitId) (t : Nat) : State := (((s.liftService u t).reroute u t).sendFault u).sendMarks u

/-- The slot of some output ports of a unit. -/
def State.slotPorts (s : State) (u : UnitId) (ports : List Nat) (here : List Present) (t : Nat) : State :=
  ports.foldl (fun s o => s.portSlot u here o t) s

/-- The end of a unit's slot: full alignment buffers are counted, and freed space is reported. -/
def State.slotEnd (s : State) (u : UnitId) (t : Nat) : State :=
  ((s.node u).ins.foldl (fun s kv => if kv.2.align.length = 4 then s.event u kv.1 0x0C 1023 0 0 1 else s) s).sendCredits u t

@[simp] theorem State.tick_running (s : State) (u w : UnitId) : (s.tick u).running w = s.running w := rfl
@[simp] theorem State.tick_domState (s : State) (u w : UnitId) : (s.tick u).domState w = s.domState w := rfl

/-- An island that is stopped or in DOZE only counts. -/
theorem State.slotBoundary_still (s : State) (u : UnitId) (hu : u ≠ k0) (h : s.running u = false ∨ s.domState u = .doze) :
    s.slotBoundary u = s.tick u := by
  simp only [State.slotBoundary, if_neg hu]
  refine if_pos (show (!(s.tick u).running u || (s.tick u).domState u == .doze) = true from ?_)
  rcases h with h | h <;> simp [h]

section
variable (s : State) (u : UnitId) (hr : s.running u = true) (hd : s.domState u ≠ .doze)
include hr hd

/-- An island that runs and is not in DOZE does not stop at its counter. -/
theorem State.tick_acts : ¬ (!(s.tick u).running u || (s.tick u).domState u == .doze) = true := by
  simp [hr, hd]

/-- A switch absorbs, releases, routes, sends, and takes or discards what no output claimed. -/
theorem State.slotBoundary_switch (hu : isSwitch u = true) :
    s.slotBoundary u =
      let t := s.nextSlot u
      let r := ((s.tick u).absorbSlot u).releaseAll u t
      ((((r.1.slotWork u t).slotPorts u (outPorts u) r.2 t).unclaimed u r.2 t).quietPort u t).slotEnd u t := by
  have hk : u ≠ k0 := by rintro rfl; cases hu
  simp only [State.slotBoundary, if_neg hk]
  refine (if_neg (s.tick_acts u hr hd)).trans ?_
  cases u with
  | stair n | gallery n | hall n => simp only [hu, if_true, List.contains_nil, Bool.not_false, List.filter_true]; rfl
  | landing n | pavilion n | special n | chip => cases hu

/-- A landing decides its streams between its own work and its ports. -/
theorem State.slotBoundary_landing {l : Nat} (hu : u = .landing l) :
    s.slotBoundary u =
      let t := s.nextSlot u
      let r := (s.tick u).releaseAll u t
      ((((r.1.slotWork u t).decideStreams l t).slotPorts u (outPorts u) r.2 t).quietPort u t).slotEnd u t := by
  subst hu
  simp only [State.slotBoundary, if_neg (show UnitId.landing l ≠ k0 from nofun)]
  refine (if_neg (s.tick_acts _ hr hd)).trans ?_
  simp only [isSwitch, Bool.false_eq_true, if_false, List.contains_nil, Bool.not_false, List.filter_true]
  rfl

/-- A pavilion lets the units of its line go first, takes those of its cell, and leaves out the ports that the line took. -/
theorem State.slotBoundary_pavilion {p : Nat} (hu : u = .pavilion p) :
    s.slotBoundary u =
      let t := s.nextSlot u
      let r := (s.tick u).releaseAll u t
      let l := r.1.pavRelease p t
      ((((l.1.slotWork u t).pavTakes p r.2 t).slotPorts u ((outPorts u).filter (fun o => !l.2.contains o)) r.2 t).quietPort u t).slotEnd
        u t := by
  subst hu
  simp only [State.slotBoundary, if_neg (show UnitId.pavilion p ≠ k0 from nofun)]
  refine (if_neg (s.tick_acts _ hr hd)).trans ?_
  simp only [isSwitch, Bool.false_eq_true, if_false]
  rfl

/-- A special endpoint other than K0: the belvedere (endpoint 2060) streams, the others have no work of their kind. -/
theorem State.slotBoundary_special {e : Nat} (hu : u = .special e) (he : e ≠ 2051) :
    s.slotBoundary u =
      let t := s.nextSlot u
      let r := (s.tick u).releaseAll u t
      let b := r.1.slotWork u t
      (((if e = 2060 then b.bvSlot t else b).slotPorts u (outPorts u) r.2 t).quietPort u t).slotEnd u t := by
  subst hu
  have hk : UnitId.special e ≠ k0 := fun h => he (UnitId.special.inj h)
  simp only [State.slotBoundary, if_neg hk, if_neg he]
  refine (if_neg (s.tick_acts _ hr hd)).trans ?_
  simp only [isSwitch, Bool.false_eq_true, if_false, List.contains_nil, Bool.not_false, List.filter_true]
  rfl

end

/-- A unit that is no landing does nothing after its slot but take the PREPAREs that waited. -/
theorem runs_slotBoundary_of_not_landing {s a : State} {u : UnitId} (hs : s.live) (hu : ∀ l, u ≠ .landing l)
    (ha : s.quiet.slotBoundary u = a) : Runs (.slotBoundary u) s a.takeLate := by
  subst ha
  refine runs_up hs (exec_slotBoundary u s) ?_
  cases u with
  | landing l => exact absurd rfl (hu l)
  | stair n | gallery n | hall n | pavilion n | special n | chip => rfl

/-- At a landing that is ACTIVE the arbiter then takes its turn. -/
theorem runs_slotBoundary_landing {s a : State} {l : Nat} (hs : s.live) (ha : s.quiet.slotBoundary (.landing l) = a) :
    Runs (.slotBoundary (.landing l)) s
      (if a.takeLate.domState (.landing l) = .active then a.takeLate.arbiterSlot l else a.takeLate) := by
  subst ha
  exact runs_up hs (exec_slotBoundary _ s) (by simp only [beq_iff_eq])

/-- A unit that only counts, and is no landing of an ACTIVE domain, does nothing after its slot either. -/
theorem runs_slotBoundary_still {s : State} {u : UnitId} (hs : s.live) (hk : u ≠ k0) (hstill : s.running u = false ∨ s.domState u = .doze)
    (hu : s.domState u ≠ .active ∨ isSwitch u = true) : Runs (.slotBoundary u) s (s.quiet.tick u).takeLate := by
  have htick := s.quiet.slotBoundary_still u hk hstill
  by_cases hl : ∃ l, u = .landing l
  · obtain ⟨l, rfl⟩ := hl
    have hrun := runs_slotBoundary_landing hs htick
    have hasleep : (s.quiet.tick (.landing l)).takeLate.domState (.landing l) ≠ .active := by
      rw [State.domState_of_doms (State.takeLate_doms _)]
      exact hu.resolve_right nofun
    rwa [if_neg hasleep] at hrun
  · exact runs_slotBoundary_of_not_landing hs (not_exists.mp hl) htick

end Sys2Proof.Machine
end

section
/-!
# PROOFS. The statements of 01, settled
-/
namespace Sys2Proof.Machine

/-- Settles O60: the start-up by the cases of the self-test, the request for the reset by the fold over the linked pavilions. -/
theorem startUp : Obligations.StartUp := by
  intro s hs
  refine ⟨fun hp => ?_, fun hp => ?_, fun d r hp hd hw hf => ?_, ?_, fun hreq => ?_⟩
  · refine ⟨?_, ?_, ?_, ?_⟩ <;> exact runs_up hs (exec_selfTestComplete _ _ s) (if_pos ⟨hp, rfl⟩)
  · have hrun : Runs (.selfTestComplete 140 .pass) s s.quiet.controlUp := runs_up hs (exec_selfTestComplete _ _ s) (if_pos ⟨hp, rfl⟩)
    exact ⟨_, hrun, rfl, rfl, hs, fun d hd => ⟨congrArg Domain.st (s.quiet.controlUp_dom hd), s.quiet.controlUp_load hd⟩⟩
  · have hrun := runs_selfTest_waking hs r hp hd hw hf
    refine ⟨?_, ?_, ?_⟩ <;> rintro rfl
    · rw [State.domainTested_pass s.quiet d hp] at hrun
      exact hrun.exec_eq rfl rfl rfl
    · rwa [State.domainTested_bufferFailed s.quiet d hp] at hrun
    · rwa [State.domainTested_combiningFailed s.quiet d hp] at hrun
  · have hrun := runs_resetRequest hs
    rw [State.resetAsked_eq] at hrun
    exact ⟨_, hrun.exec_eq rfl rfl rfl, rfl, s.quiet.resetAsked_goingDown, rfl⟩
  · exact runs_when hs (exec_resetRequestWithdraw s) hreq rfl

/-- Settles O44: every clause is one case of its command, by the equation of that case. -/
theorem fabricCommands : Obligations.FabricCommands := by
  intro s u port hs
  refine ⟨fun x hx hleft => ?_, fun w hw => ?_, fun w hw => ?_, fun f hop => ?_, ?_⟩
  · have hload : s.quiet.loads.find (loadKey u) = some x := hx
    refine (runs_up hs (exec_fabricTimeLoad u s) ?_).exec_eq rfl rfl rfl
    simp only [hload, hleft, if_true]
    rfl
  · exact (runs_up hs (exec_creditWord u port w s) (if_neg (by simp [hw]))).exec_eq rfl rfl rfl
  · exact runs_up hs (exec_creditWord u port w s) (if_pos hw)
  · have hrun {t : State} (h : s.quiet.arrive u port f hop = t) : Runs (.unitArrival u port f hop) s t :=
      runs_up hs (exec_unitArrival u port f hop s) h
    exact ⟨fun h => (hrun (State.arrive_absent _ _ _ _ _ h)).exec_eq rfl rfl rfl,
      fun h hr ht hl => (hrun (State.arrive_waits _ _ _ _ _ h hr ht hl)).exec_eq rfl rfl rfl,
      fun x h hr ht hx => hrun (State.arrive_late _ _ _ _ _ x h hr ht hx)⟩
  · refine ⟨runs_slotBoundary_still hs, fun hu hr hd => ?_, ?_, ?_, ?_⟩
    · exact runs_slotBoundary_of_not_landing hs (by rintro l rfl; cases hu) (s.quiet.slotBoundary_switch u hr hd hu)
    · rintro l rfl hr hd
      exact runs_slotBoundary_landing hs (s.quiet.slotBoundary_landing (.landing l) hr hd rfl)
    · rintro p rfl hr hd
      exact runs_slotBoundary_of_not_landing hs nofun (s.quiet.slotBoundary_pavilion (.pavilion p) hr hd rfl)
    · rintro e rfl he
      have hd : s.quiet.domState (.special e) ≠ .doze := by simp [State.domState, domainOf]
      exact runs_slotBoundary_of_not_landing hs nofun (s.quiet.slotBoundary_special (.special e) rfl hd rfl he)

/-- Settles O45: each clause is one governor command where its guard holds. -/
theorem governors : Obligations.Governors := by
  intro s u hs
  refine ⟨fun c => runs_up hs (exec_governorClockRequest u c s) rfl, fun hr hc => ?_,
    fun h => runs_when hs (exec_governorClearTimeout u s) h rfl⟩
  have hguard : ((s.quiet.gov u).request && (s.quiet.gov u).clearSince.isNone) = true :=
    (Bool.and_eq_true _ _).mpr ⟨hr, Option.isNone_iff_eq_none.mpr hc⟩
  exact (runs_when hs (exec_governorConditionClear u s) hguard rfl).exec_eq rfl rfl rfl

end Sys2Proof.Machine
end

section
/-!
# PROOFS. 02, packets and units: the layouts of the header unit, the dictionary entry and the hop word

Packing puts fields side by side, so a field read back is peeled off the right end, and fields read side by side join to one range.
-/
namespace Sys2Proof.Machine

/-! ## The header unit and the dictionary entry (02 R41; 09 R244) -/

/-- Two pairs of fields side by side are equal only field by field. -/
theorem bitVec_append_inj {v w : Nat} {x x' : BitVec v} {y y' : BitVec w} : x ++ y = x' ++ y' ↔ x = x' ∧ y = y' := by
  refine ⟨fun h => ⟨?_, ?_⟩, fun ⟨hx, hy⟩ => hx ▸ hy ▸ rfl⟩
  · simpa [BitVec.extractLsb'_append_eq_of_le] using congrArg (BitVec.extractLsb' w v) h
  · simpa [BitVec.extractLsb'_append_eq_of_add_le] using congrArg (BitVec.extractLsb' 0 w) h

theorem packHeader_unpackHeader (p : Payload) : packHeader (unpackHeader p) = p := by
  simp only [packHeader, unpackHeader, BitVec.extractLsb'_append_extractLsb'_eq_extractLsb']
  exact BitVec.extractLsb'_eq_self

theorem packHeader_injective {g h : Header} (heq : packHeader g = packHeader h) : g = h := by
  have hfields := bitVec_append_inj.mp heq
  simp only [bitVec_append_inj] at hfields
  cases g
  cases h
  simpa only [Header.mk.injEq, and_assoc] using hfields

theorem unpackHeader_packHeader (h : Header) : unpackHeader (packHeader h) = h :=
  packHeader_injective (packHeader_unpackHeader _)

theorem packEntry_unpackEntry (v : BitVec 128) : packEntry (unpackEntry v) = v := by
  simp only [packEntry, unpackEntry, BitVec.extractLsb'_append_extractLsb'_eq_extractLsb']
  exact BitVec.extractLsb'_eq_self

theorem packEntry_injective {d e : DictEntry} (heq : packEntry d = packEntry e) : d = e := by
  have hfields := bitVec_append_inj.mp heq
  simp only [bitVec_append_inj] at hfields
  cases d
  cases e
  simpa only [DictEntry.mk.injEq, and_assoc] using hfields

theorem unpackEntry_packEntry (e : DictEntry) : unpackEntry (packEntry e) = e := packEntry_injective (packEntry_unpackEntry _)

/-! ## The hop word (02 R40) -/

/-- A parity bit put into the free bit 0 makes the number of ones even. -/
theorem oddOnes_withParity (n v : Nat) (hv : v % 2 = 0) : oddOnes (n + 1) (v + (if oddOnes (n + 1) v then 1 else 0)) = false := by
  cases h : oddOnes (n + 1) v
  · simpa using h
  · have h1 : (v + 1) % 2 = 1 := by omega
    have h2 : (v + 1) / 2 = v / 2 := by omega
    simp only [oddOnes, hv] at h
    simpa [oddOnes, h1, h2] using h

/-- The fields of a hop word, its parity bit apart. -/
def hopFields (esc forced : Bool) (t : Nat) : Nat := 512 + (if esc then 256 else 0) + t % 64 * 4 + (if forced then 2 else 0)

theorem hopFields_even (esc forced : Bool) (t : Nat) : hopFields esc forced t % 2 = 0 := by
  cases esc <;> cases forced <;> simp [hopFields] <;> omega

theorem hopFields_lt (esc forced : Bool) (t : Nat) : hopFields esc forced t < 1023 := by
  cases esc <;> cases forced <;> simp [hopFields] <;> omega

theorem hopWord_toNat (esc forced : Bool) (t : Nat) :
    (hopWord esc forced t).toNat = hopFields esc forced t + (if oddOnes 10 (hopFields esc forced t) then 1 else 0) := by
  refine (BitVec.toNat_ofNat _ _).trans (Nat.mod_eq_of_lt ?_)
  rw [← hopFields]
  have h := hopFields_lt esc forced t
  split <;> omega

theorem oddOnes_hopWord (esc forced : Bool) (t : Nat) : oddOnes 10 (hopWord esc forced t).toNat = false := by
  rw [hopWord_toNat, oddOnes_withParity 9 _ (hopFields_even esc forced t)]

/-- What a hop word reads above its parity bit. -/
theorem hopWord_div_two (esc forced : Bool) (t : Nat) :
    (hopWord esc forced t).toNat / 2 = forced.toNat + 2 * (t % 64) + 128 * esc.toNat + 256 := by
  have h := hopFields_even esc forced t
  rw [hopWord_toNat, show (hopFields esc forced t + (if oddOnes 10 (hopFields esc forced t) then 1 else 0)) / 2 = hopFields esc forced t / 2 by
    split <;> omega]
  cases esc <;> cases forced <;> simp [hopFields] <;> omega

theorem hopWord_valid (esc forced : Bool) (t : Nat) : (hopWord esc forced t).getLsbD 9 = true := by
  have h := hopWord_div_two esc forced t
  have := Bool.toNat_lt esc; have := Bool.toNat_lt forced
  rw [BitVec.getLsbD, Nat.testBit_eq_decide_div_mod_eq, decide_eq_true_eq]
  omega

theorem hopWord_escape (esc forced : Bool) (t : Nat) : (hopWord esc forced t).getLsbD 8 = esc := by
  have h := hopWord_div_two esc forced t
  have := Bool.toNat_lt forced
  rw [BitVec.getLsbD, Nat.testBit_eq_decide_div_mod_eq]
  cases esc <;> simp at h ⊢ <;> omega

theorem hopWord_forced (esc forced : Bool) (t : Nat) : (hopWord esc forced t).getLsbD 1 = forced := by
  have h := hopWord_div_two esc forced t
  rw [BitVec.getLsbD, Nat.testBit_eq_decide_div_mod_eq]
  cases forced <;> simp at h ⊢ <;> omega

theorem hopWord_slot (esc forced : Bool) (t : Nat) : bitsAt (hopWord esc forced t).toNat 2 6 = t % 64 := by
  have h := hopWord_div_two esc forced t
  have := Bool.toNat_lt forced
  unfold bitsAt
  omega

/-- A receiver within 64 slots of the departure finds its slot. -/
theorem hopDeparture_hopWord (esc forced : Bool) {t now : Nat} (h1 : t ≤ now) (h2 : now < t + 64) :
    hopDeparture (hopWord esc forced t) now = t := by
  rw [hopDeparture, hopWord_slot]
  omega

end Sys2Proof.Machine
end

section
/-!
# PROOFS. 02, packets and units: the SECDED code of a quarter

Both the check bits and the overall parity are linear over exclusive OR. So what a receiver computes from a quarter with some bits
flipped depends on the flipped bits alone: a syndrome that is the exclusive OR of their columns, and the parity of their number.
-/
namespace Sys2Proof.Machine

/-! ## The number of ones -/

theorem xor_mod_two (a b : Nat) : ((a ^^^ b) % 2 == 1) = ((a % 2 == 1) ^^ (b % 2 == 1)) := by
  have h := Nat.testBit_xor a b 0
  simpa [Nat.testBit_zero, Bool.beq_eq_decide_eq] using h

theorem oddOnes_xor (n a b : Nat) : oddOnes n (a ^^^ b) = (oddOnes n a ^^ oddOnes n b) := by
  induction n generalizing a b with
  | zero => rfl
  | succ n ih =>
    have hdiv : (a ^^^ b) / 2 = a / 2 ^^^ b / 2 := Nat.xor_div_two
    rw [oddOnes, oddOnes, oddOnes, hdiv, ih, xor_mod_two, Bool.xor_assoc, Bool.xor_assoc, Bool.xor_left_comm (b % 2 == 1)]

@[simp] theorem oddOnes_zero (n : Nat) : oddOnes n 0 = false := by simpa using oddOnes_xor n 0 0

theorem oddOnes_two_pow {n i : Nat} (h : i < n) : oddOnes n (2 ^ i) = true := by
  induction n generalizing i with
  | zero => cases h
  | succ n ih =>
    cases i with
    | zero => simp [oddOnes]
    | succ i => simp [oddOnes, Nat.pow_succ, ih (Nat.lt_of_succ_lt_succ h)]

/-- Only the low `n` bits count. -/
theorem oddOnes_mod (n v : Nat) : oddOnes n (v % 2 ^ n) = oddOnes n v := by
  induction n generalizing v with
  | zero => rfl
  | succ n ih =>
    have hmod : v % 2 ^ (n + 1) % 2 = v % 2 := Nat.mod_mod_of_dvd v (dvd_pow_self 2 n.succ_ne_zero)
    have hdiv : v % 2 ^ (n + 1) / 2 = v / 2 % 2 ^ n := by rw [Nat.pow_succ', Nat.mod_mul_right_div_self]
    rw [oddOnes, oddOnes, hmod, hdiv, ih]

theorem oddOnes_succ (n v : Nat) : oddOnes (n + 1) v = (oddOnes n v ^^ v.testBit n) := by
  induction n generalizing v with
  | zero => simp [oddOnes, Nat.testBit_zero, Bool.beq_eq_decide_eq]
  | succ n ih => rw [oddOnes, ih, oddOnes, Nat.testBit_succ, Bool.xor_assoc]

/-! ## The check bits -/

theorem position_xor (p a b : Nat) :
    (if (a ^^^ b) % 2 = 1 then p else 0) = (if a % 2 = 1 then p else 0) ^^^ (if b % 2 = 1 then p else 0) := by
  rw [Nat.xor_mod_two_eq, Nat.add_mod]
  rcases Nat.mod_two_eq_zero_or_one a with ha | ha <;> rcases Nat.mod_two_eq_zero_or_one b with hb | hb <;> simp [ha, hb]

theorem xorPositions_xor (ps : List Nat) (a b : Nat) : xorPositions ps (a ^^^ b) = xorPositions ps a ^^^ xorPositions ps b := by
  induction ps generalizing a b with
  | nil => simp [xorPositions]
  | cons p ps ih =>
    have hdiv : (a ^^^ b) / 2 = a / 2 ^^^ b / 2 := Nat.xor_div_two
    rw [xorPositions, xorPositions, xorPositions, hdiv, ih, position_xor]
    ac_rfl

@[simp] theorem xorPositions_zero (ps : List Nat) : xorPositions ps 0 = 0 := by simpa using xorPositions_xor ps 0 0

theorem xorPositions_two_pow {ps : List Nat} {i : Nat} (h : i < ps.length) : xorPositions ps (2 ^ i) = ps[i] := by
  induction ps generalizing i with
  | nil => cases h
  | cons p ps ih =>
    cases i with
    | zero => simp [xorPositions]
    | succ i => simp [xorPositions, Nat.pow_succ, ih (Nat.lt_of_succ_lt_succ h)]

theorem xorPositions_lt {ps : List Nat} {k : Nat} (h : ∀ p ∈ ps, p < 2 ^ k) (d : Nat) : xorPositions ps d < 2 ^ k := by
  induction ps generalizing d with
  | nil => exact Nat.two_pow_pos k
  | cons p ps ih =>
    refine Nat.xor_lt_two_pow ?_ (ih (fun q hq => h q (List.mem_cons_of_mem p hq)) _)
    split
    · exact h p List.mem_cons_self
    · exact Nat.two_pow_pos k

/-- Check bit `j` is the parity of the data bits whose position has bit `j`; the data bits counted from `k` on. -/
theorem testBit_xorPositions (ps : List Nat) (d k j : Nat) :
    (xorPositions ps (d / 2 ^ k)).testBit j =
      (((ps.zipIdx k).filter (fun x => x.1.testBit j && d.testBit x.2)).length % 2 == 1) := by
  induction ps generalizing k with
  | nil => simp [xorPositions]
  | cons p ps ih =>
    have hdiv : d / 2 ^ k / 2 = d / 2 ^ (k + 1) := by rw [Nat.div_div_eq_div_mul, Nat.pow_succ]
    have hbit : (if d / 2 ^ k % 2 = 1 then p else 0).testBit j = (p.testBit j && d.testBit k) := by
      rw [Nat.testBit_eq_decide_div_mod_eq (x := d)]
      split <;> simp [*]
    rw [xorPositions, Nat.testBit_xor, hdiv, ih, hbit, List.zipIdx_cons, List.filter_cons]
    cases p.testBit j && d.testBit k
    · simp
    · simp only [Bool.true_xor, if_true, List.length_cons]
      generalize List.length _ = m
      rcases Nat.mod_two_eq_zero_or_one m with hm | hm <;> simp [Nat.add_mod, hm]

/-! ## The positions of the data bits -/

theorem dataPositions_eq : dataPositions = (List.range 169).filter (fun m => decide (1 ≤ m) && !isCheckPos m) := by
  rw [List.range_succ_eq_map, List.filter_cons_of_neg (by decide)]
  refine List.filter_congr fun p hp => ?_
  obtain ⟨k, -, rfl⟩ := List.mem_map.mp hp
  simp

theorem dataPositions_length : dataPositions.length = 160 := by decide +kernel

theorem mem_dataPositions {p : Nat} : p ∈ dataPositions ↔ p < 169 ∧ 1 ≤ p ∧ isCheckPos p = false := by
  simp [dataPositions_eq]

theorem isCheckPos_two_pow {k : Nat} (h : k < 8) : isCheckPos (2 ^ k) = true := by
  revert h k
  decide

/-- A data bit stands at no power of two. -/
theorem ne_two_pow_of_mem {p : Nat} (h : p ∈ dataPositions) (k : Nat) : p ≠ 2 ^ k := by
  rintro rfl
  obtain ⟨hlt, -, hcheck⟩ := mem_dataPositions.mp h
  have hk : k < 8 := by
    by_contra hk
    have := Nat.pow_le_pow_right (n := 2) (by omega) (Nat.le_of_not_lt hk)
    omega
  simp [isCheckPos_two_pow hk] at hcheck

theorem dataPositions_sorted : dataPositions.Pairwise (· < ·) := by
  rw [dataPositions_eq]
  exact List.Pairwise.filter _ List.pairwise_lt_range

/-- In a filtered range the place of a member is the number of members below it. -/
theorem length_filter_range_of_getElem? {f : Nat → Bool} {n i p : Nat} (h : ((List.range n).filter f)[i]? = some p) :
    ((List.range p).filter f).length = i := by
  induction n with
  | zero => simp at h
  | succ n ih =>
    rw [List.range_succ, List.filter_append, List.getElem?_append] at h
    split at h
    · exact ih h
    · next hi =>
      by_cases hf : f n = true
      · simp [hf, List.getElem?_singleton] at h
        obtain ⟨hi', rfl⟩ := h
        omega
      · simp [hf] at h

/-- In a sorted list the members below the one at `i` are those before it. -/
theorem length_takeWhile_lt {l : List Nat} (hl : l.Pairwise (· < ·)) {i : Nat} (hi : i < l.length) :
    (l.takeWhile (· < l[i])).length = i := by
  induction l generalizing i with
  | nil => cases hi
  | cons a l ih =>
    obtain ⟨ha, hl⟩ := List.pairwise_cons.mp hl
    cases i with
    | zero => simp
    | succ i =>
      have hi' : i < l.length := Nat.lt_of_succ_lt_succ hi
      simp [ha _ (List.getElem_mem hi'), ih hl hi']

/-- The position of data bit `i`. -/
def positionOf (i : Nat) : Nat := dataPositions.getD i 0

theorem getElem?_dataPositions {i : Nat} (h : i < 160) : dataPositions[i]? = some (positionOf i) := by
  rw [← dataPositions_length] at h
  rw [positionOf, List.getD_eq_getElem _ _ h, List.getElem?_eq_getElem h]

theorem positionOf_mem {i : Nat} (h : i < 160) : positionOf i ∈ dataPositions := List.mem_of_getElem? (getElem?_dataPositions h)

theorem positionOf_ne_zero {i : Nat} (h : i < 160) : positionOf i ≠ 0 :=
  Nat.one_le_iff_ne_zero.mp (mem_dataPositions.mp (positionOf_mem h)).2.1

theorem not_isCheckPos_positionOf {i : Nat} (h : i < 160) : isCheckPos (positionOf i) = false :=
  (mem_dataPositions.mp (positionOf_mem h)).2.2

theorem dataIndex_positionOf {i : Nat} (h : i < 160) : dataIndex (positionOf i) = i := by
  rw [← dataPositions_length] at h
  rw [positionOf, List.getD_eq_getElem _ _ h]
  exact length_takeWhile_lt dataPositions_sorted h

theorem positionOf_injOn {i j : Nat} (hi : i < 160) (hj : j < 160) (h : positionOf i = positionOf j) : i = j := by
  rw [← dataIndex_positionOf hi, h, dataIndex_positionOf hj]

theorem positionOf_mono {i j : Nat} (hij : i ≤ j) (hj : j < 160) : positionOf i ≤ positionOf j := by
  have hj' : j < dataPositions.length := by rwa [dataPositions_length]
  rw [positionOf, positionOf, List.getD_eq_getElem _ _ hj', List.getD_eq_getElem _ _ (by omega)]
  rcases Nat.eq_or_lt_of_le hij with rfl | hlt
  · exact Nat.le_refl _
  · exact Nat.le_of_lt (List.pairwise_iff_getElem.mp dataPositions_sorted i j _ hj' hlt)

/-- The largest position in use with `n` data bits. -/
theorem getLastD_take_dataPositions {n : Nat} (h1 : 0 < n) (h2 : n ≤ 160) :
    (dataPositions.take n).getLastD 0 = positionOf (n - 1) := by
  rw [List.getLastD_eq_getLast?, List.getLast?_eq_getElem?, List.length_take, dataPositions_length, Nat.min_eq_left h2,
    List.getElem?_take_of_lt (by omega), getElem?_dataPositions (by omega), Option.getD_some]

theorem take_dataPositions_lt {n p : Nat} (h : p ∈ dataPositions.take n) : p < 2 ^ 8 := by
  have := (mem_dataPositions.mp (List.mem_of_mem_take h)).1
  omega

/-! ## The code of a quarter (02 R55) -/

theorem checkBits_lt (n d : Nat) : xorPositions (dataPositions.take n) d < 2 ^ 8 := xorPositions_lt (fun _ => take_dataPositions_lt) d

theorem secded_eq (n d : Nat) : secded n d = xorPositions (dataPositions.take n) d +
    (if oddOnes n d ^^ oddOnes 8 (xorPositions (dataPositions.take n) d) then 256 else 0) := rfl

theorem secded_lt (n d : Nat) : secded n d < 512 := by
  have h := checkBits_lt n d
  rw [secded_eq]
  split <;> omega

/-- The check bits c7 to c0 of a code. -/
theorem secded_mod (n d : Nat) : secded n d % 2 ^ 8 = xorPositions (dataPositions.take n) d := by
  have h := checkBits_lt n d
  rw [secded_eq]
  split <;> omega

theorem secded_testBit_check (n d : Nat) {j : Nat} (h : j < 8) :
    (secded n d).testBit j = (xorPositions (dataPositions.take n) d).testBit j := by
  rw [← secded_mod n d, Nat.testBit_mod_two_pow, decide_eq_true h, Bool.true_and]

/-- c8 is the parity of the data bits and of c7 to c0. -/
theorem secded_testBit_parity (n d : Nat) : (secded n d).testBit 8 = (oddOnes n d ^^ oddOnes 8 (secded n d)) := by
  have h := checkBits_lt n d
  rw [← oddOnes_mod 8 (secded n d), secded_mod, Nat.testBit_eq_decide_div_mod_eq, secded_eq]
  cases hodd : (oddOnes n d ^^ oddOnes 8 (xorPositions (dataPositions.take n) d)) <;> simp <;> omega

/-- The data and the code of a quarter have even parity together. -/
theorem oddOnes_secded (n d : Nat) : oddOnes 9 (secded n d) = oddOnes n d := by
  rw [oddOnes_succ, secded_testBit_parity]
  cases oddOnes 8 (secded n d) <;> simp

/-! ## Decoding (02 R56) -/

/-- The syndrome that a receiver forms: recomputed against received c7 to c0. -/
def syndrome (n d c : Nat) : Nat := xorPositions (dataPositions.take n) d ^^^ c % 256

/-- The parity over all received data and code bits. -/
def oddReceived (n d c : Nat) : Bool := oddOnes n d ^^ oddOnes 9 c

/-- The table of 02 R56 on the syndrome and the parity. -/
theorem decodeQuarter_eq (n d c : Nat) : decodeQuarter n d c =
    if oddReceived n d c = false then (if syndrome n d c = 0 then .clean else .uncorrectable)
    else if syndrome n d c = 0 ∨ isCheckPos (syndrome n d c) then .corrected d
    else if syndrome n d c ≤ (dataPositions.take n).getLastD 0 then .corrected (d ^^^ 2 ^ dataIndex (syndrome n d c))
    else .uncorrectable := rfl

section
variable {n d c : Nat}

theorem decodeQuarter_clean (hs : syndrome n d c = 0) (hp : oddReceived n d c = false) : decodeQuarter n d c = .clean := by
  rw [decodeQuarter_eq, if_pos hp, if_pos hs]

theorem decodeQuarter_double (hs : syndrome n d c ≠ 0) (hp : oddReceived n d c = false) : decodeQuarter n d c = .uncorrectable := by
  rw [decodeQuarter_eq, if_pos hp, if_neg hs]

theorem decodeQuarter_code (hp : oddReceived n d c = true) (hs : syndrome n d c = 0 ∨ isCheckPos (syndrome n d c) = true) :
    decodeQuarter n d c = .corrected d := by
  rw [decodeQuarter_eq, if_neg (ne_false_of_eq_true hp), if_pos hs]

/-- A syndrome that names no check bit. -/
theorem decodeQuarter_position (hp : oddReceived n d c = true) (hs : syndrome n d c ≠ 0) (hcheck : isCheckPos (syndrome n d c) = false) :
    decodeQuarter n d c = if syndrome n d c ≤ (dataPositions.take n).getLastD 0
      then .corrected (d ^^^ 2 ^ dataIndex (syndrome n d c)) else .uncorrectable := by
  rw [decodeQuarter_eq, if_neg (ne_false_of_eq_true hp), if_neg (by simp [hs, hcheck])]

/-! ## What flipped bits do to the syndrome and the parity -/

@[simp] theorem syndrome_secded (n d : Nat) : syndrome n d (secded n d) = 0 := by
  rw [syndrome, show (256 : Nat) = 2 ^ 8 from rfl, secded_mod, Nat.xor_self]

@[simp] theorem oddReceived_secded (n d : Nat) : oddReceived n d (secded n d) = false := by
  rw [oddReceived, oddOnes_secded, Bool.xor_self]

theorem syndrome_flipData {i : Nat} (hi : i < n) (hn : n ≤ 160) : syndrome n (d ^^^ 2 ^ i) c = syndrome n d c ^^^ positionOf i := by
  have hlen : i < (dataPositions.take n).length := by
    rw [List.length_take, dataPositions_length]
    omega
  have hcol : xorPositions (dataPositions.take n) (2 ^ i) = positionOf i := by
    rw [xorPositions_two_pow hlen, List.getElem_take, positionOf, List.getD_eq_getElem]
  rw [syndrome, syndrome, xorPositions_xor, hcol]
  ac_rfl

theorem oddReceived_flipData {i : Nat} (hi : i < n) : oddReceived n (d ^^^ 2 ^ i) c = !oddReceived n d c := by
  simp [oddReceived, oddOnes_xor, oddOnes_two_pow hi]

theorem syndrome_flipCode (j : Nat) : syndrome n d (c ^^^ 2 ^ j) = syndrome n d c ^^^ 2 ^ j % 2 ^ 8 := by
  rw [syndrome, syndrome, show (256 : Nat) = 2 ^ 8 from rfl, Nat.xor_mod_two_pow, Nat.xor_assoc]

theorem oddReceived_flipCode {j : Nat} (hj : j < 9) : oddReceived n d (c ^^^ 2 ^ j) = !oddReceived n d c := by
  simp [oddReceived, oddOnes_xor, oddOnes_two_pow hj]

/-! ## One flipped bit -/

theorem decodeQuarter_secded (n d : Nat) : decodeQuarter n d (secded n d) = .clean :=
  decodeQuarter_clean (syndrome_secded n d) (oddReceived_secded n d)

theorem decodeQuarter_flipData {i : Nat} (hi : i < n) (hn : n ≤ 160) : decodeQuarter n (d ^^^ 2 ^ i) (secded n d) = .corrected d := by
  have hs : syndrome n (d ^^^ 2 ^ i) (secded n d) = positionOf i := by simp [syndrome_flipData hi hn]
  have hp : oddReceived n (d ^^^ 2 ^ i) (secded n d) = true := by simp [oddReceived_flipData hi]
  have hi160 : i < 160 := by omega
  have hlast : positionOf i ≤ (dataPositions.take n).getLastD 0 := by
    rw [getLastD_take_dataPositions (by omega) hn]
    exact positionOf_mono (by omega) (by omega)
  rw [decodeQuarter_position hp (hs ▸ positionOf_ne_zero hi160) (hs ▸ not_isCheckPos_positionOf hi160), hs, if_pos hlast,
    dataIndex_positionOf hi160, Nat.xor_assoc, Nat.xor_self, Nat.xor_zero]

theorem two_pow_mod_of_lt {j : Nat} (h : j < 8) : 2 ^ j % 2 ^ 8 = 2 ^ j := Nat.mod_eq_of_lt (Nat.pow_lt_pow_right (by omega) h)

theorem decodeQuarter_flipCode {j : Nat} (hj : j < 9) : decodeQuarter n d (secded n d ^^^ 2 ^ j) = .corrected d := by
  have hs : syndrome n d (secded n d ^^^ 2 ^ j) = 2 ^ j % 2 ^ 8 := by simp [syndrome_flipCode]
  refine decodeQuarter_code (by simp [oddReceived_flipCode hj]) ?_
  rw [hs]
  rcases Nat.lt_succ_iff_lt_or_eq.mp hj with hj | rfl
  · rw [two_pow_mod_of_lt hj]
    exact .inr (isCheckPos_two_pow hj)
  · exact .inl rfl

/-! ## Two flipped bits: two columns are never equal -/

theorem decodeQuarter_flipTwo {s s' : Nat} (hs : syndrome n d c = s ^^^ s') (hne : s ≠ s') (hp : oddReceived n d c = false) :
    decodeQuarter n d c = .uncorrectable :=
  decodeQuarter_double (by rwa [hs, Ne, Nat.xor_eq_zero_iff]) hp

theorem positionOf_ne_codeColumn {i : Nat} (hi : i < 160) (j : Nat) : positionOf i ≠ 2 ^ j % 2 ^ 8 := by
  rcases Nat.lt_or_ge j 8 with hj | hj
  · rw [two_pow_mod_of_lt hj]
    exact ne_two_pow_of_mem (positionOf_mem hi) j
  · rw [Nat.mod_eq_zero_of_dvd (Nat.pow_dvd_pow 2 hj)]
    exact positionOf_ne_zero hi

theorem codeColumn_ne {i j : Nat} (hij : i < j) (hj : j < 9) : 2 ^ i % 2 ^ 8 ≠ 2 ^ j % 2 ^ 8 := by
  rw [two_pow_mod_of_lt (by omega)]
  rcases Nat.lt_succ_iff_lt_or_eq.mp hj with hj | rfl
  · rw [two_pow_mod_of_lt hj]
    exact Nat.ne_of_lt (Nat.pow_lt_pow_right (by omega) hij)
  · exact Nat.pos_iff_ne_zero.mp (Nat.two_pow_pos i)

theorem decodeQuarter_flipData_flipData {i j : Nat} (hij : i < j) (hj : j < n) (hn : n ≤ 160) :
    decodeQuarter n (d ^^^ 2 ^ i ^^^ 2 ^ j) (secded n d) = .uncorrectable := by
  have hi : i < n := hij.trans hj
  refine decodeQuarter_flipTwo (s := positionOf i) (s' := positionOf j) ?_
    (fun h => hij.ne (positionOf_injOn (by omega) (by omega) h)) ?_
  · simp [syndrome_flipData hj hn, syndrome_flipData hi hn]
  · simp [oddReceived_flipData hj, oddReceived_flipData hi]

theorem decodeQuarter_flipData_flipCode {i j : Nat} (hi : i < n) (hn : n ≤ 160) (hj : j < 9) :
    decodeQuarter n (d ^^^ 2 ^ i) (secded n d ^^^ 2 ^ j) = .uncorrectable := by
  refine decodeQuarter_flipTwo ?_ (positionOf_ne_codeColumn (Nat.lt_of_lt_of_le hi hn) j) ?_
  · rw [syndrome_flipCode, syndrome_flipData hi hn, syndrome_secded, Nat.zero_xor]
  · simp [oddReceived_flipCode hj, oddReceived_flipData hi]

theorem decodeQuarter_flipCode_flipCode {i j : Nat} (hij : i < j) (hj : j < 9) :
    decodeQuarter n d (secded n d ^^^ 2 ^ i ^^^ 2 ^ j) = .uncorrectable := by
  refine decodeQuarter_flipTwo ?_ (codeColumn_ne hij hj) ?_
  · simp [syndrome_flipCode]
  · simp [oddReceived_flipCode hj, oddReceived_flipCode (hij.trans hj)]

end

/-! ## The protected bits (02 R55) -/

theorem testBit_payloadQuarter (p : Payload) (x q i : Nat) (h : i < 128) :
    (p.toNat / 2 ^ (128 * q) % 2 ^ 128 + x * 2 ^ 128).testBit i = p.getLsbD (128 * q + i) := by
  rw [Nat.add_comm, Nat.mul_comm, Nat.testBit_two_pow_mul_add _ (Nat.mod_lt _ (Nat.two_pow_pos 128)), if_pos h, Nat.testBit_mod_two_pow,
    decide_eq_true h, Bool.true_and, Nat.testBit_div_two_pow, Nat.add_comm, BitVec.getLsbD]

theorem testBit_above_payload {a : Nat} (ha : a < 2 ^ 128) (x i : Nat) : (a + x * 2 ^ 128).testBit (128 + i) = x.testBit i := by
  rw [Nat.add_comm, Nat.mul_comm, Nat.testBit_two_pow_mul_add _ ha, if_neg (by omega), Nat.add_sub_cancel_left]

theorem quarterData_snd (f : Flit) (q : Nat) : (quarterData f q).2 = f.payload.toNat / 2 ^ (128 * q) % 2 ^ 128 +
    (if q = 0 then f.tail.toNat else if q = 3 then flagBits f else 0) * 2 ^ 128 := by
  unfold quarterData
  split
  · rfl
  · split <;> simp

theorem testBit_flagBits (f : Flit) : (flagBits f).testBit 0 = f.resend ∧ (flagBits f).testBit 1 = f.trunc ∧
    (flagBits f).testBit 2 = f.last ∧ (flagBits f).testBit 3 = f.first := by
  unfold flagBits
  cases f.first <;> cases f.last <;> cases f.trunc <;> cases f.resend <;> decide

end Sys2Proof.Machine
end

section
/-!
# PROOFS. The statements of 02 about codes and layouts, settled
-/
namespace Sys2Proof.Machine

/-- Settles O8: each pair of functions is inverse both ways. -/
theorem roundTrips : Obligations.RoundTrips :=
  ⟨unpackHeader_packHeader, packHeader_unpackHeader, unpackEntry_packEntry, packEntry_unpackEntry⟩

/-- Settles O13: the parity bit fills the free bit 0, and the slot is read back from its low 6 bits. -/
theorem hopWordTime : Obligations.HopWordTime := fun esc forced t _ =>
  ⟨oddOnes_hopWord esc forced t, hopWord_valid esc forced t, hopWord_escape esc forced t, hopWord_forced esc forced t,
    hopDeparture_hopWord esc forced⟩

/-- Settles O9: the protected bits by their place in the quarter, the positions as a filtered range, the check bits by linearity. -/
theorem secdedCode : Obligations.SecdedCode := by
  refine ⟨fun f => ⟨rfl, rfl, rfl, rfl⟩, fun f q i _ hi => ?_, fun f i _ => ?_, fun f => ?_, fun i hi => ?_, fun n d j _ hj => ?_,
    secded_testBit_parity, fun n d _ => secded_lt n d⟩
  · rw [quarterData_snd, testBit_payloadQuarter _ _ _ _ hi]
  · rw [quarterData_snd, testBit_above_payload (Nat.mod_lt _ (Nat.two_pow_pos 128)), if_pos rfl, BitVec.getLsbD]
  · have hflag (i : Nat) : (quarterData f 3).2.testBit (128 + i) = (flagBits f).testBit i := by
      rw [quarterData_snd, testBit_above_payload (Nat.mod_lt _ (Nat.two_pow_pos 128)), if_neg (by decide), if_pos rfl]
    obtain ⟨h0, h1, h2, h3⟩ := testBit_flagBits f
    exact ⟨(hflag 0).trans h0, (hflag 1).trans h1, (hflag 2).trans h2, (hflag 3).trans h3⟩
  · have hp := getElem?_dataPositions hi
    obtain ⟨-, hone, -⟩ := mem_dataPositions.mp (positionOf_mem hi)
    refine ⟨_, hp, ne_two_pow_of_mem (positionOf_mem hi), hone, ?_⟩
    rw [dataPositions_eq] at hp
    simpa using length_filter_range_of_getElem? hp
  · simpa [secded_testBit_check n d hj] using testBit_xorPositions (dataPositions.take n) d 0 j

/-- Settles O11: a quarter as sent has syndrome 0 and even parity; one flipped bit makes the parity odd and the syndrome its column. -/
theorem secdedCorrectsSingle : Obligations.SecdedCorrectsSingle := by
  intro n d hn _
  have hle : n ≤ 160 := by omega
  exact ⟨decodeQuarter_secded n d, fun i hi => decodeQuarter_flipData hi hle, fun i hi => decodeQuarter_flipCode hi⟩

/-- Settles O12: two flipped bits leave the parity even, and two columns are never equal. -/
theorem secdedDetectsDouble : Obligations.SecdedDetectsDouble := by
  intro n d hn _
  have hle : n ≤ 160 := by omega
  exact ⟨fun i j hij hj => decodeQuarter_flipData_flipData hij hj hle, fun i j hi hj => decodeQuarter_flipData_flipCode hi hle hj,
    fun i j hij hj => decodeQuarter_flipCode_flipCode hij hj⟩

/-- Settles O10: each row is one case of the table; the largest positions are those of the last data bit. -/
theorem secdedDecoding : Obligations.SecdedDecoding := by
  refine ⟨fun n d c => ⟨decodeQuarter_clean, decodeQuarter_code, fun hp hs hcheck hle => ?_, fun hp hs hcheck hlt => ?_,
    decodeQuarter_double⟩, ?_⟩
  · exact (decodeQuarter_position hp hs hcheck).trans (if_pos hle)
  · exact (decodeQuarter_position hp hs hcheck).trans (if_neg (Nat.not_le_of_lt hlt))
  · decide

end Sys2Proof.Machine
end

section
/-!
# PROOFS. 02, packets and units: the packets at the units that take them

Every packet passes its unit's checks first: that part is said once, by the laws of the receipt. What is left is the body of one
command in one of its cases, and each lemma below is such a case.
-/
namespace Sys2Proof.Machine

/-! ## Writes (02 R60; 05 R130 to R137) -/

/-- The commands that bring a write-type packet to an endpoint. -/
theorem exec_of_mem_writes {ep : Nat} {p : Packet} {c : Instr}
    (h : c ∈ [.write ep p, .writeInline ep p, .writeSignal ep p, .signal ep p]) (s : State) :
    exec c s = up s (fun s => s.recvWrite ep p) := by
  simp only [List.mem_cons, List.not_mem_nil, or_false] at h
  rcases h with rfl | rfl | rfl | rfl <;> rfl

/-- The same with the multicast writes that come to a landing. -/
theorem exec_of_mem_landingWrites {ep port : Nat} {p : Packet} {c : Instr}
    (h : c ∈ [.write ep p, .writeInline ep p, .signal ep p, .writeSignal ep p, .mcastWrite (.landing ep) port p,
      .mcastWriteSignal (.landing ep) port p]) (s : State) : exec c s = up s (fun s => s.recvWrite ep p) := by
  simp only [List.mem_cons, List.not_mem_nil, or_false] at h
  rcases h with rfl | rfl | rfl | rfl | rfl | rfl <;> rfl

/-- A write that its endpoint takes in is applied. -/
theorem runs_write {s : State} {ep : Nat} {p : Packet} {c : Instr} {t : State} (hs : s.live)
    (hc : exec c s = up s (fun s => s.recvWrite ep p)) (hq : (s.quiet.takeRx (epUnit ep) p).soundAt ep p)
    (ht : (s.quiet.takeRx (epUnit ep) p).applyWrite ep p = t) : Runs c s t :=
  runs_up hs hc ((State.receive_takeIn _ _ _ _ _ _ hq).trans ht)

/-- A new write stored at a landing: counted, written, put through the taps and counted for its windows; a SIGNAL has no data. -/
def State.writeStored (s : State) (l : Nat) (p : Packet) (rx : Option (Nat × RxStream)) : State :=
  if p.hdr.command = 7#8 then s
  else (((s.countArrival l p.hdr.addr.toNat (packetBytes p).length).storeWrite l p rx).tapBytes l true p.hdr.src p.hdr.stream p.hdr.seq
    (packetBytes p)).countWindows l p.hdr.addr.toNat (packetBytes p).length

/-- The semaphore operation of a packet whose command bears one. -/
def State.writeSignalled (s : State) (l : Nat) (h : Header) : State := if bearsSignal h.command.toNat then s.packetSignal l h else s

section
variable {s f : State} {l : Nat} {p : Packet} {rx : Option (Nat × RxStream)} (hl : l < 2048)
  (hheld : ¬ (p.hdr.command ≠ 7#8 ∧ s.scrubbing l p.hdr.addr.toNat (packetBytes p).length = true))
  (hrx : (if p.hdr.cls = 1#1 then s.rxDesc l p else none) = rx) (hdesc : ¬ (p.hdr.cls = 1#1 ∧ rx.isNone = true))
include hl hheld hrx hdesc

/-- What a new write does at a landing before it is acknowledged: its data, its descriptor's semaphore, its own. -/
theorem State.applyWrite_new (hf : s.filter l p.hdr = (.apply, f)) (hmiss : s.writeMiss l p rx = none) :
    s.applyWrite l p =
      let a := f.writeStored l p rx
      (((rx.elim a (fun r => if r.2.desc.getLsbD 165 then a.semBump l (r.2.desc.extractLsb' 166 8) else a)).writeSignalled l p.hdr).settleTile
        l).ack l p.hdr 0 := by
  simp only [State.applyWrite, if_pos hl, if_neg hheld, hrx, if_neg hdesc, hf, hmiss]
  cases rx <;> rfl

theorem State.applyWrite_mismatch {k : Nat} (hf : s.filter l p.hdr = (.apply, f)) (hmiss : s.writeMiss l p rx = some k) :
    s.applyWrite l p = s.failReceipt (epUnit l) (epPort l) p 1 (fun a => a.writeLost l p rx (some k)) := by
  simp only [State.applyWrite, if_pos hl, if_neg hheld, hrx, if_neg hdesc, hf, hmiss]

theorem State.applyWrite_duplicate (hf : s.filter l p.hdr = (.duplicate, f)) :
    s.applyWrite l p = (f.bump 0x102003 (8192 + l) 0 0 0 32 1).ack l p.hdr 1 := by
  simp only [State.applyWrite, if_pos hl, if_neg hheld, hrx, if_neg hdesc, hf]

end

theorem State.applyWrite_lodge {s f : State} {p : Packet} (hf : s.filter 2049 p.hdr = (.apply, f)) :
    s.applyWrite 2049 p = (f.sramSet p.hdr.addr.toNat (packetBytes p)).ack 2049 p.hdr 0 := by
  simp [State.applyWrite, hf]

theorem State.applyWrite_host {s f : State} {p : Packet} (hc : p.hdr.command ≠ 7#8) (hf : s.filter 2048 p.hdr = (.apply, f)) :
    s.applyWrite 2048 p =
      f.hostWrite 1 p.hdr p.hdr.addr.toNat (if p.hdr.command = 2#8 then payloadsOf 1 (packetBytes p) else p.data) := by
  simp [State.applyWrite, hf, hc]

theorem exec_mcastWrite (u : UnitId) (port : Nat) (p : Packet) (s : State) :
    exec (.mcastWrite u port p) s = up s (fun s => s.recvMcast u port p) := rfl
theorem exec_mcastWriteSignal (u : UnitId) (port : Nat) (p : Packet) (s : State) :
    exec (.mcastWriteSignal u port p) s = up s (fun s => s.recvMcast u port p) := rfl

/-- A multicast write at a unit that is no landing is replicated. -/
theorem State.recvMcast_replicated (s : State) {u : UnitId} (port : Nat) (p : Packet) {b : State} (hu : u.level ≠ 0) (hb : s.bank p.hdr = some b) :
    s.recvMcast u port p = (s.takeRx u p).startMcast b u port .normal p.hdr (rawUnits p) true := by
  cases u
  case landing => exact absurd rfl hu
  all_goals simp only [State.recvMcast, hb, Option.getD_some]

theorem level_ne_zero_of_replicates {u : UnitId} (h : isSwitch u = true ∨ u.level = 4) : u.level ≠ 0 := by
  cases u <;> simp_all [isSwitch, UnitId.level]

/-! ## Reads (04 R109, R111) -/

theorem exec_readReq (ep : Nat) (p : Packet) (s : State) : exec (.readReq ep p) s = up s (fun s => s.readReq ep p) := rfl
theorem exec_readResp (ep : Nat) (p : Packet) (s : State) :
    exec (.readResp ep p) s = up s (fun s => (s.readResp ep p).startLaunches ep) := rfl

section
variable {s q f : State} {ep : Nat} {p : Packet} (hq : s.takeRx (epUnit ep) p = q) (hsound : q.soundAt ep p)
include hq hsound

/-- A new read that finds room in the queue joins it, and its rows are read. -/
theorem State.readReq_queued (hroom : q.readsFull ep = false) (hheld : ep < 2048 → q.scrubbing ep p.hdr.addr.toNat (touched p.hdr) = false)
    (hf : q.filter ep p.hdr = (.apply, f)) :
    s.readReq ep p =
      let r := f.readRespHeader ep p.hdr
      let a := f.onEp ep (fun x => { x with reads := x.reads ++ [p] })
      if ep = 2049 then a.queueTx ep .answer r (payloadsOf 64 (sramRead a.lodge.sram p.hdr.addr.toNat (touched p.hdr))) 64
      else a.startRead ep
        { use := .response, hdr := r, base := p.hdr.addr.toNat, bytes := touched p.hdr, rows := [], kind := .answer } := by
  subst hq
  refine (State.receive_takeIn _ _ _ _ _ _ hsound).trans ?_
  have hscrub : ¬ (ep < 2048 ∧ (s.takeRx (epUnit ep) p).scrubbing ep p.hdr.addr.toNat (touched p.hdr) = true) :=
    fun h => by simp [hheld h.1] at h
  simp only [hroom, if_neg hscrub, hf, Bool.false_eq_true, if_false, reduceCtorEq, false_and]

section
variable {k : Nat} {o : Outst} (hopen : q.openPacket ep p.hdr = some (k, o)) (hread : o.hdr.command = 3#8)
include hopen hread

theorem State.readResp_landing (hl : ep < 2048) (hheld : q.scrubbing ep p.hdr.addr.toNat (64 * p.data.length) = false)
    (hmiss : q.permuteMiss ep p.hdr.addr.toNat false p = none) :
    s.readResp ep p = (((((q.countArrival ep p.hdr.addr.toNat (64 * p.data.length)).writeUnits ep p.hdr.addr.toNat p.data).tapBytes ep true
      p.hdr.src p.hdr.stream p.hdr.seq (unitBytes p.data)).countWindows ep p.hdr.addr.toNat (64 * p.data.length)).packetDone ep k o).settleTile
        ep := by
  subst hq
  refine (State.receive_takeIn _ _ _ _ _ _ hsound).trans ?_
  have hr : (s.takeRx (epUnit ep) p).openRead ep p.hdr = some (k, o) := by simp [State.openRead, hopen, hread]
  have hne : ep ≠ 2048 := hl.ne
  simp only [hr, if_neg hne, hheld, hmiss, Bool.false_eq_true, if_false]

theorem State.readResp_host (he : ep = 2048) :
    s.readResp ep p = (q.hostWrite 6 p.hdr p.hdr.addr.toNat p.data).packetDone ep k o := by
  subst hq
  refine (State.receive_takeIn _ _ _ _ _ _ hsound).trans ?_
  have hr : (s.takeRx (epUnit ep) p).openRead ep p.hdr = some (k, o) := by simp [State.openRead, hopen, hread]
  simp only [hr, if_pos he]

end
end

/-! ## Answers (02 R60; 04 R111; 07 R202, R203) -/

section
variable {s : State} {e k : Nat} {h : Header} {o : Outst} (hopen : s.openPacket e h = some (k, o))
include hopen

theorem State.takeAck_open (hm : o.hdr.mcast = 0#1) (hclosing : o.closing = false) :
    s.takeAck e h = if o.hdr.cls = 1#1 then s.schedAck e k o else s.packetDone e k o := by
  simp [State.takeAck, hopen, hm, hclosing]

/-- A NACK of the attempt that is under way. -/
theorem State.takeNack_open (hsent : o.sent = true) (hstamp : o.hdr.stamp = h.inl.setWidth 32) (hfailed : o.failed = false) :
    s.takeNack e h = s.failPacket e k o := by
  simp [State.takeNack, hopen, hsent, hstamp, hfailed]

theorem State.takeError_open (hlaunch : s.endedLaunch e h = none) (hsent : o.sent = true)
    (hstamp : o.hdr.stamp = (unpackHeader (h.inl ++ 0#256)).stamp) :
    s.takeError e h = if o.hdr.cls = 1#1 ∨ o.closing = true then s.failStream e k o.hdr else s.endEntry e k (h.aux.toNat % 256) := by
  simp [State.takeError, hlaunch, hopen, hsent, hstamp]

end

theorem State.takeError_launch {s : State} {e k : Nat} {h : Header} (hlaunch : s.endedLaunch e h = some k) :
    s.takeError e h = s.endEntry e k (h.aux.toNat % 256) := by
  simp only [State.takeError, hlaunch]

theorem State.failPacket_sched (s : State) (e k : Nat) {o : Outst} (hcls : o.hdr.cls = 1#1) : s.failPacket e k o = s.schedFail e k o :=
  if_pos hcls

theorem State.failPacket_dynamic (s : State) (e k : Nat) {o : Outst} (hcls : o.hdr.cls = 0#1) (hclosing : o.closing = false) :
    s.failPacket e k o = if o.attempt < 3 then s.resend e k o else s.endEntry e k 6 := by
  simp [State.failPacket, State.retry, hcls, hclosing]

theorem exec_errorResp (ep : Nat) (p : Packet) (s : State) :
    exec (.errorResp ep p) s = up s (fun s => (s.receive (epUnit ep) (epPort ep) p (fun s => s.takeError ep p.hdr)).startLaunches ep) := rfl
theorem exec_mcastReport (ep : Nat) (p : Packet) (s : State) : exec (.mcastReport ep p) s =
    up s (fun s => (s.receive (epUnit ep) (epPort ep) p (fun s => s.mcastReport ep p)).startLaunches ep) := rfl

section
variable {s t : State} {u : UnitId} {ep : Nat} {p : Packet} (hs : s.live)
include hs

/-- A sound ACK at an endpoint. -/
theorem runs_ack (port : Nat) (hu : epOf u = some ep) (hq : (s.quiet.takeRx u p).sound u p)
    (ht : (s.quiet.takeRx u p).takeAck ep p.hdr = t) : Runs (.ack u port p) s (t.startLaunches ep) := by
  have hexec : exec (.ack u port p) s = up s (fun s => (s.receive u port p (fun s => s.takeAck ep p.hdr)).startLaunches ep) := by
    cases u <;> cases hu <;> rfl
  exact runs_up hs hexec (congrArg (State.startLaunches · ep) ((State.receive_sound _ _ _ _ _ hq).trans ht))

/-- A sound NACK at an endpoint. -/
theorem runs_nack (port : Nat) (hu : epOf u = some ep) (hq : (s.quiet.takeRx u p).sound u p)
    (ht : (s.quiet.takeRx u p).takeNack ep p.hdr = t) : Runs (.nack u port p) s (t.startLaunches ep) := by
  have hexec : exec (.nack u port p) s = up s (fun s => (s.receive u port p (fun s => s.takeNack ep p.hdr)).startLaunches ep) := by
    cases u <;> cases hu <;> rfl
  exact runs_up hs hexec (congrArg (State.startLaunches · ep) ((State.receive_sound _ _ _ _ _ hq).trans ht))

theorem runs_errorResp (hq : (s.quiet.takeRx (epUnit ep) p).sound (epUnit ep) p)
    (ht : (s.quiet.takeRx (epUnit ep) p).takeError ep p.hdr = t) : Runs (.errorResp ep p) s (t.startLaunches ep) :=
  runs_up hs (exec_errorResp ep p s) (congrArg (State.startLaunches · ep) ((State.receive_sound _ _ _ _ _ hq).trans ht))

theorem runs_mcastReport (hq : (s.quiet.takeRx (epUnit ep) p).sound (epUnit ep) p)
    (ht : (s.quiet.takeRx (epUnit ep) p).mcastReport ep p = t) : Runs (.mcastReport ep p) s (t.startLaunches ep) :=
  runs_up hs (exec_mcastReport ep p s) (congrArg (State.startLaunches · ep) ((State.receive_sound _ _ _ _ _ hq).trans ht))

end

theorem exec_ack_stair (n port : Nat) (p : Packet) (s : State) :
    exec (.ack (.stair n) port p) s = up s (fun s => s.stairAnswer n port p true) := rfl
theorem exec_nack_stair (n port : Nat) (p : Packet) (s : State) :
    exec (.nack (.stair n) port p) s = up s (fun s => s.stairAnswer n port p false) := rfl

/-- The record of a packet at a stair after the answer of a port. -/
def noteAnswer (r : ReportRec) (port : Nat) (acked : Bool) : ReportRec :=
  { r with answered := if r.answered.contains port then r.answered else r.answered ++ [port]
           delivered := if acked && !r.delivered.contains port then r.delivered ++ [port] else r.delivered }

theorem noteAnswer_ack (r : ReportRec) (port : Nat) : noteAnswer r port true =
    { r with answered := if r.answered.contains port then r.answered else r.answered ++ [port]
             delivered := if r.delivered.contains port then r.delivered else r.delivered ++ [port] } := by
  unfold noteAnswer
  cases r.delivered.contains port <;> rfl

/-- An answer that meets its record at a stair: a NACK goes on, and the record is kept or reported. -/
theorem State.stairAnswer_noted {s q : State} {n port k : Nat} {p : Packet} {r : ReportRec} (acked : Bool)
    (hq : s.takeRx (.stair n) p = q)
    (hfind : (q.sw (.stair n)).reports.find? (fun r =>
      r.2.hdr.src == p.hdr.dst && r.2.hdr.stream == p.hdr.stream && r.2.hdr.seq == p.hdr.seq && r.2.ports.contains port) = some (k, r))
    (hthree : checkThree p = none) (hoperand : reservedOperand p.hdr = false) :
    s.stairAnswer n port p acked =
      let a := if acked then q else q.forward (.stair n) port p
      let r' := noteAnswer r port acked
      if r'.ports.all (fun x => r'.answered.contains x) then a.sendReport n k r'
      else a.onSw (.stair n) (fun w => { w with reports := w.reports.put k r' }) := by
  subst hq
  simp only [State.stairAnswer, hfind, hthree, hoperand, Option.isSome_none, Bool.false_eq_true, if_false]
  rfl

/-! ## Reports (07 R202 to R204) -/

/-- A stair's report of a packet of a descriptor's: it enters the delivery log and the census, which may be reached by it. -/
theorem State.mcastReport_stair {s : State} {e k : Nat} {p : Packet} {o : Outst} {d : Desc} (hopen : s.openPacket e p.hdr = some (k, o))
    (hm : o.hdr.mcast = 1#1) (hcls : o.hdr.cls = 0#1) (hcount : o.hdr.command ≠ 0x22#8) (hsent : o.sent = true)
    (hyoung : (p.hdr.stamp - o.hdr.stamp).toNat < 2 ^ 31) (hd : (s.entry e k).desc = some d) (hlevel : bitsAt p.hdr.aux.toNat 29 3 = 1)
    (hnacked : o.nacked = false) :
    s.mcastReport e p =
      let o' := { o with stairs := o.stairs + 1 }
      let a := ((s.reportChip p.hdr).2.logDelivery e k 1 (s.reportChip p.hdr).1 (bitsAt p.hdr.aux.toNat 17 12)
        (logMask 1 (p.hdr.inl.toNat % 2 ^ 128)) (logMask 1 (p.hdr.inl.toNat / 2 ^ 128)) d.tag).onEntry e k (fun en => { en with
          outst := en.outst.map (fun x => if x.hdr.seq = o.hdr.seq then o' else x) })
      if (a.census e (o.hdr.dst.toNat % 2 ^ 20)).any (fun c => c ≤ o.stairs + 1) then a.packetDone e k o' else a := by
  have hpass : ¬ (o.hdr.mcast = 0#1 ∨ (!o.sent) = true ∨ (p.hdr.stamp - o.hdr.stamp).toNat ≥ 2 ^ 31) := by
    simpa only [hm, hsent, not_or, ge_iff_le, Nat.not_le] using ⟨by decide, by decide, hyoung⟩
  simp only [State.mcastReport, hopen, if_neg hpass, hd, if_neg hcount, hlevel, hcls, hnacked, if_true, Bool.not_false, true_and,
    show ((1 : Nat) == 3) = false from rfl, Bool.or_false, show ¬ (0#1 = 1#1) by decide, if_false]

/-! ## Scrubs (05 R138; 10 R274) -/

theorem exec_scrubReq (ep : Nat) (p : Packet) (s : State) : exec (.scrubReq ep p) s = up s (fun s => s.scrubReq ep p) := rfl

theorem State.scrubReq_started {s q : State} {l : Nat} {p : Packet} (hq : s.takeRx (epUnit l) p = q) (hsound : q.sound (epUnit l) p)
    (hl : l < 2048) (hpermit : permits l p.hdr = true) (halign : p.hdr.addr.toNat % 64 = 0)
    (hrange : p.hdr.addr.toNat + 64 * (p.hdr.aux.toNat % 2 ^ 14) ≤ 0xC0000) :
    s.scrubReq l p = q.startScrub l p.hdr.addr.toNat (p.hdr.aux.toNat % 2 ^ 14) (some p.hdr) := by
  subst hq
  refine (State.receive_sound _ _ _ _ _ hsound).trans ?_
  have hpass : ¬ ((!permits l p.hdr) = true ∨ p.hdr.addr.toNat % 64 ≠ 0 ∨
      0xC0000 < p.hdr.addr.toNat + 64 * (p.hdr.aux.toNat % 2 ^ 14)) := by
    simp only [hpermit, halign, Bool.not_true, ne_eq, not_true_eq_false, not_or, not_false_eq_true, Bool.false_eq_true, true_and]
    omega
  simp only [if_neg (Nat.not_le_of_lt hl), if_neg hpass]

theorem exec_scrubDone (ep : Nat) (p : Packet) (s : State) : exec (.scrubDone ep p) s = execScrubDone ep p s := rfl

/-- The end of a scrub that a keeper ordered. -/
theorem runs_scrubDone {s t : State} {ep : Nat} {p : Packet} (hs : s.live) (hsound : (s.quiet.takeRx (epUnit ep) p).soundAt ep p)
    (hl : localOf p.hdr.src < 2048) (hchip : chipOf p.hdr.src = (s.quiet.takeRx (epUnit ep) p).chipNo)
    (hdue : ((s.quiet.takeRx (epUnit ep) p).tile (localOf p.hdr.src)).scrubDue.isSome = true) (hkeeper : sectorKeeper (localOf p.hdr.src) = ep)
    (ht : (if 12288 ≤ p.hdr.aux.toNat % 2 ^ 14 then (s.quiet.takeRx (epUnit ep) p).scrubDone (localOf p.hdr.src)
      else (s.quiet.takeRx (epUnit ep) p).scrubFailed (localOf p.hdr.src)) = t) : Runs (.scrubDone ep p) s t :=
  runs_up hs (exec_scrubDone ep p s) ((State.receive_takeIn _ _ _ _ _ _ hsound).trans ((if_pos ⟨hl, hchip, hdue, hkeeper⟩).trans ht))

/-! ## Trace and fault messages (11 R297 to R299; 13 R340) -/

theorem exec_trace (u : UnitId) (port : Nat) (p : Packet) (s : State) : exec (.trace u port p) s = execTrace u port p s := rfl

/-- The unit that collects trace packets takes their records. -/
theorem runs_trace {s : State} {u : UnitId} (port : Nat) {p : Packet} (hs : s.live) (hu : u.level = 2 ∨ u.level = 3 ∨ u = .special 2060)
    (hsound : (s.quiet.takeRx u p).sound u p) :
    Runs (.trace u port p) s ((traceRecords p).foldl (fun a r => a.traceTake u r) (s.quiet.takeRx u p)) := by
  refine runs_up hs (exec_trace u port p s) ((State.receive_sound _ _ _ _ _ hsound).trans ?_)
  cases u
  case gallery | hall => rfl
  case special e =>
    obtain rfl : e = 2060 := by simpa [UnitId.level] using hu
    rfl
  all_goals simp [UnitId.level] at hu

/-- The gatehouse after `n` occurrences of a message's kind have been counted at its source. -/
def State.countFault (s : State) (m : BitVec 128) (n : Nat) : State :=
  let key := sourceKey (fmLevel m) (fmInst m) (fmKind m)
  { s with gate := { s.gate with
      summary := s.gate.summary.modify 0 key (fun c => c + n)
      flags := if s.val 0x300301 ≤ fmClass m ∧ s.gate.flags.contains key = false then s.gate.flags ++ [key] else s.gate.flags } }

section
variable {s : State} {m : BitVec 128} {f : FaultKind} (hbad : badFault m = false) (hkind : findKind (fmKind m) = some f) (hk0 : f.k0 = false)
include hbad hkind hk0

/-- A message that repeats an earlier one is only counted. -/
theorem State.faultMsg_repeat (hrep : fmRepeat m ≠ 0) : s.faultMsg m = s.countFault m (fmRepeat m) := by
  simp only [State.faultMsg, hbad, hkind, hk0, Bool.false_eq_true, if_false, Bool.false_or, beq_iff_eq, hrep, Bool.not_eq_true']
  by_cases hflag : s.val 0x300301 ≤ fmClass m ∧ s.gate.flags.contains (sourceKey (fmLevel m) (fmInst m) (fmKind m)) = false <;>
    simp only [State.countFault, hflag, and_self, if_true, if_false]

/-- A new message that the record FIFO has room for. -/
theorem State.faultMsg_new (hrep : fmRepeat m = 0) (hroom : s.gate.fifo.length < fifoLimit (fmClass m)) :
    s.faultMsg m =
      let time := extendTime s.time (fmTime m)
      let b := ((s.countFault m 1).fifoPut m time (fmPart m)).latchFirst m (fmClass m) time (some s.gate.recNo.toNat)
      if b.val 0x300302 ≤ fmClass m then b.post 0x0001 (if fmPart m < 512 then some (fmPart m) else none) m.toNat else b := by
  simp only [State.faultMsg, hbad, hkind, hk0, Bool.false_eq_true, if_false, Bool.false_or, beq_iff_eq, hrep, Bool.not_eq_true', if_true,
    decide_eq_true_eq]
  by_cases hflag : s.val 0x300301 ≤ fmClass m ∧ s.gate.flags.contains (sourceKey (fmLevel m) (fmInst m) (fmKind m)) = false <;>
    simp only [State.countFault, hflag, and_self, if_true, if_false, hroom]
end

theorem exec_faultMsg (port : Nat) (m : BitVec 128) (s : State) : exec (.faultMsg port m) s = execFaultMsg port m s := rfl

/-- A message whose packet no unit holds is taken as it comes. -/
theorem runs_faultMsg_bare {s t : State} (port : Nat) {m : BitVec 128} (hs : s.live)
    (hnone : (s.node (.special 2050)).rxDone.find? (fun x => x.hdr.command == 0x32#8 && x.hdr.inl.setWidth 128 == m) = none)
    (ht : s.quiet.faultMsg m = t) : Runs (.faultMsg port m) s t := by
  refine runs_up hs (exec_faultMsg port m s) (Eq.trans ?_ ht)
  have hnone' : (s.quiet.node (.special 2050)).rxDone.find? _ = none := hnone
  simp only [hnone']

/-- A message whose packet waits is taken with it. -/
theorem runs_faultMsg_held {s : State} (port : Nat) {p : Packet} {m : BitVec 128} (hs : s.live)
    (hheld : (s.node (.special 2050)).rxDone.find? (fun x => x.hdr.command == 0x32#8 && x.hdr.inl.setWidth 128 == m) = some p)
    (hsound : (s.quiet.takeRx (.special 2050) p).sound (.special 2050) p) :
    Runs (.faultMsg port m) s ((s.quiet.takeRx (.special 2050) p).faultMsg m) := by
  refine runs_up hs (exec_faultMsg port m s) (Eq.trans ?_ (State.receive_sound s.quiet (.special 2050) port p (fun s => s.faultMsg m) hsound))
  have hheld' : (s.quiet.node (.special 2050)).rxDone.find? _ = some p := hheld
  simp only [hheld']

/-! ## The time beacon and the drain (04 R113, R114; 08 R230) -/

theorem exec_timeBeacon (p : Packet) (s : State) : exec (.timeBeacon p) s = execTimeBeacon p s := rfl
theorem exec_fenceDrainMark (u : UnitId) (port : Nat) (p : Packet) (s : State) :
    exec (.fenceDrainMark u port p) s = up s (fun s => s.drainMark u port p) := rfl
theorem exec_fenceDrainAck (ep : Nat) (p : Packet) (s : State) : exec (.fenceDrainAck ep p) s = execFenceDrainAck ep p s := rfl

/-- A mark of the drain under way is noted for its input, and goes on. -/
theorem State.drainMark_noted {s a : State} {u : UnitId} {port : Nat} {p : Packet} (hheader : headerFault p.hdr = none)
    (hthree : checkThree p = none) (ha : (s.takeRx u p).joinDrain p.hdr = a) (hnumber : p.hdr.aux.toNat / 2 ^ 10 = a.drain.number)
    (hdom : a.domState u ≠ .rejoining) :
    s.drainMark u port p =
      let key := p.hdr.aux.toNat % 1024 * 8 + p.hdr.vc.toNat
      let i := a.markInput u port key
      ((a.onNode u (fun n => { n with
        marks := if n.marks.contains (i, key) then n.marks else n.marks ++ [(i, key)] })).sendMarks u).answerMarks u := by
  have hgo : ¬ (p.hdr.aux.toNat / 2 ^ 10 ≠ a.drain.number ∨ a.domState u = .rejoining) := not_or.mpr ⟨not_not.mpr hnumber, hdom⟩
  simp only [State.drainMark, hheader, hthree, ha, if_neg hgo, Option.isSome_none, Bool.false_eq_true, or_self, if_false]

/-- An answer to the drain under way, at the head keeper or at a sector keeper. -/
theorem runs_fenceDrainAck {s q t : State} {ep : Nat} {p : Packet} (hs : s.live) (hq : s.quiet.takeRx (epUnit ep) p = q)
    (hsound : q.sound (epUnit ep) p) (hnumber : p.hdr.aux.toNat / 2 ^ 10 = q.drain.number) (hlo : 2051 ≤ ep) (hhi : ep ≤ 2059)
    (ht : (if ep = 2051 then q.drainAnswered (q.ackCode p.hdr.src) else q.sectorAnswered ep (localOf p.hdr.src)) = t) :
    Runs (.fenceDrainAck ep p) s t := by
  subst hq
  refine runs_up hs (exec_fenceDrainAck ep p s) ((State.receive_sound _ _ _ _ _ hsound).trans ((if_neg ?_).trans ht))
  omega

end Sys2Proof.Machine
end

section
/-!
# PROOFS. The packets of 02 at their units, settled
-/
namespace Sys2Proof.Machine

/-- Settles O41: past the checks of its unit each packet is one case of its command. -/
theorem packetsAtUnits : Obligations.PacketsAtUnits := by
  intro s p hs h addr bs
  refine ⟨?writes, ?lodge, ?host, ?mcast, ?reads, ?responses, ?answers, ?stairs, ?errors, ?reports, ?scrubs, ?scrubEnds, ?traces,
    ?faults, ?heldFaults, ?beacon, ?marks, ?drainAcks⟩
  case writes =>
    intro ep port c hep hc q stored signalled hq hscrub
    have hheld : ¬ (h.command ≠ 7#8 ∧ q.scrubbing ep addr bs.length = true) := by
      rintro ⟨hne, htrue⟩
      simp [hscrub.resolve_left hne] at htrue
    have hrun {t : State} (ht : q.applyWrite ep p = t) : Runs c s t := runs_write hs (exec_of_mem_landingWrites hc s) hq ht
    have hdyn (hcls : h.cls = 0#1) : (if h.cls = 1#1 then q.rxDesc ep p else none) = none := if_neg (by simp [hcls])
    refine ⟨fun f hcls hf hmiss => ?_, fun f k hcls hf hmiss => ?_, fun f r hcls hr hf hmiss => ?_, fun f hcls hf => ?_⟩
    · exact hrun (State.applyWrite_new (f := f) (rx := none) hep hheld (hdyn hcls) (by simp [h, hcls]) hf hmiss)
    · exact hrun (State.applyWrite_mismatch (f := f) (rx := none) (k := k) hep hheld (hdyn hcls) (by simp [h, hcls]) hf hmiss)
    · exact hrun (State.applyWrite_new (f := f) (rx := some r) hep hheld ((if_pos hcls).trans hr) (by simp) hf hmiss)
    · exact hrun (State.applyWrite_duplicate (f := f) (rx := none) hep hheld (hdyn hcls) (by simp [h, hcls]) hf)
  case lodge =>
    intro c f hc q hq hf
    exact runs_write hs (exec_of_mem_writes (List.mem_append_left [.writeSignal 2049 p, .signal 2049 p] hc) s) hq (State.applyWrite_lodge hf)
  case host =>
    intro c f hc q hq hsignal hf us
    exact runs_write hs (exec_of_mem_writes (List.mem_append_left [.signal 2048 p] hc) s) hq (State.applyWrite_host hsignal hf)
  case mcast =>
    intro u port b hu q hb
    have hrep := s.quiet.recvMcast_replicated port p (level_ne_zero_of_replicates hu) hb
    exact ⟨runs_up hs (exec_mcastWrite u port p s) hrep, runs_up hs (exec_mcastWriteSignal u port p s) hrep⟩
  case reads =>
    intro ep f q hq hroom hf a r
    have hrun (hheld : ep < 2048 → q.scrubbing ep addr (touched h) = false) :=
      runs_up hs (exec_readReq ep p s) (State.readReq_queued rfl hq hroom hheld hf)
    refine ⟨fun hle hheld => ?_, fun he => ?_⟩
    · have hread := hrun (fun hlt => hheld.resolve_left hlt.ne)
      rwa [if_neg (by omega : ep ≠ 2049)] at hread
    · have hread := hrun (fun hlt => by omega)
      rwa [if_pos he] at hread
  case responses =>
    intro ep k o q n hq hopen hread
    refine ⟨fun hl hheld hmiss => ?_, fun he => ?_⟩
    · exact runs_up hs (exec_readResp ep p s) (congrArg (State.startLaunches · ep) (State.readResp_landing rfl hq hopen hread hl hheld hmiss))
    · exact runs_up hs (exec_readResp ep p s) (congrArg (State.startLaunches · ep) (State.readResp_host rfl hq hopen hread he))
  case answers =>
    intro u ep port k o hu q hq hopen hclosing
    have hnack {t : State} (hsent : o.sent = true) (hstamp : o.hdr.stamp = h.inl.setWidth 32) (hfailed : o.failed = false)
        (ht : q.failPacket ep k o = t) : Runs (.nack u port p) s (t.startLaunches ep) :=
      runs_nack hs port hu hq ((State.takeNack_open hopen hsent hstamp hfailed).trans ht)
    refine ⟨fun hm => ⟨fun hcls => ?_, fun hcls => ?_⟩,
      fun hsent hstamp hfailed => ⟨fun hcls hlt => ?_, fun hcls hge => ?_, fun hcls => ?_⟩⟩
    · exact runs_ack hs port hu hq ((State.takeAck_open hopen hm hclosing).trans (if_neg (by simp [hcls])))
    · exact runs_ack hs port hu hq ((State.takeAck_open hopen hm hclosing).trans (if_pos hcls))
    · exact hnack hsent hstamp hfailed ((q.failPacket_dynamic ep k hcls hclosing).trans (if_pos hlt))
    · exact hnack hsent hstamp hfailed ((q.failPacket_dynamic ep k hcls hclosing).trans (if_neg (Nat.not_lt_of_le hge)))
    · exact hnack hsent hstamp hfailed (q.failPacket_sched ep k hcls)
  case stairs =>
    intro n port k r q hfind hthree hoperand answered noted
    refine ⟨?_, runs_up hs (exec_nack_stair n port p s) (State.stairAnswer_noted false rfl hfind hthree hoperand)⟩
    have hrun := runs_up hs (exec_ack_stair n port p s) (State.stairAnswer_noted true rfl hfind hthree hoperand)
    rwa [noteAnswer_ack] at hrun
  case errors =>
    intro ep k o q hq
    refine ⟨fun hlaunch => runs_errorResp hs hq (State.takeError_launch hlaunch),
      fun hlaunch hopen hsent hstamp => ⟨fun hcls hclosing => ?_, fun hcls => ?_⟩⟩
    · exact runs_errorResp hs hq ((State.takeError_open hopen hlaunch hsent hstamp).trans (if_neg (by simp [hcls, hclosing])))
    · exact runs_errorResp hs hq ((State.takeError_open hopen hlaunch hsent hstamp).trans (if_pos (.inl hcls)))
  case reports =>
    intro ep k o d q hq hopen hm hcls hcount hsent hyoung hd hlevel hnacked o' a c hcensus
    have hreport := State.mcastReport_stair hopen hm hcls hcount hsent hyoung hd hlevel hnacked
    have hreached : (a.census ep (o.hdr.dst.toNat % 2 ^ 20)).any (fun c => c ≤ o.stairs + 1) = decide (c ≤ o.stairs + 1) := by
      rw [hcensus, Option.any_some]
    exact ⟨fun hle => runs_mcastReport hs hq (hreport.trans (if_pos (hreached.trans (decide_eq_true hle)))),
      fun hlt => runs_mcastReport hs hq (hreport.trans (if_neg (by rw [hreached]; simpa using hlt)))⟩
  case scrubs =>
    intro ep q hl hq hpermit halign hrange
    exact runs_up hs (exec_scrubReq ep p s) (State.scrubReq_started rfl hq hl hpermit halign hrange)
  case scrubEnds =>
    rintro ep l q hq rfl hl hchip hdue hkeeper
    exact ⟨fun hall => runs_scrubDone hs hq hl hchip hdue hkeeper (if_pos hall),
      fun hpart => runs_scrubDone hs hq hl hchip hdue hkeeper (if_neg (Nat.not_le_of_lt hpart))⟩
  case traces =>
    intro u port hu q hq
    exact runs_trace port hs hu hq
  case faults =>
    intro port m f hbad hkind hk0 hnone key a
    exact ⟨fun hrep => runs_faultMsg_bare port hs hnone (State.faultMsg_repeat hbad hkind hk0 hrep),
      fun hrep hroom => runs_faultMsg_bare port hs hnone (State.faultMsg_new hbad hkind hk0 hrep hroom)⟩
  case heldFaults =>
    intro port m q hheld hq
    exact runs_faultMsg_held port hs hheld hq
  case beacon =>
    intro q hq
    exact runs_up hs (exec_timeBeacon p s) (s.quiet.receive_takeIn 2051 0 p id (fun a => a) hq)
  case marks =>
    intro u port hheader hthree key a i hnumber hdom
    exact runs_up hs (exec_fenceDrainMark u port p s) (State.drainMark_noted hheader hthree rfl hnumber hdom)
  case drainAcks =>
    intro ep q hq hnumber
    refine ⟨?_, fun hlo hhi => runs_fenceDrainAck hs rfl hq hnumber (by omega) hhi (if_neg (by omega))⟩
    rintro e rfl rfl
    exact runs_fenceDrainAck hs rfl hq hnumber (by omega) (by omega) (if_pos rfl)

end Sys2Proof.Machine
end

section
/-!
# PROOFS. 03, scheduled traffic: deadlines, hold notices, frames and plan images

One equation for each case of what the timers and events of scheduled traffic do to the state.
-/
namespace Sys2Proof.Machine

/-! ## Attempts past their deadline (03 R73) -/

theorem exec_schedAckDeadline (l e : Nat) (seq : BitVec 16) (s : State) :
    exec (.schedAckDeadline l e seq) s = execSchedAckDeadline l e seq s := rfl

/-- The attempt that a deadline names has not failed yet. -/
theorem State.overdue_failed {s : State} {l e : Nat} {seq : BitVec 16} {o : Outst} (h : s.overdue l e seq = some o) : o.failed = false := by
  have hdue := List.find?_some h
  simp only [Bool.and_eq_true, Bool.not_eq_true'] at hdue
  obtain ⟨⟨-, hfailed⟩, -⟩ := hdue
  exact hfailed

/-- A deadline that is due fails the attempt it names. -/
theorem runs_schedAckDeadline {s : State} {l e : Nat} {seq : BitVec 16} {o : Outst} (hs : s.live) (h : s.quiet.overdue l e seq = some o) :
    Runs (.schedAckDeadline l e seq) s (s.quiet.schedFail l e o) := by
  refine runs_when hs (exec_schedAckDeadline l e seq s) (Option.isSome_of_eq_some h) ?_
  simp only [h]

section
variable {s : State} {l k : Nat} {o : Outst} (hfailed : o.failed = false)
include hfailed

theorem State.schedFail_resend (hattempt : o.attempt < 3) : s.schedFail l k o =
    ((((s.onTile l (fun t => { t with resendQ := t.resendQ ++ [(k, o.hdr.seq)] })).onEntry l k (fun en => { en with
      outst := en.outst.map (fun x => if x.hdr.seq = o.hdr.seq then { x with attempt := x.attempt + 1, failed := true } else x) })).bump
        0x184003 0 o.hdr.part.toNat 0 0 64 1).startRead l
          { use := .stream k, hdr := o.hdr, base := o.localAddr, bytes := o.bytes, rows := [], kind := .resend }) :=
  (if_neg (by simp [hfailed])).trans (if_neg (Nat.not_le_of_lt hattempt))

theorem State.schedFail_last (hattempt : 3 ≤ o.attempt) : s.schedFail l k o = s.failStream l k o.hdr :=
  (if_neg (by simp [hfailed])).trans (if_pos hattempt)

end

/-! ## Hold notices (03 R76 to R78) -/

theorem exec_holdNotice (u : UnitId) (p : Nat) (f : BitVec 16) (s : State) : exec (.holdNotice u p f) s = execHoldNotice u p f s := rfl

theorem runs_holdNotice {s t : State} {u : UnitId} {p : Nat} {f : BitVec 16} (hs : s.live) (h : s.quiet.holdNotice u p f = t) :
    Runs (.holdNotice u p f) s t := runs_up hs (exec_holdNotice u p f s) h

section
variable (s : State) {p : Nat} {f : BitVec 16}

/-- The first notice of its frame is noted, passed on, and schedules the hold. -/
theorem State.relayHold_new (but : Option Nat) (hnew : s.noticeFrame p f ∉ (s.part p).noticed) : s.relayHold p f but =
    ((s.onPart p (fun x => { x with noticed := x.noticed.filter (fun g => x.frames ≤ g + 2 ^ 15) ++ [s.noticeFrame p f] })).spreadHold
      p f but).scheduleHold p (s.noticeFrame p f) :=
  if_neg (by simpa using hnew)

theorem State.relayHold_copy (but : Option Nat) (hnoted : s.noticeFrame p f ∈ (s.part p).noticed) : s.relayHold p f but = s :=
  if_pos (by simpa using hnoted)

theorem State.passHold_new (q : Nat) (hnew : f.toNat ∉ (s.part p).noticed) : s.passHold p f q =
    (s.onPart p (fun x => { x with noticed := x.noticed.drop (x.noticed.length - 2047) ++ [f.toNat] })).spreadHold p f (some q) :=
  if_neg (by simpa using hnew)

theorem State.holdNotice_landing {l : Nat} (hpart : s.partOf l = p) (hrun : (s.part p).run = true) : s.holdNotice (.landing l) p f =
    if s.noticeFrame p f ≤ (s.part p).frames then
      (s.bump 0x184002 0 p 0 0 32 1).raise (.landing l) 1 0x025 p (ctxPacket 1 { unpackHeader 0 with seq := f })
    else s.relayHold p f none :=
  if_neg (by simp [hpart, hrun])

theorem State.holdNotice_pavilion_running (q : Nat) (hrun : (s.part p).run = true) :
    s.holdNotice (.pavilion q) p f = s.relayHold p f (some q) := if_pos hrun

theorem State.holdNotice_pavilion_idle (q : Nat) (hrun : (s.part p).run = false) :
    s.holdNotice (.pavilion q) p f = s.passHold p f q := if_neg (by simp [hrun])

end

/-! ## The ends of frames (03 R61) -/

theorem exec_frameBoundary (p : Nat) (s : State) : exec (.frameBoundary p) s = execFrameBoundary p s := rfl

/-! ## Plan images (03 R90) -/

theorem exec_planImageCheck (s : State) : exec .planImageCheck s = execPlanImageCheck s := rfl

/-- An image that has been read whole is checked. -/
theorem runs_planImageCheck {s t : State} {bs : List Byte} (hs : s.live) (hrun : s.plan.running = true)
    (hbytes : s.quiet.planBytes = some bs) (ht : s.quiet.checkPlan = t) : Runs .planImageCheck s t := by
  refine runs_when hs (exec_planImageCheck s) ?_ ht
  rw [hbytes, Option.isSome_some, Bool.and_true]
  exact hrun

section
variable {s : State} {bs : List Byte} (hbytes : s.planBytes = some bs)
include hbytes

theorem State.checkPlan_unread (herror : s.plan.hostError = true) : s.checkPlan = s.loadEnds (s.val 0x180003) 9 0 := by
  simp only [State.checkPlan, hbytes, herror, if_true]

theorem State.checkPlan_refused {q : State} {c n : Nat} (herror : s.plan.hostError = false)
    (hcheck : s.checkImage (s.val 0x180003) bs = (.inr (c, n), q)) : s.checkPlan = q.loadEnds (s.val 0x180003) c n := by
  simp only [State.checkPlan, hbytes, herror, hcheck, Bool.false_eq_true, if_false]

theorem State.checkPlan_staged {q : State} {i : PlanInfo} (herror : s.plan.hostError = false)
    (hcheck : s.checkImage (s.val 0x180003) bs = (.inl i, q)) :
    let a := i.writes.foldl (fun (b : State) w => b.stage b.plan.sess w.1 w.2.toNat) q
    s.checkPlan = ({ a with plan := { a.plan with staged := some i, digest := i.digest } } : State).loadEnds (s.val 0x180003) 4 0 := by
  simp only [State.checkPlan, hbytes, herror, hcheck, Bool.false_eq_true, if_false]

end

end Sys2Proof.Machine
end

section
/-!
# PROOFS. The timers and events of 03, settled
-/
namespace Sys2Proof.Machine

/-- Settles O46: every clause is one case of its command, by the equation of that case. -/
theorem scheduledTraffic : Obligations.ScheduledTraffic := by
  intro s hs
  refine ⟨?deadlines, ?notices, ?passed, ?frames, ?images⟩
  case deadlines =>
    intro l e q o ho
    have hfailed := State.overdue_failed ho
    have hrun := runs_schedAckDeadline hs ho
    exact ⟨fun h => State.schedFail_resend hfailed h ▸ hrun, fun h => State.schedFail_last hfailed h ▸ hrun⟩
  case notices =>
    intro p f hrun n
    refine ⟨fun l hl hlate => ?_, fun hnew => ⟨fun l hl hahead => ?_, fun q => ?_⟩, fun hnoted q => ?_⟩
    · exact runs_holdNotice hs ((s.quiet.holdNotice_landing hl hrun).trans (if_pos hlate))
    · exact runs_holdNotice hs ((s.quiet.holdNotice_landing hl hrun).trans
        ((if_neg (Nat.not_le_of_lt hahead)).trans (s.quiet.relayHold_new none hnew)))
    · exact runs_holdNotice hs ((s.quiet.holdNotice_pavilion_running q hrun).trans (s.quiet.relayHold_new (some q) hnew))
    · exact (runs_holdNotice hs ((s.quiet.holdNotice_pavilion_running q hrun).trans
        (s.quiet.relayHold_copy (some q) hnoted))).exec_eq rfl rfl rfl
  case passed =>
    intro p q f hidle hnew
    exact runs_holdNotice hs ((s.quiet.holdNotice_pavilion_idle q hidle).trans (s.quiet.passHold_new q hnew))
  case frames =>
    intro p hended
    exact runs_when hs (exec_frameBoundary p s) hended rfl
  case images =>
    intro bs hrun hbytes part
    have hcheck {t : State} (ht : s.quiet.checkPlan = t) : Runs .planImageCheck s t := runs_planImageCheck hs hrun hbytes ht
    exact ⟨fun herror => hcheck (State.checkPlan_unread hbytes herror),
      fun c n q herror himage => hcheck (State.checkPlan_refused hbytes herror himage),
      fun i q herror himage => hcheck (State.checkPlan_staged hbytes herror himage)⟩

end Sys2Proof.Machine
end

section
/-!
# PROOFS. 05, the landing and the tile port: the frame of the port, semaphores and waits

A command of the tile port passes through one frame, `tilePort`: what it does in a domain that is ACTIVE, in DOZE, or neither is said
once. The test of the pending waits is a fold over the clients; it is cut here into the test of one client, and is read off from
which clients have a wait that is met.
-/
namespace Sys2Proof.Machine

/-! ## The frame of what a tile presents (14 R355, R356) -/

section
variable {s t : State} {l : Nat} {c : Instr} {f : State → State}

/-- The state in which the domain of a landing has been woken from DOZE. -/
def State.woken (s : State) (l : Nat) : State := s.onDom (stairOf l) (fun x => { x with st := .active, since := s.time })

theorem State.woken_domState (s : State) (l : Nat) : (s.woken l).domState (.landing l) = .active :=
  congrArg Domain.st (s.dom_onDom_same (stairOf l) _)

theorem State.tileWake_doze (hd : s.domState (.landing l) = .doze) : s.tileWake l = s.woken l := by
  have hd' : (s.dom (stairOf l)).st = .doze := hd
  simp only [State.tileWake, domainOf, hd, State.wake, hd', State.woken]

theorem State.tileWake_of_ne_doze (hd : s.domState (.landing l) ≠ .doze) : s.tileWake l = s := by
  simp only [State.tileWake]
  split
  · exact absurd ‹_› hd
  · rfl

theorem State.asleep_of_active {u : UnitId} (hd : s.domState u = .active) : s.asleep u = false := by
  simp [State.asleep, hd]

theorem State.not_active_of_asleep {u : UnitId} (ha : s.asleep u = true) : s.domState u ≠ .active ∧ s.domState u ≠ .doze := by
  simpa [State.asleep] using ha

theorem State.tpOut_awake (ha : s.asleep (.landing l) = false) (o : Output) : s.tpOut l o = s.emit o := if_neg (by simp [ha])

/-- A landing whose domain is ACTIVE takes what its tile presents. -/
theorem runs_tilePort (hs : s.live) (hc : exec c s = tilePort s l f) (hd : s.domState (.landing l) = .active) (ht : f s.quiet = t) :
    Runs c s t := by
  refine runs_up hs hc (Eq.trans ?_ ht)
  have hd' : s.quiet.domState (.landing l) = .active := hd
  rw [State.tileWake_of_ne_doze (by simp [hd']), if_pos hd']

/-- A domain in DOZE is woken, and the landing takes what its tile presents. -/
theorem runs_tilePort_doze (hs : s.live) (hc : exec c s = tilePort s l f) (hd : s.domState (.landing l) = .doze)
    (ht : f (s.quiet.woken l) = t) : Runs c s t := by
  refine runs_up hs hc (Eq.trans ?_ ht)
  rw [State.tileWake_doze (s := s.quiet) hd, if_pos (s.quiet.woken_domState l)]

/-- A domain that sleeps, or passes into or out of sleep, takes nothing. -/
theorem exec_tilePort_asleep (hs : s.live) (hc : exec c s = tilePort s l f) (ha : s.asleep (.landing l) = true) :
    exec c s = .next s.quiet := by
  obtain ⟨hactive, hdoze⟩ := State.not_active_of_asleep (s := s.quiet) (u := .landing l) ha
  refine Runs.exec_eq (runs_up hs hc ?_) rfl rfl rfl
  rw [State.tileWake_of_ne_doze hdoze, if_neg hactive]

end

/-! ## Updates of one tile -/

/-- Updates of a tile that agree on what it holds have one result. -/
theorem State.onTile_congr {s : State} {l : Nat} {f g : Tile → Tile} (h : f (s.tile l) = g (s.tile l)) : s.onTile l f = s.onTile l g :=
  congrArg (fun t => ({ s with tiles := s.tiles.put l t } : State)) h

theorem State.onlyTile_quiet (s : State) (l : Nat) : s.onlyTile s.quiet l := ⟨rfl, fun _ _ => rfl⟩

theorem State.onlyTile.onTile {s t : State} {l : Nat} (h : s.onlyTile t l) (f : Tile → Tile) : s.onlyTile (t.onTile l f) l := by
  obtain ⟨ht, hothers⟩ := h
  refine ⟨?_, fun k hk => (t.tile_onTile_other l k f hk).trans (hothers k hk)⟩
  conv_lhs => rw [ht]
  rfl

theorem State.onlyTile.emit {s t : State} {l : Nat} (h : s.onlyTile t l) (o : Output) : s.onlyTile (t.emit o) l := by
  obtain ⟨ht, hothers⟩ := h
  refine ⟨?_, hothers⟩
  conv_lhs => rw [ht]
  rfl

/-! ## What the semaphore and stream commands leave alone -/

/-- Two states differ at most in the semaphores, the waits and the transmit streams of one tile, in what is driven out, and in the
trace records that units hold. -/
structure State.portFrame (s t : State) (l : Nat) : Prop where
  frame : t = { s with tiles := t.tiles, outs := t.outs, obs := { s.obs with traces := t.obs.traces } }
  others : ∀ j, j ≠ l → t.tile j = s.tile j
  own : t.tile l = { s.tile l with sems := (t.tile l).sems, waits := (t.tile l).waits, txs := (t.tile l).txs }

namespace State.portFrame
variable {s t q : State} {l : Nat}

theorem refl (s : State) (l : Nat) : s.portFrame s l := ⟨rfl, fun _ _ => rfl, rfl⟩

theorem trans (h : s.portFrame t l) (h' : t.portFrame q l) : s.portFrame q l where
  frame := by
    refine h'.frame.trans ?_
    rw [h.frame]
  others j hj := (h'.others j hj).trans (h.others j hj)
  own := by
    refine h'.own.trans ?_
    rw [h.own]

theorem onTile (s : State) (l : Nat) {f : Tile → Tile}
    (hf : f (s.tile l) = { s.tile l with sems := (f (s.tile l)).sems, waits := (f (s.tile l)).waits, txs := (f (s.tile l)).txs }) :
    s.portFrame (s.onTile l f) l where
  frame := rfl
  others j hj := s.tile_onTile_other l j f hj
  own := by rw [s.tile_onTile_same l f]; exact hf

theorem setSem (s : State) (l : Nat) (k : BitVec 8) (v : BitVec 32) : s.portFrame (s.setSem l k v) l := onTile s l rfl

theorem tpOut (s : State) (l : Nat) (o : Output) : s.portFrame (s.tpOut l o) l := by
  simp only [State.tpOut]
  split
  · exact refl s l
  · exact ⟨rfl, fun _ _ => rfl, rfl⟩

theorem trace (s : State) (l : Nat) (u : UnitId) (type part time body : Nat) : s.portFrame (s.trace u type part time body) l := by
  simp only [State.trace]
  split
  · exact ⟨rfl, fun _ _ => rfl, rfl⟩
  · exact refl s l

theorem traceWait (s : State) (l client outcome : Nat) (w : Wait) : s.portFrame (s.traceWait l client outcome w) l := by
  simp only [State.traceWait]
  split
  · exact refl s l
  · exact trace s l _ _ _ _ _

theorem endWait (s : State) (l client status : Nat) (v : BitVec 32) (w : Wait) : s.portFrame (s.endWait l client status v w) l :=
  ((traceWait s l client status w).trans (onTile _ l rfl)).trans (tpOut _ l _)

theorem streamControl (s : State) (l : Nat) (entry : BitVec 6) (f : TxStream → TxStream) : s.portFrame (s.streamControl l entry f) l := by
  refine onTile s l ?_
  cases (s.tile l).txs.find entry.toNat <;> rfl

/-- Outside the tile's own domain and its trace nothing has moved that the frame of a command looks at. -/
theorem exec_eq {c : Instr} (h : s.quiet.portFrame t l) (hrun : Runs c s t) : exec c s = .next t :=
  hrun.exec_eq (congrArg State.pending h.frame :) (congrArg State.build h.frame :) (congrArg (·.boot.inReset) h.frame :)

theorem doms_eq (h : s.portFrame t l) : t.doms = s.doms := (congrArg State.doms h.frame :)

end State.portFrame

/-! ## The test of the pending waits (05 R134, R135) -/

/-- The value that a wait which is met is answered, and which its semaphore then holds: WAIT_TAKE takes its operand from it. -/
def State.metValue (s : State) (l : Nat) (w : Wait) : BitVec 32 := if w.take then s.sem l w.sem - w.operand else s.sem l w.sem

/-- A wait whose operand is reached ends. -/
def State.metWait (s : State) (l c : Nat) (w : Wait) : State :=
  (if w.take then s.setSem l w.sem (s.metValue l w) else s).endWait l c 0 (s.metValue l w) w

/-- The test of the wait of one client. -/
def State.wakeOne (s : State) (l c : Nat) : State :=
  match (s.tile l).waits.find c with
  | none => s
  | some w => if w.operand.toInt ≤ (s.sem l w.sem).toInt then s.metWait l c w else s

/-- A client has no wait that is met. -/
def State.unmet (s : State) (l c : Nat) : Prop := ∀ w, (s.tile l).waits.find c = some w → (s.sem l w.sem).toInt < w.operand.toInt

theorem State.wakeWaits_eq (s : State) (l : Nat) : s.wakeWaits l = (List.range 32).foldl (fun s c => s.wakeOne l c) s := rfl

section
variable {s : State} {l c : Nat} {w : Wait}

theorem State.wakeOne_unmet (h : s.unmet l c) : s.wakeOne l c = s := by
  simp only [State.wakeOne]
  split
  · rfl
  · exact if_neg (Int.not_le.mpr (h _ ‹_›))

theorem State.wakeOne_met (hw : (s.tile l).waits.find c = some w) (hmet : w.operand.toInt ≤ (s.sem l w.sem).toInt) :
    s.wakeOne l c = s.metWait l c w := by
  simp only [State.wakeOne, hw, if_pos hmet]

theorem State.foldl_wakeOne_unmet {cs : List Nat} (h : ∀ c ∈ cs, s.unmet l c) : cs.foldl (fun s c => s.wakeOne l c) s = s := by
  induction cs with
  | nil => rfl
  | cons c cs ih =>
    rw [List.foldl_cons, State.wakeOne_unmet (h c (List.mem_cons_self ..))]
    exact ih (fun d hd => h d (List.mem_cons_of_mem _ hd))

/-- Where no wait is met, none ends. -/
theorem State.wakeWaits_unmet (h : ∀ c, s.unmet l c) : s.wakeWaits l = s := State.foldl_wakeOne_unmet (fun c _ => h c)

/-- Where the wait of one client alone is met, and its end meets no other, that one ends. -/
theorem State.wakeWaits_one (hc : c < 32) (hothers : ∀ d, d ≠ c → s.unmet l d) (hafter : ∀ d, (s.wakeOne l c).unmet l d) :
    s.wakeWaits l = s.wakeOne l c := by
  obtain ⟨before, after, hsplit, hfirst⟩ := List.eq_append_cons_of_mem (List.mem_range.mpr hc)
  rw [State.wakeWaits_eq, hsplit, List.foldl_append, List.foldl_cons,
    State.foldl_wakeOne_unmet (fun d hd => hothers d (fun h => hfirst (h ▸ hd)))]
  exact State.foldl_wakeOne_unmet (fun d _ => hafter d)

end

theorem State.portFrame.metWait (s : State) (l c : Nat) (w : Wait) : s.portFrame (s.metWait l c w) l := by
  simp only [State.metWait]
  refine State.portFrame.trans ?_ (State.portFrame.endWait _ l c 0 _ w)
  split
  · exact State.portFrame.setSem s l _ _
  · exact State.portFrame.refl s l

theorem State.portFrame.wakeOne (s : State) (l c : Nat) : s.portFrame (s.wakeOne l c) l := by
  simp only [State.wakeOne]
  split
  · exact State.portFrame.refl s l
  · split
    · exact State.portFrame.metWait s l c _
    · exact State.portFrame.refl s l

theorem State.portFrame.wakeWaits (s : State) (l : Nat) : s.portFrame (s.wakeWaits l) l := by
  rw [State.wakeWaits_eq]
  generalize List.range 32 = cs
  induction cs generalizing s with
  | nil => exact State.portFrame.refl s l
  | cons c cs ih => exact (State.portFrame.wakeOne s l c).trans (ih _)

/-! ## The values of semaphores -/

@[simp] theorem State.sem_setSem_same (s : State) (l : Nat) (k : BitVec 8) (v : BitVec 32) : (s.setSem l k v).sem l k = v := by
  simp only [State.sem, State.setSem, State.tile_onTile_same]
  split
  · rw [FMap.get_del_same, ‹v = 0›]
  · rw [FMap.get_put_same]

theorem State.sem_setSem_other (s : State) (l : Nat) {j k : BitVec 8} (v : BitVec 32) (h : j ≠ k) :
    (s.setSem l k v).sem l j = s.sem l j := by
  have hne : j.toNat ≠ k.toNat := fun he => h (BitVec.eq_of_toNat_eq he)
  simp only [State.sem, State.setSem, State.tile_onTile_same]
  split
  · exact FMap.get_del_other _ _ _ _ hne
  · exact FMap.get_put_other _ _ _ _ _ hne

theorem State.tile_setSem_same (s : State) (l : Nat) (k : BitVec 8) (v : BitVec 32) :
    (s.setSem l k v).tile l = { s.tile l with sems := ((s.setSem l k v).tile l).sems } := by
  simp only [State.setSem, State.tile_onTile_same]

/-- The semaphores are all that the sem of a tile reads. -/
theorem State.sem_of_sems {s t : State} {l : Nat} (h : (t.tile l).sems = (s.tile l).sems) (k : BitVec 8) : t.sem l k = s.sem l k := by
  simp only [State.sem, h]

/-! ## The operations and waits of a tile client -/

theorem exec_semRead (l c : Nat) (k : BitVec 8) (s : State) : exec (.semRead l c k) s =
    tilePort s l (fun s => s.tileSem l c (fun s => s.tpOut l (.tpSemr l (semResp c 0 (s.sem l k))))) := rfl
theorem exec_semAdd (l c : Nat) (k : BitVec 8) (v : BitVec 32) (s : State) : exec (.semAdd l c k v) s =
    tilePort s l (fun s => s.tileSem l c (fun s => s.tileSet l c k (s.sem l k + v))) := rfl
theorem exec_semSet (l c : Nat) (k : BitVec 8) (v : BitVec 32) (s : State) : exec (.semSet l c k v) s =
    tilePort s l (fun s => s.tileSem l c (fun s => s.tileSet l c k v)) := rfl
theorem exec_semWait (l c : Nat) (k : BitVec 8) (v : BitVec 32) (s : State) : exec (.semWait l c k v) s =
    tilePort s l (fun s => s.tileSem l c (fun s => s.beginWait l c k v false)) := rfl
theorem exec_semWaitTake (l c : Nat) (k : BitVec 8) (v : BitVec 32) (s : State) : exec (.semWaitTake l c k v) s =
    tilePort s l (fun s => s.tileSem l c (fun s => s.beginWait l c k v true)) := rfl

theorem State.tileSem_free {s : State} {l c : Nat} (h : (s.tile l).waits.find c = none) (f : State → State) : s.tileSem l c f = f s :=
  if_neg (by simp [h])

/-- A semaphore operation of a client that has no wait pending. -/
theorem runs_tileSem {s t : State} {l c : Nat} {i : Instr} {f : State → State} (hs : s.live) (hd : s.domState (.landing l) = .active)
    (hfree : (s.tile l).waits.find c = none) (hi : exec i s = tilePort s l (fun s => s.tileSem l c f)) (ht : f s.quiet = t) : Runs i s t :=
  runs_tilePort hs hi hd ((State.tileSem_free (s := s.quiet) hfree f).trans ht)

/-- Every wait pending at a landing is on another semaphore, and not met. -/
def State.waitsElsewhere (s : State) (l : Nat) (k : BitVec 8) : Prop :=
  ∀ d w, (s.tile l).waits.find d = some w → w.sem ≠ k ∧ (s.sem l w.sem).toInt < w.operand.toInt

/-- A semaphore that nobody waits on can be set to any value: no wait ends. -/
theorem State.unmet_of_elsewhere {s t : State} {l d : Nat} {k : BitVec 8} (h : s.waitsElsewhere l k)
    (hwaits : (t.tile l).waits.find d = (s.tile l).waits.find d) (hsems : ∀ j, j ≠ k → t.sem l j = s.sem l j) : t.unmet l d := by
  intro w hw
  obtain ⟨hsem, hbelow⟩ := h d w (hwaits ▸ hw)
  rwa [hsems _ hsem]

theorem State.tileSet_quietly {s : State} {l : Nat} {k : BitVec 8} (ha : s.asleep (.landing l) = false) (h : s.waitsElsewhere l k)
    (c : Nat) (v : BitVec 32) : s.tileSet l c k v = (s.setSem l k v).emit (.tpSemr l (semResp c 0 v)) := by
  have hout : (s.setSem l k v).tpOut l (.tpSemr l (semResp c 0 v)) = (s.setSem l k v).emit (.tpSemr l (semResp c 0 v)) :=
    State.tpOut_awake (s := s.setSem l k v) ha _
  have hwaits : ((s.setSem l k v).tile l).waits = (s.tile l).waits := by rw [s.tile_setSem_same]
  refine (congrArg (State.wakeWaits · l) hout).trans (State.wakeWaits_unmet fun d => ?_)
  exact State.unmet_of_elsewhere h (congrArg (FMap.find · d) hwaits) (fun j hj => s.sem_setSem_other l v hj)

/-- What setting a semaphore and answering its new value changes. -/
theorem exec_setSem {s : State} {l c : Nat} {k : BitVec 8} {v : BitVec 32} {i : Instr}
    (hrun : Runs i s ((s.quiet.setSem l k v).emit (.tpSemr l (semResp c 0 v)))) :
    ∃ t, exec i s = .next t ∧ s.onlyTile t l ∧ t.outs = [.tpSemr l (semResp c 0 v)] ∧ t.sem l k = v ∧
      (∀ j, j ≠ k → t.sem l j = s.sem l j) ∧ t.tile l = { s.tile l with sems := (t.tile l).sems } :=
  ⟨_, hrun.exec_eq rfl rfl rfl, ((s.onlyTile_quiet l).onTile _).emit _, rfl, s.quiet.sem_setSem_same l k v,
    fun _ hj => s.quiet.sem_setSem_other l v hj, s.quiet.tile_setSem_same l k v⟩

/-- The wait that a client begins. -/
def State.newWait (s : State) (l : Nat) (k : BitVec 8) (v : BitVec 32) (take : Bool) : Wait :=
  { sem := k, take := take, operand := v, start := s.now (.landing l), timedOut := false, suspended := false }

/-- The state in which a client waits, before the waits are tested. -/
def State.parkWait (s : State) (l c : Nat) (k : BitVec 8) (v : BitVec 32) (take : Bool) : State :=
  s.onTile l (fun t => { t with waits := t.waits.put c (s.newWait l k v take) })

theorem State.beginWait_eq (s : State) (l c : Nat) (k : BitVec 8) (v : BitVec 32) (take : Bool) :
    s.beginWait l c k v take = (s.parkWait l c k v take).wakeWaits l := rfl

theorem State.tile_parkWait (s : State) (l c : Nat) (k : BitVec 8) (v : BitVec 32) (take : Bool) :
    (s.parkWait l c k v take).tile l = { s.tile l with waits := (s.tile l).waits.put c (s.newWait l k v take) } :=
  s.tile_onTile_same l _

theorem State.find_parkWait (s : State) (l c : Nat) (k : BitVec 8) (v : BitVec 32) (take : Bool) :
    ((s.parkWait l c k v take).tile l).waits.find c = some (s.newWait l k v take) := by
  rw [State.tile_parkWait, FMap.find_put_same]

theorem State.find_parkWait_other (s : State) (l : Nat) {c d : Nat} (k : BitVec 8) (v : BitVec 32) (take : Bool) (h : d ≠ c) :
    ((s.parkWait l c k v take).tile l).waits.find d = (s.tile l).waits.find d := by
  rw [State.tile_parkWait, FMap.find_put_other _ _ _ _ h]

theorem State.sem_parkWait (s : State) (l c : Nat) (k : BitVec 8) (v : BitVec 32) (take : Bool) (j : BitVec 8) :
    (s.parkWait l c k v take).sem l j = s.sem l j :=
  State.sem_of_sems (by rw [State.tile_parkWait]) j

/-! ## The end of a wait -/

@[simp] theorem State.traceWait_tiles (s : State) (l c outcome : Nat) (w : Wait) : (s.traceWait l c outcome w).tiles = s.tiles := by
  simp only [State.traceWait, State.trace]
  split
  · rfl
  · split <;> rfl

@[simp] theorem State.traceWait_outs (s : State) (l c outcome : Nat) (w : Wait) : (s.traceWait l c outcome w).outs = s.outs := by
  simp only [State.traceWait, State.trace]
  split
  · rfl
  · split <;> rfl

@[simp] theorem State.tpOut_tiles (s : State) (l : Nat) (o : Output) : (s.tpOut l o).tiles = s.tiles := by
  simp only [State.tpOut]
  split <;> rfl

theorem State.tile_of_tiles {s t : State} (h : t.tiles = s.tiles) (l : Nat) : t.tile l = s.tile l := by
  simp only [State.tile, h]

theorem State.asleep_of_doms {s t : State} (h : t.doms = s.doms) (u : UnitId) : t.asleep u = s.asleep u := by
  simp only [State.asleep, State.domState_of_doms h]

section
variable (s : State) (l c status : Nat) (v : BitVec 32) (w : Wait)

theorem State.tile_endWait : (s.endWait l c status v w).tile l = { s.tile l with waits := (s.tile l).waits.del c } := by
  have htrace : (s.traceWait l c status w).tile l = s.tile l := State.tile_of_tiles (s.traceWait_tiles l c status w) l
  rw [State.endWait, State.tile_of_tiles (State.tpOut_tiles ..), State.tile_onTile_same, htrace]

theorem State.endWait_outs (ha : s.asleep (.landing l) = false) :
    (s.endWait l c status v w).outs = s.outs ++ [.tpSemr l (semResp c status v)] := by
  have hdoms := (State.portFrame.traceWait s l c status w).doms_eq
  have hawake : (s.traceWait l c status w).asleep (.landing l) = false := (State.asleep_of_doms hdoms _).trans ha
  exact (congrArg State.outs (State.tpOut_awake (s := (s.traceWait l c status w).onTile l _) hawake _)).trans
    (congrArg (· ++ _) (s.traceWait_outs l c status w))

end

section
variable (s : State) (l c : Nat) (w : Wait)

theorem State.find_metWait (d : Nat) : ((s.metWait l c w).tile l).waits.find d = ((s.tile l).waits.del c).find d := by
  rw [State.metWait, State.tile_endWait]
  split
  · rw [State.tile_setSem_same]
  · rfl

theorem State.sem_endWait (status : Nat) (v : BitVec 32) (j : BitVec 8) : (s.endWait l c status v w).sem l j = s.sem l j :=
  State.sem_of_sems (by rw [State.tile_endWait]) j

theorem State.sem_metWait_same : (s.metWait l c w).sem l w.sem = s.metValue l w := by
  rw [State.metWait, State.sem_endWait]
  split
  · exact s.sem_setSem_same l w.sem _
  · simp only [State.metValue, ‹¬w.take = true›]
    rfl

theorem State.sem_metWait_other {j : BitVec 8} (h : j ≠ w.sem) : (s.metWait l c w).sem l j = s.sem l j := by
  rw [State.metWait, State.sem_endWait]
  split
  · exact s.sem_setSem_other l _ h
  · rfl

theorem State.metWait_outs (ha : s.asleep (.landing l) = false) :
    (s.metWait l c w).outs = s.outs ++ [.tpSemr l (semResp c 0 (s.metValue l w))] := by
  rw [State.metWait]
  split
  · exact State.endWait_outs _ l c 0 _ w ha
  · exact State.endWait_outs _ l c 0 _ w ha

end

/-! ## WAIT and WAIT_TAKE (05 R134) -/

section
variable {s : State} {l c : Nat} {k : BitVec 8} {v : BitVec 32} (take : Bool) (helse : s.waitsElsewhere l k)
include helse

theorem State.unmet_parkWait_other {d : Nat} (hd : d ≠ c) : (s.parkWait l c k v take).unmet l d :=
  State.unmet_of_elsewhere helse (s.find_parkWait_other l k v take hd) (fun j _ => s.sem_parkWait l c k v take j)

/-- Below its operand a wait stays. -/
theorem State.beginWait_below (hbelow : (s.sem l k).toInt < v.toInt) : s.beginWait l c k v take = s.parkWait l c k v take := by
  rw [State.beginWait_eq]
  refine State.wakeWaits_unmet fun d => ?_
  by_cases hd : d = c
  · subst hd
    intro w hw
    obtain rfl : s.newWait l k v take = w := Option.some.inj ((s.find_parkWait l d k v take).symm.trans hw)
    rwa [State.sem_parkWait]
  · exact State.unmet_parkWait_other take helse hd

/-- At or above its operand it ends at once. -/
theorem State.beginWait_met (hc : c < 32) (hmet : v.toInt ≤ (s.sem l k).toInt) :
    s.beginWait l c k v take = (s.parkWait l c k v take).metWait l c (s.newWait l k v take) := by
  have hone : (s.parkWait l c k v take).wakeOne l c = (s.parkWait l c k v take).metWait l c (s.newWait l k v take) :=
    State.wakeOne_met (s.find_parkWait l c k v take) (by rwa [State.sem_parkWait])
  refine (State.wakeWaits_one hc (fun d hd => State.unmet_parkWait_other take helse hd) (fun d => ?_)).trans hone
  rw [hone]
  by_cases hd : d = c
  · subst hd
    intro w hw
    rw [State.find_metWait, FMap.find_del_same] at hw
    cases hw
  · refine State.unmet_of_elsewhere helse ?_ (fun j hj => ?_)
    · rw [State.find_metWait, FMap.find_del_other _ _ _ hd, s.find_parkWait_other l k v take hd]
    · rw [State.sem_metWait_other _ _ _ _ hj, State.sem_parkWait]

end

/-- A wait that is not met changes its own tile alone, and there no semaphore. -/
theorem exec_wait_below {s : State} {l c : Nat} {k : BitVec 8} {v : BitVec 32} {i : Instr} {take : Bool}
    (hrun : Runs i s (s.quiet.beginWait l c k v take)) (helse : s.waitsElsewhere l k) (hbelow : (s.sem l k).toInt < v.toInt) :
    ∃ t, exec i s = .next t ∧ s.onlyTile t l ∧ t.outs = [] ∧ (t.tile l).sems = (s.tile l).sems ∧
      ∃ w, (t.tile l).waits.find c = some w ∧ w.sem = k ∧ w.operand = v ∧ w.take = take := by
  rw [State.beginWait_below (s := s.quiet) take helse hbelow] at hrun
  exact ⟨_, hrun.exec_eq rfl rfl rfl, (s.onlyTile_quiet l).onTile _, rfl,
    (congrArg Tile.sems (s.quiet.tile_parkWait l c k v take) :), _, s.quiet.find_parkWait l c k v take, rfl, rfl, rfl⟩

/-- A wait that is met answers its value, which its semaphore then holds, and no wait of the client is left. -/
theorem exec_wait_met {s : State} {l c : Nat} {k : BitVec 8} {v : BitVec 32} {i : Instr} {take : Bool}
    (hrun : Runs i s (s.quiet.beginWait l c k v take)) (helse : s.waitsElsewhere l k) (hc : c < 32) (hd : s.domState (.landing l) = .active)
    (hmet : v.toInt ≤ (s.sem l k).toInt) :
    ∃ t, exec i s = .next t ∧ t.outs = [.tpSemr l (semResp c 0 (if take then s.sem l k - v else s.sem l k))] ∧
      t.sem l k = (if take then s.sem l k - v else s.sem l k) ∧ (t.tile l).waits.find c = none := by
  rw [State.beginWait_met (s := s.quiet) take helse hc hmet] at hrun
  have hvalue : (s.quiet.parkWait l c k v take).metValue l (s.quiet.newWait l k v take) = if take then s.sem l k - v else s.sem l k := by
    simp only [State.metValue, State.sem_parkWait]
    rfl
  have hframe : s.quiet.portFrame ((s.quiet.parkWait l c k v take).metWait l c (s.quiet.newWait l k v take)) l :=
    (State.portFrame.onTile s.quiet l rfl).trans (State.portFrame.metWait _ l c _)
  refine ⟨_, hframe.exec_eq hrun, ?_, ?_, ?_⟩
  · have hawake : (s.quiet.parkWait l c k v take).asleep (.landing l) = false :=
      State.asleep_of_active (s := s.quiet) (u := .landing l) hd
    rw [State.metWait_outs _ l c _ hawake, hvalue]
    rfl
  · exact (State.sem_metWait_same _ l c _).trans hvalue
  · rw [State.find_metWait, FMap.find_del_same]

/-! ## The frame of the semaphore commands -/

namespace State.portFrame

theorem tileSem {s : State} {l : Nat} (c : Nat) {f : State → State} (hf : s.portFrame (f s) l) : s.portFrame (s.tileSem l c f) l := by
  simp only [State.tileSem]
  split
  · exact refl s l
  · exact hf

theorem tileSet (s : State) (l c : Nat) (k : BitVec 8) (v : BitVec 32) : s.portFrame (s.tileSet l c k v) l :=
  ((setSem s l k v).trans (tpOut _ l _)).trans (wakeWaits _ l)

theorem beginWait (s : State) (l c : Nat) (k : BitVec 8) (v : BitVec 32) (take : Bool) : s.portFrame (s.beginWait l c k v take) l :=
  (onTile s l rfl).trans (wakeWaits _ l)

end State.portFrame

/-- A rise of a line moves the landing's own domain from DOZE to ACTIVE, and nothing else. -/
theorem State.tileWake_eq (s : State) (l : Nat) : s.tileWake l = { s with doms := (s.tileWake l).doms } := by
  by_cases hd : s.domState (.landing l) = .doze
  · rw [State.tileWake_doze hd]
    rfl
  · rw [State.tileWake_of_ne_doze hd]

/-- What a tile presents changes, beside the state of a domain that it wakes, what its meaning changes. -/
theorem tilePort_portFrame {s t : State} {l : Nat} {f : State → State} (hs : s.live) (h : tilePort s l f = .next t)
    (hf : ∀ q : State, q.portFrame (f q) l) : (s.quiet.tileWake l).portFrame t l := by
  have hframe : (s.quiet.tileWake l).portFrame (if (s.quiet.tileWake l).domState (.landing l) = .active then f (s.quiet.tileWake l)
      else s.quiet.tileWake l) l := by
    split
    · exact hf _
    · exact State.portFrame.refl _ l
  have hwake := s.quiet.tileWake_eq l
  have hpending : (s.quiet.tileWake l).pending = s.pending := (congrArg State.pending hwake :)
  have hbuild : (s.quiet.tileWake l).build = s.build := (congrArg State.build hwake :)
  have hreset : (s.quiet.tileWake l).boot.inReset = s.boot.inReset := (congrArg (·.boot.inReset) hwake :)
  obtain rfl := Host.Outcome.next.inj ((up_live s _ hs).symm.trans h)
  rw [s.framed_eq _ ((congrArg State.pending hframe.frame :).trans hpending) ((congrArg State.build hframe.frame :).trans hbuild)
    ((congrArg (·.boot.inReset) hframe.frame :).trans hreset)]
  exact hframe

end Sys2Proof.Machine
end

section
/-!
# PROOFS. 05, the landing and the tile port: the control of streams, the injection arbiter
-/
namespace Sys2Proof.Machine

/-! ## Stream control (05 R131) -/

theorem exec_streamReady (l : Nat) (e : BitVec 6) (f : BitVec 16) (s : State) : exec (.streamReady l e f) s =
    tilePort s l (fun s => s.streamControl l e (fun x => { x with ready := f })) := rfl
theorem exec_streamClose (l : Nat) (e : BitVec 6) (f : BitVec 16) (s : State) : exec (.streamClose l e f) s =
    tilePort s l (fun s => (s.streamControl l e (fun x => { x with close := some f })).tryClose l e.toNat) := rfl

theorem State.streamControl_eq {s : State} {l : Nat} {e : BitVec 6} {x : TxStream} (hx : (s.tile l).txs.find e.toNat = some x)
    (f : TxStream → TxStream) : s.streamControl l e f = s.onTile l (fun t => { t with txs := t.txs.put e.toNat (f x) }) :=
  State.onTile_congr (by simp only [hx])

/-- A stream that still has a packet to send stays as it is. -/
theorem State.tryClose_pending {s : State} {l k : Nat} {x : TxStream} (hx : (s.tile l).txs.find k = some x) (hp : x.pending = true) :
    s.tryClose l k = s := by
  simp only [State.tryClose, hx]
  exact if_pos (.inr (.inl hp))

/-! ## The injection arbiter (05 R120, R121) -/

theorem exec_injectionRequest (l c : Nat) (s : State) : exec (.injectionRequest l c) s = execInjectionRequest l c s := rfl
theorem exec_injectionRequestDrop (l c : Nat) (s : State) : exec (.injectionRequestDrop l c) s = execInjectionRequestDrop l c s := rfl
theorem exec_injectionWatchdog (l : Nat) (s : State) : exec (.injectionWatchdog l) s = execInjectionWatchdog l s := rfl

/-- A client's bit in the grant word. -/
theorem grantWord_some {c : Nat} (hc : c < 32) : grantWord (some c) = BitVec.ofNat 32 (2 ^ c) :=
  congrArg (fun n => BitVec.ofNat 32 (2 ^ n)) (Nat.mod_eq_of_lt hc)

theorem getLsbD_grantWord {c : Nat} (hc : c < 32) : (grantWord (some c)).getLsbD c = true := by
  rw [grantWord_some hc, BitVec.getLsbD_ofNat, Nat.testBit_two_pow_self, decide_eq_true hc, Bool.true_and]

@[simp] theorem State.tile_emit (s : State) (o : Output) (l : Nat) : (s.emit o).tile l = s.tile l := rfl

/-- A client's line rises. -/
def State.raiseLine (s : State) (l c : Nat) : State := s.onTile l (fun t => { t with ireq := t.ireq ||| grantWord (some c) })

/-- A client's line falls. -/
def State.dropLine (s : State) (l c : Nat) : State := s.onTile l (fun t => { t with ireq := t.ireq &&& ~~~ grantWord (some c) })

section
variable {s t : State} {l c : Nat}

theorem State.injectionRequest_free (hc : c < 32) (howner : (s.tile l).owner = none) (hqueue : (s.tile l).queue = [])
    (hattached : (s.tile l).detached.getLsbD c = false) : s.injectionRequest l c = (s.raiseLine l c).grantTo l c := by
  simp only [State.injectionRequest, Nat.mod_eq_of_lt hc, hattached, howner, hqueue]
  rfl

theorem State.injectionRequest_held {o : Nat} (hc : c < 32) (howner : (s.tile l).owner = some o) (hne : o ≠ c)
    (hqueue : c ∉ (s.tile l).queue) (hattached : (s.tile l).detached.getLsbD c = false) :
    s.injectionRequest l c = (s.raiseLine l c).onTile l (fun t => { t with queue := t.queue ++ [c] }) := by
  simp only [State.injectionRequest, Nat.mod_eq_of_lt hc, hattached, howner]
  rw [if_neg (by simp [hne, hqueue]), if_neg (by simp)]
  rfl

theorem State.grantTo_awake (ha : s.asleep (.landing l) = false) : s.grantTo l c =
    (s.onTile l (fun t => { t with owner := some c, ptr := (c + 1) % 32, granted := true, idle := 0, presented := false, offered := none
      })).emit (.tpGrant l (grantWord (some c))) :=
  State.tpOut_awake (s := s.onTile l _) ha _

theorem State.serveQueue_empty (ha : s.asleep (.landing l) = false) (hqueue : (s.tile l).queue = []) : s.serveQueue l =
    (s.onTile l (fun t => { t with owner := none, offered := none })).emit (.tpGrant l 0) := by
  simp only [State.serveQueue, hqueue]
  exact State.tpOut_awake (s := s.onTile l _) ha _

/-- A line that rises at a landing whose domain is ACTIVE. -/
theorem runs_injectionRequest (hs : s.live) (hd : s.domState (.landing l) = .active) (ht : s.quiet.injectionRequest l c = t) :
    Runs (.injectionRequest l c) s t := by
  refine runs_up hs (exec_injectionRequest l c s) (Eq.trans ?_ ht)
  have hd' : s.quiet.domState (.landing l) = .active := hd
  rw [State.tileWake_of_ne_doze (by simp [hd']), if_pos hd']

/-- The line of the holder falls at a landing whose domain is ACTIVE. -/
theorem runs_injectionRequestDrop (hs : s.live) (hd : s.domState (.landing l) = .active) (howner : (s.tile l).owner = some c)
    (ht : (s.quiet.dropLine l c).serveQueue l = t) : Runs (.injectionRequestDrop l c) s t := by
  refine runs_up hs (exec_injectionRequestDrop l c s) (Eq.trans ?_ ht)
  refine if_pos ⟨?_, hd⟩
  rw [State.tile_onTile_same]
  exact howner

/-- The lines of a landing whose domain sleeps, or passes into or out of sleep, are noted. -/
theorem exec_injectionRequest_asleep (hs : s.live) (ha : s.asleep (.landing l) = true) :
    exec (.injectionRequest l c) s = .next (s.quiet.raiseLine l c) := by
  obtain ⟨hactive, hdoze⟩ := State.not_active_of_asleep (s := s.quiet) (u := .landing l) ha
  refine Runs.exec_eq (runs_up hs (exec_injectionRequest l c s) ?_) rfl rfl rfl
  rw [State.tileWake_of_ne_doze hdoze, if_neg hactive]
  rfl

theorem exec_injectionRequestDrop_asleep (hs : s.live) (ha : s.asleep (.landing l) = true) :
    exec (.injectionRequestDrop l c) s = .next (s.quiet.dropLine l c) := by
  obtain ⟨hactive, -⟩ := State.not_active_of_asleep (s := s.quiet) (u := .landing l) ha
  exact Runs.exec_eq (runs_up hs (exec_injectionRequestDrop l c s) (if_neg fun h => hactive h.2)) rfl rfl rfl

end

end Sys2Proof.Machine
end

section
/-!
# PROOFS. 05, the landing and the tile port: descriptors, source rows, wait time-outs

One equation for each case of a descriptor at its landing, of a row that comes back, and of a wait that has lasted for its time.
-/
namespace Sys2Proof.Machine

/-! ## Descriptors (05 R122 to R127; 07 R181, R203) -/

theorem exec_descCommand {op : Nat} (h1 : 1 ≤ op) (h12 : op ≤ 12) (l : Nat) (d : Desc) (s : State) :
    exec (descCommand op l d) s = tilePort s l (fun s => s.tileDesc l op d) := by
  interval_cases op <;> rfl

section
variable {s t : State} {l c op : Nat} {d : Desc}

/-- The descriptor of the client that holds the path of a landing whose domain is ACTIVE. -/
theorem runs_descCommand (hs : s.live) (hd : s.domState (.landing l) = .active) (howner : (s.tile l).owner = some c) (h1 : 1 ≤ op)
    (h12 : op ≤ 12) (ht : s.quiet.descriptor l c op d = t) : Runs (descCommand op l d) s t := by
  refine runs_tilePort hs (exec_descCommand h1 h12 l d s) hd (Eq.trans ?_ ht)
  have howner' : (s.quiet.tile l).owner = some c := howner
  simp only [State.tileDesc, howner']

theorem State.tile_acceptDesc (s : State) (l : Nat) :
    (s.acceptDesc l).tile l = { s.tile l with idle := 0, presented := true, offered := none } := s.tile_onTile_same l _

theorem State.descriptor_malformed (hok : s.descOk l op d = false) :
    s.descriptor l c op d = ((s.acceptDesc l).refuseDesc l c d 0x82).settleTile l :=
  if_pos (by simp [hok])

theorem State.descriptor_local (hok : s.descOk l op d = true) (hop : 8 ≤ op ∧ op ≤ 11) :
    s.descriptor l c op d = (s.acceptDesc l).localDesc l c op d :=
  (if_neg (by simp [hok])).trans (if_pos hop)

theorem State.descriptor_sends (hok : s.descOk l op d = true) (hop : ¬ (8 ≤ op ∧ op ≤ 11)) :
    s.descriptor l c op d = (s.sendDesc l c op d).settleTile l :=
  (if_neg (by simp [hok])).trans (if_neg hop)

/-- A descriptor that may send takes the lowest free entry. -/
theorem State.sendDesc_opened {k : Nat} (hendpoint : s.noEndpoint op d = false) (hpart : s.partOf l < 512)
    (haborted : (s.tile l).aborted = false) (hentry : s.freeEntry l = some k)
    (hread : op = 3 → s.windowsAt l d.localAddr.toNat (64 * d.length.toNat) = [] ∧ (s.freeWindow l).isSome = true) :
    s.sendDesc l c op d = (s.acceptDesc l).openEntry l k c op d := by
  have hheld : ¬ (l < 2048 ∧ (512 ≤ s.partOf l ∨ (s.tile l).aborted = true)) := by
    rintro ⟨-, h | h⟩
    · omega
    · simp [haborted] at h
  have hrange : ¬ (op = 3 ∧ l < 2048 ∧ (!(s.windowsAt l d.localAddr.toNat (64 * d.length.toNat)).isEmpty) = true) := by
    rintro ⟨h3, -, h⟩
    simp [(hread h3).1] at h
  have hwindow : ¬ (op = 3 ∧ l < 2048 ∧ (s.freeWindow l).isNone = true) := by
    rintro ⟨h3, -, h⟩
    simp [Option.isSome_iff_ne_none.mp (hread h3).2] at h
  simp only [State.sendDesc, hendpoint, hentry, if_neg hheld, if_neg hrange, if_neg hwindow, Bool.false_eq_true, if_false]

/-- The state in which a landing has given a descriptor its place among the descriptors. -/
def State.numberDesc (s : State) (l : Nat) : State := s.onEp l (fun x => { x with nextOrder := (s.ep l).nextOrder + 1 })

/-- A local descriptor without an after bit acts at once. -/
theorem State.localDesc_now (hafter : d.after = false) :
    s.localDesc l c op d = ((s.numberDesc l).localAct l c op d (s.ep l).nextOrder).settleTile l :=
  if_neg (by simp [hafter])

theorem State.localAct_openWindow {n : Nat} (hclosed : (s.tile l).windows.find (bitsAt d.specific.toNat 96 6) = none)
    (hrange : s.windowsAt l d.localAddr.toNat (64 * d.length.toNat) = []) :
    s.localAct l c 8 d n = s.openWin l (bitsAt d.specific.toNat 96 6) (openedWindow c n d) :=
  if_neg (by simp [hclosed, hrange])

theorem State.localAct_closeWindow {w : Window} (n : Nat) (hopen : (s.tile l).windows.find (bitsAt d.specific.toNat 96 6) = some w)
    (hread : w.byRead = none) :
    s.localAct l c 9 d n = (s.closeWin l (bitsAt d.specific.toNat 96 6) 0x84).refuseDesc l c d 0 := by
  simp only [State.localAct, hopen, hread, Option.isSome_none, Bool.false_eq_true, if_false]

end

/-! ## Source rows (05 R119) -/

theorem exec_sourceRowRead (l row : Nat) (data : BitVec 1024) (cor : Nat) (bad : Bool) (s : State) :
    exec (.sourceRowRead l row data cor bad) s = up s (fun s => s.sourceRow l row data cor bad) := rfl

/-- The corrected words of a row are reported. -/
def State.rowCorrected (s : State) (l cor : Nat) (part ctx : Nat) : State :=
  (List.range cor).foldl (fun a _ => a.raise (.landing l) 6 0x020 part ctx) (s.onTile l (fun t => { t with rowForces := [] }))

/-- A row is kept for the read that asked for it. -/
def State.keepRow (s : State) (l : Nat) (j j' : ReadJob) : State :=
  s.onEp l (fun x => { x with jobs := x.jobs.map (fun y => if y = j then j' else y) })

section
variable {s : State} {l row : Nat} {j : ReadJob} (hjob : s.jobOfRow l row = some j) (hforces : (s.tile l).rowForces = [])
include hforces

/-- Where no error is forced, none is left of them. -/
theorem State.onTile_tail_rowForces :
    s.onTile l (fun t => { t with rowForces := t.rowForces.tail }) = s.onTile l (fun t => { t with rowForces := [] }) :=
  State.onTile_congr (by rw [hforces]; rfl)

include hjob

theorem State.sourceRow_good (data : BitVec 1024) (cor : Nat) : s.sourceRow l row data cor false =
    let j' := { j with rows := j.rows.put row data }
    let b := (s.rowCorrected l cor (s.epPart l) (s.jobContext l j row)).keepRow l j j'
    if (rowsOf j.base j.bytes).all (fun r => (j'.rows.find r).isSome) then b.jobDone l j' (jobBytes j') else b := by
  simp only [State.sourceRow, hjob, hforces, State.onTile_tail_rowForces hforces]
  rfl

theorem State.sourceRow_bad (data : BitVec 1024) (cor : Nat) : s.sourceRow l row data cor true =
    (((s.rowCorrected l cor (s.epPart l) (s.jobContext l j row)).raise (.landing l) 6 0x021 (s.epPart l) (s.jobContext l j row)).bump
      0x800503 (8192 + l) 0 0 0 16 1).jobFailed l j 0x0A := by
  simp only [State.sourceRow, hjob, hforces, State.onTile_tail_rowForces hforces]
  rfl

end

/-! ## Waits that have lasted for their time (13 R348) -/

theorem exec_waitTimeout (l c : Nat) (s : State) : exec (.waitTimeout l c) s = execWaitTimeout l c s := rfl

theorem State.word_bump_other (s : State) {id inst row word lo w n id' inst' row' word' : Nat}
    (h : dkey id' inst' row' word' ≠ dkey id inst row word) :
    (s.bump id inst row word lo w n).word id' inst' row' word' = s.word id' inst' row' word' := by
  simp only [State.bump]
  split
  · exact State.word_setWord_other _ _ _ _ _ _ _ _ _ _ h
  · exact State.word_setWord_other _ _ _ _ _ _ _ _ _ _ h

/-- The count of waits that have lasted is no entry of the partition map. -/
theorem State.epPart_bump_waits (s : State) (l n : Nat) : (s.bump 0x800302 (8192 + l) 0 0 0 32 n).epPart l = s.epPart l := by
  simp only [State.epPart]
  split
  · refine s.word_bump_other ?_
    simp only [dkey]
    omega
  · rfl

theorem runs_waitTimeout {s : State} {l c : Nat} {w : Wait} (hs : s.live) (hw : (s.tile l).waits.find c = some w)
    (hfirst : w.timedOut = false) (hrunning : w.suspended = false) (hdue : w.start + s.val 0x384001 ≤ s.now (.landing l)) :
    let q := s.quiet.onTile l (fun t => { t with waits := t.waits.put c { w with timedOut := true } })
    Runs (.waitTimeout l c) s ((q.bump 0x800302 (8192 + l) 0 0 0 32 1).raise (.landing l) 6 0x026 (q.epPart l)
      (ctxScratch w.sem.toNat 0 c)) := by
  have hw' : (s.quiet.tile l).waits.find c = some w := hw
  refine runs_up hs (exec_waitTimeout l c s) ?_
  simp only [hw']
  refine if_neg ?_
  simp only [hfirst, hrunning, Bool.false_eq_true, false_or, Nat.not_lt]
  exact hdue

end Sys2Proof.Machine
end

section
/-!
# PROOFS. The statements of 05 about the landing and the tile port, settled
-/
namespace Sys2Proof.Machine

/-- Settles O34: nobody waits on the semaphore that is set, so the test of the waits changes nothing. -/
theorem semaphoreOperations : Obligations.SemaphoreOperations := by
  intro s l c k v hs hfree
  refine ⟨fun hd => ?active, fun d hdom hd => ?doze, fun ha => ?asleep⟩
  case active =>
    have hawake : s.quiet.asleep (.landing l) = false := State.asleep_of_active (s := s.quiet) (u := .landing l) hd
    refine ⟨(runs_tileSem hs hd hfree (exec_semRead l c k s) (State.tpOut_awake hawake _)).exec_eq rfl rfl rfl,
      fun helse => ⟨?_, ?_⟩⟩
    · exact exec_setSem (runs_tileSem hs hd hfree (exec_semAdd l c k v s) (State.tileSet_quietly hawake helse c (s.sem l k + v)))
    · exact exec_setSem (runs_tileSem hs hd hfree (exec_semSet l c k v s) (State.tileSet_quietly hawake helse c v))
  case doze =>
    obtain rfl : stairOf l = d := Option.some.inj hdom
    have hawake : (s.quiet.woken l).asleep (.landing l) = false := State.asleep_of_active (s.quiet.woken_domState l)
    exact (runs_tilePort_doze hs (exec_semRead l c k s) hd ((State.tileSem_free (s := s.quiet.woken l) hfree _).trans
      (State.tpOut_awake hawake _))).exec_eq rfl rfl rfl
  case asleep =>
    exact ⟨exec_tilePort_asleep hs (exec_semRead l c k s) ha, exec_tilePort_asleep hs (exec_semAdd l c k v s) ha,
      exec_tilePort_asleep hs (exec_semSet l c k v s) ha⟩

/-- Settles O35: the wait that begins is the only one that can be met. -/
theorem semaphoreWaits : Obligations.SemaphoreWaits := by
  intro s l c k v hs hd hc hfree helse
  have hwait := runs_tileSem hs hd hfree (exec_semWait l c k v s) rfl
  have htake := runs_tileSem hs hd hfree (exec_semWaitTake l c k v s) rfl
  exact ⟨fun hbelow => ⟨exec_wait_below hwait helse hbelow, exec_wait_below htake helse hbelow⟩,
    fun hmet => ⟨exec_wait_met hwait helse hc hd hmet, exec_wait_met htake helse hc hd hmet⟩⟩

/-- Settles O36: the wake from DOZE moves one domain, and every meaning keeps the frame of the port, the test of all waits included. -/
theorem tileFrame : Obligations.TileFrame := by
  intro s t l c k v e f hs h
  have hframe : (s.quiet.tileWake l).portFrame t l := by
    rcases h with h | h | h | h | h | h
    · exact tilePort_portFrame hs ((exec_semRead l c k s).symm.trans h) (fun q => .tileSem c (.tpOut q l _))
    · exact tilePort_portFrame hs ((exec_semAdd l c k v s).symm.trans h) (fun q => .tileSem c (.tileSet q l c k _))
    · exact tilePort_portFrame hs ((exec_semSet l c k v s).symm.trans h) (fun q => .tileSem c (.tileSet q l c k v))
    · exact tilePort_portFrame hs ((exec_semWait l c k v s).symm.trans h) (fun q => .tileSem c (.beginWait q l c k v false))
    · exact tilePort_portFrame hs ((exec_semWaitTake l c k v s).symm.trans h) (fun q => .tileSem c (.beginWait q l c k v true))
    · exact tilePort_portFrame hs ((exec_streamReady l e f s).symm.trans h) (fun q => .streamControl q l e _)
  have hwake := s.quiet.tileWake_eq l
  have htile (j : Nat) : (s.quiet.tileWake l).tile j = s.tile j := (congrArg (·.tile j) hwake :)
  have hdoms := hframe.doms_eq
  obtain ⟨hrest, hothers, hown⟩ := hframe
  rw [htile] at hown
  refine ⟨?_, fun hd => ?_, fun j hj => (hothers j hj).trans (htile j), (congrArg Tile.scratch hown :), (congrArg Tile.owner hown :),
    (congrArg Tile.queue hown :), (congrArg Tile.windows hown :)⟩
  · rw [hdoms]
    refine hrest.trans ?_
    rw [hwake]
    rfl
  · rw [hdoms, State.tileWake_of_ne_doze (s := s.quiet) hd]
    rfl

/-- Settles O37: each clause is one case of the arbiter. -/
theorem injectionArbiter : Obligations.InjectionArbiter := by
  refine ⟨fun s l c hs hd hc => ?awake,
    fun s l c hs ha => ⟨exec_injectionRequest_asleep hs ha, exec_injectionRequestDrop_asleep hs ha⟩⟩
  have hawake : s.quiet.asleep (.landing l) = false := State.asleep_of_active (s := s.quiet) (u := .landing l) hd
  refine ⟨fun howner hqueue hattached => ?free, fun o howner hne hqueue hattached => ?held, fun howner hqueue => ?drop⟩
  case free =>
    have hgrant := (State.injectionRequest_free (s := s.quiet) hc howner hqueue hattached).trans
      (State.grantTo_awake (s := s.quiet.raiseLine l c) hawake)
    refine ⟨_, (runs_injectionRequest hs hd hgrant).exec_eq rfl rfl rfl, (((s.onlyTile_quiet l).onTile _).onTile _).emit _, ?_, ?_, ?_⟩
    · simp only [State.tile_emit, State.tile_onTile_same]
    · rw [← grantWord_some hc]
      rfl
    · simp only [State.tile_emit, State.tile_onTile_same, State.raiseLine, BitVec.getLsbD_or, getLsbD_grantWord hc, Bool.or_true]
  case held =>
    have hpark := State.injectionRequest_held (s := s.quiet) hc howner hne hqueue hattached
    refine ⟨_, (runs_injectionRequest hs hd hpark).exec_eq rfl rfl rfl, ((s.onlyTile_quiet l).onTile _).onTile _, ?_, ?_, rfl⟩
    · simp only [State.tile_onTile_same, State.raiseLine]
      exact howner
    · simp only [State.tile_onTile_same, State.raiseLine]
      rfl
  case drop =>
    have hempty : ((s.quiet.dropLine l c).tile l).queue = [] := by
      rw [State.dropLine, State.tile_onTile_same]
      exact hqueue
    have hfree := State.serveQueue_empty (s := s.quiet.dropLine l c) hawake hempty
    refine ⟨_, (runs_injectionRequestDrop hs hd howner hfree).exec_eq rfl rfl rfl, (((s.onlyTile_quiet l).onTile _).onTile _).emit _,
      ?_, rfl, ?_⟩
    · simp only [State.tile_emit, State.tile_onTile_same]
    · simp only [State.tile_emit, State.tile_onTile_same, State.dropLine, BitVec.getLsbD_and, BitVec.getLsbD_not, getLsbD_grantWord hc,
        Bool.not_true, Bool.and_false]

/-- Settles O40: the control changes the one stream that it finds; a stream with a packet to send does not close. -/
theorem streamControl : Obligations.StreamControl := by
  intro s l e f x hs hd hx
  have hcontrol (g : TxStream → TxStream) := State.streamControl_eq (s := s.quiet) hx g
  have hput (y : TxStream) :
      ((s.quiet.onTile l (fun t => { t with txs := t.txs.put e.toNat y })).tile l).txs = (s.tile l).txs.put e.toNat y :=
    (congrArg Tile.txs (s.quiet.tile_onTile_same l _) :)
  refine ⟨?ready, ?close⟩
  case ready =>
    refine ⟨_, (runs_tilePort hs (exec_streamReady l e f s) hd (hcontrol _)).exec_eq rfl rfl rfl, (s.onlyTile_quiet l).onTile _, rfl, ?_,
      fun k hk => ?_⟩
    · rw [hput, FMap.find_put_same]
    · rw [hput, FMap.find_put_other _ _ _ _ hk]
  case close =>
    intro q
    have hrun : Runs (.streamClose l e f) s (q.tryClose l e.toNat) :=
      runs_tilePort hs (exec_streamClose l e f s) hd (congrArg (State.tryClose · l e.toNat) (hcontrol _))
    have hclosed : (q.tile l).txs.find e.toNat = some { x with close := some f } := by rw [hput, FMap.find_put_same]
    exact ⟨hrun, fun hp => State.tryClose_pending hclosed hp ▸ hrun⟩

/-- Settles O38: the guard of the watchdog holds, and the owner is the client. -/
theorem injectionWatchdog : Obligations.InjectionWatchdog := by
  intro s l c hs hd howner hidle
  have hd' : s.quiet.domState (.landing l) = .active := hd
  have howner' : (s.quiet.tile l).owner = some c := howner
  have hidle' : s.quiet.val 0x042001 ≤ (s.quiet.tile l).idle := hidle
  refine runs_when hs (exec_injectionWatchdog l s) ?_ ?_
  · simp [hd', howner', hidle']
  · simp only [howner']

/-- Settles O39: a descriptor is malformed, local, or sends; a row completes its read or does not; a wait is due. -/
theorem tileDescriptors : Obligations.TileDescriptors := by
  refine ⟨fun s l c op d hs hl hd howner h1 h12 => ?descriptors, fun s l row data cor j hs hjob hforces => ?rows,
    fun s l c w hs hw hfirst hrunning hdue => ?waits⟩
  case descriptors =>
    intro a n b win
    have hrun {t : State} (ht : s.quiet.descriptor l c op d = t) : Runs (descCommand op l d) s t :=
      runs_descCommand hs hd howner h1 h12 ht
    have hlocal {t : State} (hop : 8 ≤ op ∧ op ≤ 11) (hok : s.quiet.descOk l op d = true) (hafter : d.after = false)
        (ht : b.localAct l c op d n = t) : Runs (descCommand op l d) s (t.settleTile l) :=
      hrun ((State.descriptor_local hok hop).trans ((State.localDesc_now hafter).trans (congrArg (State.settleTile · l) ht)))
    have htile : b.tile l = { s.tile l with idle := 0, presented := true, offered := none } :=
      s.quiet.tile_acceptDesc l
    refine ⟨fun hok => hrun (State.descriptor_malformed hok), fun k hok hop hendpoint hpart haborted hentry hread => ?sends,
      fun hop hok hafter hclosed hrange => ?openWindow, fun w hop hafter hopen hread => ?closeWindow, fun hop hok hafter => ?tapArm,
      fun hop hafter => ?tapDisarm⟩
    case sends =>
      exact hrun ((State.descriptor_sends hok (by omega)).trans
        (congrArg (State.settleTile · l) (State.sendDesc_opened hendpoint hpart haborted hentry hread)))
    case openWindow =>
      subst hop
      refine hlocal (by omega) hok hafter (State.localAct_openWindow ?_ ?_)
      · rw [htile]
        exact hclosed
      · rw [State.windowsAt, htile]
        exact hrange
    case closeWindow =>
      subst hop
      refine hlocal (by omega) rfl hafter (State.localAct_closeWindow n ?_ hread)
      rw [htile]
      exact hopen
    case tapArm =>
      subst hop
      exact hlocal (by omega) hok hafter rfl
    case tapDisarm =>
      subst hop
      refine hlocal (by omega) rfl hafter ?_
      simp only [State.localAct, htile]
  case rows =>
    intro ctx a j' b
    have hrun (bad : Bool) {t : State} (ht : s.quiet.sourceRow l row data cor bad = t) : Runs (.sourceRowRead l row data cor bad) s t :=
      runs_up hs (exec_sourceRowRead l row data cor bad s) ht
    have hgood := State.sourceRow_good (s := s.quiet) hjob hforces data cor
    exact ⟨fun hpart => hrun false (hgood.trans (if_neg (ne_true_of_eq_false hpart))),
      fun hall => hrun false (hgood.trans (if_pos hall)),
      hrun true (State.sourceRow_bad (s := s.quiet) hjob hforces data cor)⟩
  case waits =>
    intro q
    rw [State.epPart_bump_waits]
    exact runs_waitTimeout hs hw hfirst hrunning hdue

end Sys2Proof.Machine
end

section
/-!
# PROOFS. 06, combining arithmetic: the two's complement of an integer SUM, and the accumulators of every SUM

Reading back a pattern of `w` bits is the balanced remainder modulo `2 ^ w`, the library's `Int.bmod`. The residue check of R170 passes
on every addition of true patterns, as `2 ^ w` is 1 modulo 255 at the widths of the accumulators; so a running sum is the balanced remainder
of the exact one, in whatever order and grouping its inputs come.
-/
namespace Sys2Proof.Machine

/-! ## Two's complement (06 R142) -/

theorem natCast_patternOf (w : Nat) (a : Int) : (patternOf w a : Int) = a % ((2 ^ w : Nat) : Int) :=
  Int.toNat_of_nonneg (Int.emod_nonneg a (by positivity))

theorem patternOf_lt (w : Nat) (a : Int) : patternOf w a < 2 ^ w := by
  have h := Int.emod_lt_of_pos a (show (0 : Int) < ((2 ^ w : Nat) : Int) by positivity)
  rw [← natCast_patternOf] at h
  exact_mod_cast h

theorem signedOf_eq_bmod {w : Nat} (hw : 0 < w) (v : Nat) : signedOf w v = Int.bmod v (2 ^ w) := by
  have hhalf := Nat.two_pow_pred_mul_two hw
  rw [signedOf, Int.bmod_def, ← hhalf]
  generalize 2 ^ (w - 1) = n
  split <;> split <;> omega

/-- A pattern read back is the balanced remainder of the number it was made of. -/
theorem signedOf_patternOf {w : Nat} (hw : 0 < w) (a : Int) : signedOf w (patternOf w a) = Int.bmod a (2 ^ w) := by
  rw [signedOf_eq_bmod hw, natCast_patternOf, Int.emod_bmod]

/-- A number in the range of `w` bits is its own balanced remainder. -/
theorem bmod_two_pow_of_inRange {w : Nat} (hw : 0 < w) {a : Int} (hlo : -((2 ^ (w - 1) : Nat) : Int) ≤ a)
    (hhi : a ≤ ((2 ^ (w - 1) : Nat) : Int) - 1) : Int.bmod a (2 ^ w) = a := by
  have hhalf := Nat.two_pow_pred_mul_two hw
  rw [← hhalf]
  generalize 2 ^ (w - 1) = n at hlo hhi
  exact Int.bmod_eq_of_le (by omega) (by omega)

theorem signedOf_patternOf_of_inRange {w : Nat} (hw : 0 < w) {a : Int} (hlo : -((2 ^ (w - 1) : Nat) : Int) ≤ a)
    (hhi : a ≤ ((2 ^ (w - 1) : Nat) : Int) - 1) : signedOf w (patternOf w a) = a :=
  (signedOf_patternOf hw a).trans (bmod_two_pow_of_inRange hw hlo hhi)

/-! ## The result of an integer SUM (06 R150) -/

theorem bytes_pos_of_mem_fmts : ∀ f ∈ fmts, 0 < f.bytes := by decide

/-- The greatest number of an integer format. -/
def Fmt.intMax (f : Fmt) : Int := ((2 ^ (8 * f.bytes - 1) : Nat) : Int) - 1

/-- The least number of an integer format. -/
def Fmt.intMin (f : Fmt) : Int := -((2 ^ (8 * f.bytes - 1) : Nat) : Int)

theorem Fmt.intMin_le_intMax (f : Fmt) : f.intMin ≤ f.intMax := by
  have hpos : 0 < 2 ^ (8 * f.bytes - 1) := Nat.two_pow_pos _
  rw [intMin, intMax]
  omega

section
variable {f : Fmt} (hint : f.isInt = true) (scale : Nat) {a : Int} (fl : BitVec 8)
include hint

theorem sumResult_inRange (wrap : Bool) (hlo : f.intMin ≤ a) (hhi : a ≤ f.intMax) :
    sumResult f scale wrap a fl = (patternOf (8 * f.bytes) a, {}) :=
  (if_pos hint).trans (if_pos ⟨hlo, hhi⟩)

theorem sumResult_wrapped (hout : a < f.intMin ∨ f.intMax < a) : sumResult f scale true a fl = (patternOf (8 * f.bytes) a, {}) :=
  (if_pos hint).trans ((if_neg (by rw [← Fmt.intMin, ← Fmt.intMax]; omega)).trans (if_pos rfl))

theorem sumResult_below (hout : a < f.intMin) : sumResult f scale false a fl = (patternOf (8 * f.bytes) f.intMin, { sat := true }) := by
  refine (if_pos hint).trans ((if_neg (fun h => hout.not_ge h.1)).trans ((if_neg Bool.false_ne_true).trans ?_))
  exact congrArg (fun x => (patternOf (8 * f.bytes) x, _)) (if_pos hout)

theorem sumResult_above (hout : f.intMax < a) : sumResult f scale false a fl = (patternOf (8 * f.bytes) f.intMax, { sat := true }) := by
  refine (if_pos hint).trans ((if_neg (fun h => hout.not_ge h.2)).trans ((if_neg Bool.false_ne_true).trans ?_))
  exact congrArg (fun x => (patternOf (8 * f.bytes) x, _)) (if_neg (f.intMin_le_intMax.trans hout.le).not_gt)

end

/-! ## Addition in an accumulator (06 R146, R170) -/

theorem two_pow_mod_255 {w : Nat} (hw : 8 ∣ w) : 2 ^ w % 255 = 1 := by
  obtain ⟨k, rfl⟩ := hw
  rw [pow_mul, Nat.pow_mod]
  simp

/-- The residue check passes on the addition of any two patterns: the carry out is worth `2 ^ w`, which is 1 modulo 255. -/
theorem residueHolds_of_dvd {w : Nat} (hw : 8 ∣ w) (A B : Nat) : residueHolds w A B = true := by
  have hmod := two_pow_mod_255 hw
  have hsplit := Nat.div_add_mod (A + B) (2 ^ w)
  have hcarry : 2 ^ w * ((A + B) / 2 ^ w) % 255 = (A + B) / 2 ^ w % 255 := by rw [Nat.mul_mod, hmod, one_mul, Nat.mod_mod]
  simp only [residueHolds, residue, beq_iff_eq]
  generalize (A + B) / 2 ^ w = c at *
  generalize 2 ^ w * c = t at *
  omega

/-- Addition in an accumulator is addition modulo its width. -/
theorem accAdd_eq_bmod {w : Nat} (hw : 8 ∣ w) (hpos : 0 < w) (a b : Int) : accAdd w a b = Int.bmod (a + b) (2 ^ w) := by
  rw [accAdd, if_pos (residueHolds_of_dvd hw _ _), signedOf_eq_bmod hpos, Int.natCast_emod, Int.emod_bmod, Int.natCast_add,
    natCast_patternOf, natCast_patternOf, Int.emod_add_bmod, Int.add_emod_bmod]

theorem dvd_accWidth (f : Fmt) (rounded : Bool) : 8 ∣ accWidth f rounded := by
  unfold accWidth
  split_ifs <;> decide

theorem accWidth_pos (f : Fmt) (rounded : Bool) : 0 < accWidth f rounded := by
  unfold accWidth
  split_ifs <;> decide

/-! ## The sum of many inputs (06 R146, R148) -/

/-- The integer of an accumulator of a SUM. -/
def Acc.integer : Acc → Int
  | .sum a _ => a
  | .val _ => 0

/-- The flag byte of an accumulator of a SUM. -/
def Acc.flagByte : Acc → BitVec 8
  | .sum _ fl => fl
  | .val _ => 0

theorem sumInput_eq (f : Fmt) (scale v : Nat) : sumInput f scale v = .sum (sumInput f scale v).integer (sumInput f scale v).flagByte := by
  unfold sumInput
  cases decodeNum f v <;> rfl

theorem accJoin_sum (f : Fmt) (rounded : Bool) (a b : Int) (x y : BitVec 8) :
    accJoin 0 f (accWidth f rounded) (.sum a x) (.sum b y) = .sum (Int.bmod (a + b) (2 ^ accWidth f rounded)) (x ||| y) :=
  congrArg (Acc.sum · (x ||| y)) (accAdd_eq_bmod (dvd_accWidth f rounded) (accWidth_pos f rounded) a b)

/-- The exact sum of the inputs of a SUM. -/
def exactSum (f : Fmt) (scale : Nat) (l : List Nat) : Int := (l.map (fun v => (sumInput f scale v).integer)).sum

/-- The flags that the inputs of a SUM bring, together. -/
def joinedFlags (f : Fmt) (scale : Nat) (l : List Nat) : BitVec 8 :=
  (l.map (fun v => (sumInput f scale v).flagByte)).foldl (fun x y => x ||| y) 0#8

theorem exactSum_append (f : Fmt) (scale : Nat) (xs ys : List Nat) :
    exactSum f scale (xs ++ ys) = exactSum f scale xs + exactSum f scale ys := by
  simp [exactSum]

theorem joinedFlags_append (f : Fmt) (scale : Nat) (xs ys : List Nat) :
    joinedFlags f scale (xs ++ ys) = joinedFlags f scale xs ||| joinedFlags f scale ys := by
  simp only [joinedFlags, List.map_append, List.foldl_append]
  rw [← List.foldl_assoc (op := fun x y : BitVec 8 => x ||| y)]
  simp

theorem exactSum_perm (f : Fmt) (scale : Nat) {xs ys : List Nat} (h : xs.Perm ys) : exactSum f scale xs = exactSum f scale ys :=
  (h.map _).sum_eq

theorem joinedFlags_perm (f : Fmt) (scale : Nat) {xs ys : List Nat} (h : xs.Perm ys) :
    joinedFlags f scale xs = joinedFlags f scale ys :=
  (h.map _).foldl_eq' (fun x _ y _ z => by rw [BitVec.or_assoc, BitVec.or_assoc, BitVec.or_comm x y]) 0#8

/-- What an accumulator holds after its inputs: their exact sum modulo its width, and all their flags. -/
theorem foldl_accJoin_sumInput (f : Fmt) (scale : Nat) (rounded : Bool) (l : List Nat) :
    (l.map (sumInput f scale)).foldl (accJoin 0 f (accWidth f rounded)) (.sum 0 0#8) =
      .sum (Int.bmod (exactSum f scale l) (2 ^ accWidth f rounded)) (joinedFlags f scale l) := by
  induction l using List.reverseRecOn with
  | nil => simp [exactSum, joinedFlags]
  | append_singleton l v ih =>
    rw [List.map_append, List.foldl_append, ih, List.map_singleton, List.foldl_cons, List.foldl_nil, sumInput_eq, accJoin_sum,
      Int.bmod_add_bmod, exactSum_append, joinedFlags_append]
    simp [exactSum, joinedFlags]

/-! ## No sum wraps (06 R146) -/

/-- Every finite number of a format lies within two to this power, as a multiple of the format's scale. -/
def Fmt.numBits (f : Fmt) : Nat := if f.isInt then 8 * f.bytes - 1 else f.fb + 2 ^ f.eb

theorem numBits_lt_accWidth : ∀ f ∈ fmts, 24 + f.numBits + 1 < accWidth f false := by decide

theorem abs_signedOf_le {w : Nat} (hw : 0 < w) (v : Nat) : |signedOf w v| ≤ 2 ^ (w - 1) := by
  have hhalf := Nat.two_pow_pred_mul_two hw
  have hpos : 0 < 2 ^ (w - 1) := Nat.two_pow_pos _
  have hle := Int.le_bmod (x := v) (m := 2 ^ w) (Nat.two_pow_pos w)
  have hlt := Int.bmod_lt (x := v) (m := 2 ^ w) (Nat.two_pow_pos w)
  rw [signedOf_eq_bmod hw]
  rw [← hhalf] at hle hlt ⊢
  rw [abs_le]
  push_cast at hle hlt ⊢
  omega

/-- The magnitude of a floating-point encoding, subnormal or not, from its exponent and fraction fields. -/
theorem magnitude_le {eb fb e m : Nat} (he : e < 2 ^ eb) (hm : m < 2 ^ fb) :
    (if e = 0 then m else (2 ^ fb + m) * 2 ^ (e - 1)) ≤ 2 ^ (fb + 2 ^ eb) := by
  split
  · exact hm.le.trans (Nat.pow_le_pow_right two_pos (Nat.le_add_right _ _))
  · calc (2 ^ fb + m) * 2 ^ (e - 1) ≤ 2 ^ (fb + 1) * 2 ^ (e - 1) := by gcongr; rw [pow_succ]; omega
      _ = 2 ^ (fb + 1 + (e - 1)) := (pow_add ..).symm
      _ ≤ 2 ^ (fb + 2 ^ eb) := Nat.pow_le_pow_right two_pos (by omega)

theorem abs_le_of_decodeNum {f : Fmt} (hb : 0 < f.bytes) {v : Nat} {neg : Bool} {a : Int} (h : decodeNum f v = .fin neg a) :
    |a| ≤ 2 ^ f.numBits := by
  by_cases hint : f.isInt = true
  · simp only [decodeNum, hint, if_true, Num.fin.injEq] at h
    rw [← h.2, Fmt.numBits, if_pos hint]
    exact abs_signedOf_le (by omega) v
  · have hmag := magnitude_le (show bitsAt v f.fb f.eb < 2 ^ f.eb from Nat.mod_lt _ (Nat.two_pow_pos _))
      (show bitsAt v 0 f.fb < 2 ^ f.fb from Nat.mod_lt _ (Nat.two_pow_pos _))
    have hfin {n : Nat} (hn : n ≤ 2 ^ (f.fb + 2 ^ f.eb)) {s : Bool} (hs : Num.fin s (if s then -(n : Int) else n) = .fin neg a) :
        |a| ≤ 2 ^ f.numBits := by
      have hcast : (n : Int) ≤ 2 ^ (f.fb + 2 ^ f.eb) := by exact_mod_cast hn
      rw [Fmt.numBits, if_neg hint, ← (Num.fin.inj hs).2]
      split <;> simpa using hcast
    simp only [decodeNum, if_neg hint] at h
    split at h
    · split at h
      · cases h
      · exact hfin hmag h
    · split at h
      · split at h <;> cases h
      · exact hfin hmag h

/-- An input of a SUM at its format's own scale. -/
theorem abs_sumInput_integer_le {f : Fmt} (hb : 0 < f.bytes) (v : Nat) : |(sumInput f f.scale v).integer| ≤ 2 ^ f.numBits := by
  cases h : decodeNum f v with
  | nan | inf => simp [sumInput, h, Acc.integer]
  | fin neg a => simpa [sumInput, h, Acc.integer] using abs_le_of_decodeNum hb h

/-- The exact sum of up to 2^24 members stays within the accumulator of its format. -/
theorem bmod_exactSum {f : Fmt} (hf : f ∈ fmts) {xs : List Nat} (hlen : xs.length ≤ 2 ^ 24) :
    Int.bmod (exactSum f f.scale xs) (2 ^ accWidth f false) = exactSum f f.scale xs := by
  have hone (x : Int) (hx : x ∈ xs.map (fun v => (sumInput f f.scale v).integer)) : |x| ≤ 2 ^ f.numBits := by
    obtain ⟨v, -, rfl⟩ := List.mem_map.mp hx
    exact abs_sumInput_integer_le (bytes_pos_of_mem_fmts f hf) v
  have hupper := List.sum_le_card_nsmul _ _ (fun x hx => (abs_le.mp (hone x hx)).2)
  have hlower := List.card_nsmul_le_sum _ _ (fun x hx => (abs_le.mp (hone x hx)).1)
  have hbound : xs.length * 2 ^ f.numBits < 2 ^ (accWidth f false - 1) := by
    have hwide := numBits_lt_accWidth f hf
    calc xs.length * 2 ^ f.numBits ≤ 2 ^ 24 * 2 ^ f.numBits := by gcongr
      _ = 2 ^ (24 + f.numBits) := (pow_add ..).symm
      _ < 2 ^ (accWidth f false - 1) := Nat.pow_lt_pow_right (by decide) (by omega)
  simp only [List.length_map, nsmul_eq_mul, mul_neg] at hupper hlower
  rw [← exactSum] at hupper hlower
  zify at hbound
  refine bmod_two_pow_of_inRange (accWidth_pos f false) ?_ ?_ <;> push_cast <;> linarith

end Sys2Proof.Machine
end

section
/-!
# PROOFS. The arithmetic of 06, settled
-/
namespace Sys2Proof.Machine

/-- Settles O14: in range, saturated, wrapped; each pattern is read back by its balanced remainder. -/
theorem integerSum : Obligations.IntegerSum := by
  intro f scale a fl hf hint w hi lo
  have hw : 0 < w := Nat.mul_pos (by decide) (bytes_pos_of_mem_fmts f hf)
  have hbounds : lo ≤ hi := f.intMin_le_intMax
  have hread {x : Int} (hlo : lo ≤ x) (hhi : x ≤ hi) : signedOf w (patternOf w x) = x := signedOf_patternOf_of_inRange hw hlo hhi
  refine ⟨fun hlo hhi wrap => ?inRange, fun hout => ?above, fun hout => ?below, fun hout => ?wrapped⟩
  case inRange =>
    rw [sumResult_inRange hint scale fl wrap hlo hhi]
    exact ⟨hread hlo hhi, rfl⟩
  case above =>
    rw [sumResult_above hint scale fl hout]
    exact ⟨hread hbounds le_rfl, rfl⟩
  case below =>
    rw [sumResult_below hint scale fl hout]
    exact ⟨hread le_rfl hbounds, rfl⟩
  case wrapped =>
    rw [sumResult_wrapped hint scale fl hout]
    exact ⟨patternOf_lt w a, rfl, natCast_patternOf w a⟩

/-- Settles O15: an accumulator holds the exact sum of its inputs modulo its width, which neither order nor grouping changes, and which
is that sum itself for up to 2^24 members. -/
theorem sumAnyOrder : Obligations.SumAnyOrder := by
  refine ⟨fun f scale rounded wrap xs ys => ?_, fun f xs hf hlen => ⟨joinedFlags f f.scale xs, ?_⟩⟩
  · simp only [foldl_accJoin_sumInput]
    refine ⟨fun hperm => ?_, ?_⟩
    · rw [exactSum_perm f scale hperm, joinedFlags_perm f scale hperm]
    · rw [accJoin_sum, Int.bmod_add_bmod, Int.add_bmod_bmod, exactSum_append, joinedFlags_append]
  · rw [foldl_accJoin_sumInput, bmod_exactSum hf hlen]
    rfl

end Sys2Proof.Machine
end

section
/-!
# PROOFS. 06 and 07, the packets of a collective at their units

Contributions, results, count exchanges and reservations. Every packet passes its unit's checks first, as the laws of the receipt say; each
lemma below is one case of the body that is left.
-/
namespace Sys2Proof.Machine

/-! ## Contributions (06 R161, R165; 07 R185, R192) -/

theorem exec_reduceContrib_landing (l port : Nat) (p : Packet) (alu : Nat) (s : State) :
    exec (.reduceContrib (.landing l) port p alu) s =
      up s (fun s => (((s.reduceContrib (.landing l) port p alu).sendChunks (collHandle p.hdr) l).settleTile l).startLaunches l) := rfl

theorem exec_reduceContrib_switch {u : UnitId} (hu : isSwitch u = true) (port : Nat) (p : Packet) (alu : Nat) (s : State) :
    exec (.reduceContrib u port p alu) s = up s (fun s => s.reduceContrib u port p alu) := by
  cases u with
  | stair n | gallery n | hall n => rfl
  | landing n | pavilion n | special n | chip => cases hu

theorem epUnit_of_lt {l : Nat} (hl : l < 2048) : epUnit l = .landing l := if_pos hl

/-- An endpoint that is a landing takes in a packet, from its receipt on. -/
theorem State.receive_takeIn_landing (s : State) {l : Nat} (hl : l < 2048) (port : Nat) (p : Packet) (f : State → State)
    (h : (s.takeRx (.landing l) p).soundAt l p) :
    s.receive (.landing l) port p (fun s => s.takeIn l p.hdr f) = f (s.takeRx (.landing l) p) := by
  rw [← epUnit_of_lt hl] at h ⊢
  exact s.receive_takeIn l port p id f h

/-- A sound contribution at a switch that no forced failure waits at is combined. -/
theorem State.reduceContrib_switch (s : State) {u : UnitId} (hu : isSwitch u = true) (port : Nat) (p : Packet)
    (hsound : (s.takeRx u p).sound u p) (hforces : ((s.takeRx u p).sw u).aluForces = []) :
    s.reduceContrib u port p 0 = (s.takeRx u p).combine u port p 0 := by
  cases u with
  | stair n | gallery n | hall n =>
    refine (State.receive_sound _ _ _ _ _ hsound).trans ?_
    simp only [epOf, hforces, State.tapData]
  | landing n | pavilion n | special n | chip => cases hu

/-- At a landing it first enters the taps that watch its stream. -/
theorem State.reduceContrib_landing (s : State) {l : Nat} (hl : l < 2048) (port : Nat) (p : Packet)
    (hsound : (s.takeRx (.landing l) p).soundAt l p) (hforces : ((s.takeRx (.landing l) p).sw (.landing l)).aluForces = []) :
    s.reduceContrib (.landing l) port p 0 =
      ((s.takeRx (.landing l) p).tapBytes l true p.hdr.src p.hdr.stream p.hdr.seq (unitBytes p.data)).combine (.landing l) port p 0 := by
  refine (s.receive_takeIn_landing hl port p _ hsound).trans ?_
  simp only [hforces, State.tapData]

/-- A node takes a contribution that suits it: into the cross-chip stage that it belongs to, or into its on-die chunk. -/
def State.takeContrib (s : State) (u : UnitId) (p : Packet) : State :=
  let h := p.hdr
  let k := collHandle h
  if makerOf h = 5 ∨ (1 < chipCount (s.desc k) ∧ wholeChip (s.desc k) h ∧ u ≠ s.completingNode k h.part.toNat) then
    let i := s.stageOf u p
    s.enterStage 5 u k (launchOf h) i (s.inputOf p (s.stageMask k (launchOf h) i h) (s.sumScale k (launchOf h)))
  else s.takeOnDie u p

/-- Code 0 is no failure of the node's checks (06 R172). -/
theorem State.aluFault_zero (s : State) (u : UnitId) (p : Packet) : s.aluFault u p 0 = s := rfl

section
variable {s : State} {u : UnitId} {p : Packet}

theorem State.takeContrib_crossChip (hmaker : makerOf p.hdr = 5) :
    s.takeContrib u p =
      s.enterStage 5 u (collHandle p.hdr) (launchOf p.hdr) (s.stageOf u p)
        (s.inputOf p (s.stageMask (collHandle p.hdr) (launchOf p.hdr) (s.stageOf u p) p.hdr)
          (s.sumScale (collHandle p.hdr) (launchOf p.hdr))) :=
  if_pos (.inl hmaker)

theorem State.takeContrib_onDie (hmaker : makerOf p.hdr ≠ 5)
    (hdie : chipCount (s.desc (collHandle p.hdr)) ≤ 1 ∨ wholeChip (s.desc (collHandle p.hdr)) p.hdr = false ∨
      u = s.completingNode (collHandle p.hdr) p.hdr.part.toNat) :
    s.takeContrib u p = s.takeOnDie u p := by
  refine if_neg ?_
  rintro (h | ⟨hchips, hwhole, hnode⟩)
  · exact hmaker h
  · rcases hdie with h | h | h
    · exact hchips.not_ge h
    · exact Bool.false_ne_true (h.symm.trans hwhole)
    · exact hnode h

variable (port : Nat) (hended : (s.coll (collHandle p.hdr)).ended = false)
include hended

theorem State.combine_unsuited (hsuits : s.suits u p = false) : s.combine u port p 0 = s.mismatch u p := by
  simp only [State.combine, hended, hsuits, Bool.false_eq_true, if_false, Bool.not_false, if_true]

theorem State.combine_switch (hu : isSwitch u = true) (hsuits : s.suits u p = true) (hmcast : p.hdr.mcast = 0#1) :
    s.combine u port p 0 = s.takeContrib u p := by
  have hsingle : p.hdr.mcast ≠ 1#1 := by simp [hmcast]
  cases u with
  | stair n | gallery n | hall n =>
    simp only [State.combine, hended, hsuits, State.aluFault_zero, if_neg hsingle, Bool.false_eq_true, if_false, Bool.not_true]
    rfl
  | landing n | pavilion n | special n | chip => cases hu

/-- At the chip root a partial that comes by multicast is folded. -/
theorem State.combine_root {l : Nat} (hsuits : s.suits (.landing l) p = true) (hretained : s.answerRetained l p = none) :
    s.combine (.landing l) port p 0 = if p.hdr.mcast = 1#1 then s.takeFold l p else s.takeContrib (.landing l) p := by
  simp only [State.combine, hended, hsuits, State.aluFault_zero, hretained, Bool.false_eq_true, if_false, Bool.not_true]
  rfl

end

theorem State.mismatch_switch (s : State) {u : UnitId} (hu : isSwitch u = true) (p : Packet) :
    s.mismatch u p = (s.bump 0x200103 (instOf u) 0 0 16 16 1).raise u 3 0x043 p.hdr.part.toNat
      (ctxColl (collHandle p.hdr) p.hdr.addr.toNat) := by
  cases u with
  | stair n | gallery n | hall n => rfl
  | landing n | pavilion n | special n | chip => cases hu

theorem runs_reduceContrib_switch {s t : State} {u : UnitId} (port : Nat) {p : Packet} (hs : s.live) (hu : isSwitch u = true)
    (hsound : (s.quiet.takeRx u p).sound u p) (hforces : ((s.quiet.takeRx u p).sw u).aluForces = [])
    (ht : (s.quiet.takeRx u p).combine u port p 0 = t) : Runs (.reduceContrib u port p 0) s t :=
  runs_up hs (exec_reduceContrib_switch hu port p 0 s) ((s.quiet.reduceContrib_switch hu port p hsound hforces).trans ht)

theorem runs_reduceContrib_landing {s t : State} {l : Nat} (port : Nat) {p : Packet} (hs : s.live) (hl : l < 2048)
    (hsound : (s.quiet.takeRx (.landing l) p).soundAt l p) (hforces : ((s.quiet.takeRx (.landing l) p).sw (.landing l)).aluForces = [])
    (ht : ((s.quiet.takeRx (.landing l) p).tapBytes l true p.hdr.src p.hdr.stream p.hdr.seq (unitBytes p.data)).combine
      (.landing l) port p 0 = t) :
    Runs (.reduceContrib (.landing l) port p 0) s (((t.sendChunks (collHandle p.hdr) l).settleTile l).startLaunches l) := by
  subst ht
  exact runs_up hs (exec_reduceContrib_landing l port p 0 s) (by rw [s.quiet.reduceContrib_landing hl port p hsound hforces])

/-! ## Results (07 R186, R191) -/

theorem exec_reduceResult_landing (l port : Nat) (p : Packet) (s : State) :
    exec (.reduceResult (.landing l) port p) s =
      up s (fun s => ((s.reduceResult (.landing l) port p).sendChunks (collHandle p.hdr) l).startLaunches l) := rfl

theorem exec_reduceResult_hall (n port : Nat) (p : Packet) (s : State) :
    exec (.reduceResult (.hall n) port p) s = up s (fun s => s.reduceResult (.hall n) port p) := rfl

section
variable {s q b : State} {u : UnitId} {p : Packet} (port : Nat) (hq : s.takeRx u p = q) (hbank : q.bankAt u p.hdr = some b)
  (hholds : b.holdsDesc (collHandle p.hdr) = true) (howner : b.handleOwner (collHandle p.hdr) = p.hdr.part.toNat)
  (hended : (q.coll (collHandle p.hdr)).ended = false)
include hq hbank hholds howner hended

theorem State.reduceResult_gathered {n : Nat} (hu : u = .hall n) (hsound : q.sound u p) (hgathered : q.gathered p.hdr = true) :
    s.reduceResult u port p =
      q.haveResult u (collHandle p.hdr) (launchOf p.hdr) (p.hdr.addr.toNat / 64) p.data (q.gatherStage p.hdr) p.hdr := by
  subst hq hu
  refine (State.receive_sound _ _ _ _ _ hsound).trans ?_
  simp only [hbank, epOf, hholds, howner, hended, hgathered, Bool.not_true, Bool.false_eq_true, ne_eq, not_true_eq_false, or_self, if_false,
    if_true, State.tapData]

/-- A result at a member whose range nothing holds back. -/
theorem State.reduceResult_member {l : Nat} (hu : u = .landing l) (hl : l < 2048) (hsound : q.soundAt l p)
    (hgathered : q.gathered p.hdr = false) (hmember : (memberIndex (b.desc (collHandle p.hdr)) l).isSome = true)
    (hscrub : q.scrubbing l (dOut (b.desc (collHandle p.hdr)) + p.hdr.addr.toNat) (64 * p.data.length) = false)
    (hmiss : q.permuteMiss l (dOut (b.desc (collHandle p.hdr)) + p.hdr.addr.toNat) false p = none) :
    s.reduceResult u port p = (q.tapBytes l true p.hdr.src p.hdr.stream p.hdr.seq (unitBytes p.data)).memberResult
      (collHandle p.hdr) (b.desc (collHandle p.hdr)) l p.hdr p.data := by
  subst hq hu
  have hreceived := hsound.1
  rw [epUnit_of_lt hl] at hreceived
  refine (State.receive_sound _ _ _ _ _ hreceived).trans ?_
  simp only [hbank, epOf]
  refine (State.takeIn_sound _ _ _ _ _ hsound).trans ?_
  have hmember' : (memberIndex (b.desc (collHandle p.hdr)) l).isNone = false := by rw [← Option.not_isSome, hmember, Bool.not_true]
  simp only [hholds, howner, hended, hgathered, hmember', hscrub, hmiss, Bool.not_true, Bool.false_eq_true,
    ne_eq, not_true_eq_false, or_self, if_false, State.tapData]

end

/-! ## Count exchanges (07 R183) -/

theorem exec_countExch (ep : Nat) (p : Packet) (s : State) :
    exec (.countExch ep p) s = up s (fun s => (s.countExch ep p).startLaunches ep) := rfl

/-- Noting a packet in the duplicate filter writes no object. -/
@[simp] theorem State.filter_dict (s : State) (e : Nat) (h : Header) : (s.filter e h).2.dict = s.dict := by
  simp only [State.filter]
  repeat' split
  all_goals rfl

/-- A descriptor is read from the objects alone. -/
theorem State.desc_of_dict {s t : State} (h : t.dict = s.dict) (k : Nat) : t.desc k = s.desc k := by
  simp only [State.desc, State.word, h]

section
variable {s f : State} {e : Nat} {h : Header} (hf : s.filter e h = (.apply, f))
include hf

theorem State.desc_of_filter (k : Nat) : f.desc k = s.desc k :=
  State.desc_of_dict (by simpa only [hf] using s.filter_dict e h) k

theorem State.arrivalAt_new : s.arrivalAt e h = f.takeArrival (collHandle h) (lowRank h) (exchCount h) h := by
  simp only [State.arrivalAt, hf]

theorem State.rootCount_elsewhere (he : e ≠ chipRoot (s.desc (collHandle h))) : s.rootCount e h = f.ack e h 0 := by
  simp only [State.rootCount, hf, if_pos he]

/-- The chip root notes the count of another; while it lacks one, nothing follows. -/
theorem State.rootCount_noted (he : e = chipRoot (s.desc (collHandle h))) :
    let b := (f.ack e h 0).onColl (collHandle h) (fun c => { c with
      rootCounts := c.rootCounts.filter (fun r => r.1 != lowRank h) ++ [(lowRank h, exchCount h)] })
    (b.coll (collHandle h)).rootCounts.length ≠ chipCount (s.desc (collHandle h)) → s.rootCount e h = b := by
  intro b hlacks
  simp only [State.rootCount, hf, if_neg (not_not.mpr he)]
  exact if_neg (fun hall => hlacks hall.1)

end

section
variable {s q t : State} {ep : Nat} {p : Packet} (hs : s.live) (hq : s.quiet.takeRx (epUnit ep) p = q) (hsound : q.soundAt ep p)
  (hholds : q.holdsDesc (collHandle p.hdr) = true) (howner : q.handleOwner (collHandle p.hdr) = p.hdr.part.toNat)
  (hlength : p.hdr.length = 0#7)
include hs hq hsound hholds howner hlength

/-- A count exchange of a descriptor that this chip holds. -/
theorem runs_countExch
    (ht : (if q.toRootGroup p.hdr then q.rootCount ep p.hdr
      else if chipOf p.hdr.src = q.chipNo ∧ localOf p.hdr.src = chipRoot (q.desc (collHandle p.hdr)) ∧
          (p.hdr.mcast = 1#1 ∨ ep ≠ chipRoot (q.desc (collHandle p.hdr))) then q.memberGo (collHandle p.hdr) ep (exchCount p.hdr)
      else if ep ≠ chipRoot (q.desc (collHandle p.hdr)) ∨ p.hdr.mcast = 1#1 then q.discard (epUnit ep) (epPort ep) p.hdr
      else q.arrivalAt ep p.hdr) = t) : Runs (.countExch ep p) s (t.startLaunches ep) := by
  subst hq
  refine runs_up hs (exec_countExch ep p s) (congrArg (State.startLaunches · ep) ?_)
  refine (State.receive_takeIn _ _ _ _ _ _ hsound).trans ((if_neg ?_).trans ht)
  simp [hholds, howner, hlength]

theorem runs_countExch_rootGroup (hgroup : q.toRootGroup p.hdr = true) (ht : q.rootCount ep p.hdr = t) :
    Runs (.countExch ep p) s (t.startLaunches ep) :=
  runs_countExch hs hq hsound hholds howner hlength ((if_pos hgroup).trans ht)

theorem runs_countExch_go (hgroup : q.toRootGroup p.hdr = false) (hchip : chipOf p.hdr.src = q.chipNo)
    (hroot : localOf p.hdr.src = chipRoot (q.desc (collHandle p.hdr)))
    (hmember : p.hdr.mcast = 1#1 ∨ ep ≠ chipRoot (q.desc (collHandle p.hdr))) :
    Runs (.countExch ep p) s ((q.memberGo (collHandle p.hdr) ep (exchCount p.hdr)).startLaunches ep) :=
  runs_countExch hs hq hsound hholds howner hlength ((if_neg (ne_true_of_eq_false hgroup)).trans (if_pos ⟨hchip, hroot, hmember⟩))

theorem runs_countExch_arrival (hgroup : q.toRootGroup p.hdr = false) (hmcast : p.hdr.mcast = 0#1)
    (hroot : ep = chipRoot (q.desc (collHandle p.hdr))) (ht : q.arrivalAt ep p.hdr = t) :
    Runs (.countExch ep p) s (t.startLaunches ep) := by
  have hother : ¬ (p.hdr.mcast = 1#1 ∨ ep ≠ chipRoot (q.desc (collHandle p.hdr))) := by simp [hmcast, ← hroot]
  exact runs_countExch hs hq hsound hholds howner hlength ((if_neg (ne_true_of_eq_false hgroup)).trans
    ((if_neg (fun hgo => hother hgo.2.2)).trans ((if_neg (fun hlost => hother hlost.symm)).trans ht)))

end

/-! ## Reservations (06 R168; 07 R182, R193, R194) -/

theorem exec_reserveReq (u : UnitId) (port : Nat) (p : Packet) (s : State) :
    exec (.reserveReq u port p) s = execReserveReq u port p s := rfl
theorem exec_reserveRelease (u : UnitId) (port : Nat) (p : Packet) (s : State) :
    exec (.reserveRelease u port p) s = execReserveRelease u port p s := rfl
theorem exec_reserveGrant (ep : Nat) (p : Packet) (s : State) : exec (.reserveGrant ep p) s = execReserveGrant ep p s := rfl
theorem exec_reserveRefuse (ep : Nat) (p : Packet) (s : State) : exec (.reserveRefuse ep p) s = execReserveRefuse ep p s := rfl

theorem State.reserve_granted {s : State} {u : UnitId} {p : Packet} (h : s.grants u p.hdr = true) :
    s.reserve u p =
      ((s.bump 0x200101 (instOf u) 0 0 0 32 1).onSw u (fun w => { w with resvs := w.resvs ++
        [{ handle := collHandle p.hdr, part := p.hdr.part.toNat, entries := p.hdr.aux.toNat % 2 ^ 16, cross := localOf p.hdr.dst == 2051
           form := collForm p.hdr }] })).makeAt u { answerHeader 0x24 2 p.hdr p.hdr.dst p.hdr.aux 0 with coll := p.hdr.coll } [] := by
  simp only [State.reserve, h, if_true]
  rfl

theorem State.reserve_refused {s : State} {u : UnitId} {p : Packet} (h : s.grants u p.hdr = false) :
    s.reserve u p = (s.bump 0x200101 (instOf u) 0 0 32 32 1).makeAt u
      { answerHeader 0x25 2 p.hdr p.hdr.dst p.hdr.aux 0 with coll := p.hdr.coll } [] := by
  simp only [State.reserve, h, Bool.false_eq_true, if_false]
  rfl

theorem runs_reserveReq {s t : State} {u : UnitId} (port : Nat) {p : Packet} (hs : s.live) (hu : isSwitch u = true)
    (hsound : (s.quiet.takeRx u p).sound u p) (ht : (s.quiet.takeRx u p).reserve u p = t) : Runs (.reserveReq u port p) s t := by
  refine runs_up hs (exec_reserveReq u port p s) ((State.receive_sound _ _ _ _ _ hsound).trans ?_)
  cases u with
  | stair n | gallery n | hall n => exact ht
  | landing n | pavilion n | special n | chip => cases hu

theorem runs_reserveRelease {s : State} {u : UnitId} (port : Nat) {p : Packet} (hs : s.live) (hu : isSwitch u = true)
    (hsound : (s.quiet.takeRx u p).sound u p) : Runs (.reserveRelease u port p) s ((s.quiet.takeRx u p).release_ u p.hdr) :=
  runs_up hs (exec_reserveRelease u port p s) ((State.receive_sound _ _ _ _ _ hsound).trans (if_pos hu))

/-- A landing whose launch of a handle no longer awaits the answer to one of its requests. -/
def Tile.requestAnswered (t : Tile) (k : Nat) (seq : BitVec 32) : Tile :=
  match t.launches.find k with
  | some y => { t with launches := t.launches.put k { y with asked := y.asked.filter (fun n => n != seq) } }
  | none => t

/-- An answer to a launch's own request, a grant or a refusal. -/
theorem State.reserveAnswer_launch {s : State} {ep x : Nat} {p : Packet} {o : Outst} (hopen : s.openPacket ep p.hdr = some (x, o))
    (hrequest : o.hdr.command = 0x23#8) (granted : Bool) :
    s.reserveAnswer ep p granted =
      ((s.onEntry ep x (fun en => { en with outst := en.outst.filter (fun y => y.hdr.seq != o.hdr.seq) })).onTile ep (fun t =>
        t.requestAnswered (collHandle p.hdr) (p.hdr.seq.setWidth 32))).sendArrival (collHandle p.hdr) ep := by
  simp only [State.reserveAnswer, hopen, hrequest, if_true]
  rfl

/-- An answer to a standing request across chips. -/
theorem State.reserveAnswer_standing {s : State} {ep : Nat} {p : Packet} (hopen : s.openPacket ep p.hdr = none)
    (hroot : s.isSpanRoot (collHandle p.hdr) ep = true)
    (hasked : (s.coll (collHandle p.hdr)).asked.any (fun a => a.1 == p.hdr.plane.toNat) = true) (granted : Bool) :
    s.reserveAnswer ep p granted = s.hallAnswered (collHandle p.hdr) p.hdr.plane.toNat granted := by
  simp only [State.reserveAnswer, hopen]
  exact if_pos ⟨hroot, hasked⟩

section
variable {s t : State} {ep : Nat} {p : Packet} (hs : s.live) (hsound : (s.quiet.takeRx (epUnit ep) p).sound (epUnit ep) p)
include hs hsound

theorem runs_reserveGrant (ht : (s.quiet.takeRx (epUnit ep) p).reserveAnswer ep p true = t) : Runs (.reserveGrant ep p) s t :=
  runs_up hs (exec_reserveGrant ep p s) ((State.receive_sound _ _ _ _ _ hsound).trans ht)

theorem runs_reserveRefuse (ht : (s.quiet.takeRx (epUnit ep) p).reserveAnswer ep p false = t) : Runs (.reserveRefuse ep p) s t :=
  runs_up hs (exec_reserveRefuse ep p s) ((State.receive_sound _ _ _ _ _ hsound).trans ht)

end

/-! ## The timer of a stair's record (07 R202) -/

theorem exec_mcastReportTimer (n r : Nat) (s : State) : exec (.mcastReportTimer n r) s = execMcastReportTimer n r s := rfl

theorem runs_mcastReportTimer {s : State} {n r : Nat} {x : ReportRec} (hs : s.live) (hfind : (s.sw (.stair n)).reports.find r = some x)
    (hdue : x.expires ≤ s.now (.stair n)) : Runs (.mcastReportTimer n r) s (s.quiet.sendReport n r x) := by
  have hfind' : (s.quiet.sw (.stair n)).reports.find r = some x := hfind
  have hdue' : x.expires ≤ s.quiet.now (.stair n) := hdue
  refine runs_when hs (exec_mcastReportTimer n r s) ?_ ?_
  · simpa only [State.reportDue, hfind', decide_eq_true_eq] using hdue'
  · simp only [hfind']

end Sys2Proof.Machine
end

section
/-!
# PROOFS. The packets of a collective, settled
-/
namespace Sys2Proof.Machine

/-- Settles O42: past the checks of its unit each packet is one case of its command. -/
theorem collectivePackets : Obligations.CollectivePackets := by
  intro s p hs h k
  refine ⟨?atSwitch, ?atRoot, ?atMember, ?atHall, ?counts, ?requests, ?answers, ?standing, ?timer⟩
  case atSwitch =>
    intro u port hu q hsound hforces hended hmcast
    have hrun {t : State} (ht : q.combine u port p 0 = t) : Runs (.reduceContrib u port p 0) s t :=
      runs_reduceContrib_switch port hs hu hsound hforces ht
    refine ⟨fun hsuits hmaker hdie => ?_, fun hsuits hmaker => ?_, fun hsuits => ?_⟩
    · exact hrun ((State.combine_switch port hended hu hsuits hmcast).trans (State.takeContrib_onDie hmaker hdie))
    · exact hrun ((State.combine_switch port hended hu hsuits hmcast).trans (State.takeContrib_crossChip hmaker))
    · exact hrun ((State.combine_unsuited port hended hsuits).trans (q.mismatch_switch hu p))
  case atRoot =>
    intro ep port hep q a hsound hforces hended hsuits hretained
    have hroot := State.combine_root port hended hsuits hretained
    refine ⟨fun hmcast hmaker hdie => ?_, fun hmcast => ?_⟩
    · have hsingle : p.hdr.mcast ≠ 1#1 := by simp [show p.hdr.mcast = 0#1 from hmcast]
      exact runs_reduceContrib_landing port hs hep hsound hforces
        (hroot.trans ((if_neg hsingle).trans (State.takeContrib_onDie hmaker (hdie.imp_right .inl))))
    · exact runs_reduceContrib_landing port hs hep hsound hforces (hroot.trans (if_pos hmcast))
  case atMember =>
    intro ep port b hep q d hsound hbank hholds howner hended hgathered hmember hscrub hmiss
    have hresult := State.reduceResult_member port rfl hbank hholds howner hended rfl hep hsound hgathered hmember hscrub hmiss
    exact runs_up hs (exec_reduceResult_landing ep port p s) (by rw [hresult])
  case atHall =>
    intro n port b q hsound hbank hholds howner hended hgathered
    exact runs_up hs (exec_reduceResult_hall n port p s)
      (State.reduceResult_gathered port rfl hbank hholds howner hended rfl hsound hgathered)
  case counts =>
    intro ep q d hsound hholds howner hlength
    refine ⟨fun f hgroup hmcast hroot hf => ?_, fun hgroup hchip hroot hmember => ?_,
      fun f hgroup hf => ⟨fun hep => ?_, fun hep hlacks => ?_⟩⟩
    · exact runs_countExch_arrival hs rfl hsound hholds howner hlength hgroup hmcast hroot (State.arrivalAt_new hf)
    · exact runs_countExch_go hs rfl hsound hholds howner hlength hgroup hchip hroot hmember
    · rw [State.desc_of_filter hf] at hep
      exact runs_countExch_rootGroup hs rfl hsound hholds howner hlength hgroup (State.rootCount_elsewhere hf hep)
    · rw [State.desc_of_filter hf] at hep hlacks
      exact runs_countExch_rootGroup hs rfl hsound hholds howner hlength hgroup (State.rootCount_noted hf hep hlacks)
  case requests =>
    intro u port hu q hsound n
    exact ⟨fun hgrant => runs_reserveReq port hs hu hsound (State.reserve_granted hgrant),
      fun hrefuse => runs_reserveReq port hs hu hsound (State.reserve_refused hrefuse), runs_reserveRelease port hs hu hsound⟩
  case answers =>
    intro ep x o c hc q hsound hopen hrequest
    have hanswer := State.reserveAnswer_launch hopen hrequest
    simp only [List.mem_cons, List.not_mem_nil, or_false] at hc
    rcases hc with rfl | rfl
    · exact runs_reserveGrant hs hsound (hanswer true)
    · exact runs_reserveRefuse hs hsound (hanswer false)
  case standing =>
    intro ep q hsound hopen hroot hasked
    have hanswer := State.reserveAnswer_standing hopen hroot hasked
    exact ⟨runs_reserveGrant hs hsound (hanswer true), runs_reserveRefuse hs hsound (hanswer false)⟩
  case timer =>
    intro n r x hfind hdue mask
    exact runs_mcastReportTimer hs hfind hdue

end Sys2Proof.Machine
end

section
/-!
# PROOFS. 07, the form across chips, settled

The command acts on one collective while that collective spans chips, reduces, and waits for no hall.
-/
namespace Sys2Proof.Machine

theorem exec_settleCrossChipForm (h : Nat) (o : Bool) (s : State) :
    exec (.settleCrossChipForm h o) s = execSettleCrossChipForm h o s := rfl

/-- The collectives after a change of one: it alone is written. -/
theorem State.onColl_eq_put (s : State) (h : Nat) (f : Coll → Coll) :
    s.onColl h f = { s with colls := s.colls.put h (f (s.coll h)) } := rfl

/-- Past its guard the settling writes the form of that collective (07 R193). -/
theorem runs_settleCrossChipForm {s : State} {h : Nat} (o : Bool) (hs : s.live) (hholds : s.holdsDesc h = true)
    (hspan : 1 < chipCount (s.desc h)) (hop : dOp (s.desc h) = 0) (hasked : (s.coll h).asked = []) :
    Runs (.settleCrossChipForm h o) s
      (s.quiet.onColl h (fun c => { c with settled := if c.fellBack || o then 1 else 0 })) := by
  have hguard : (s.holdsDesc h && 1 < chipCount (s.desc h) && dOp (s.desc h) == 0 && (s.coll h).asked.isEmpty) = true := by
    simp only [hholds, hspan, hop, hasked, decide_true, beq_self_eq_true, List.isEmpty_nil, Bool.and_self]
  exact runs_when hs (exec_settleCrossChipForm h o s) hguard rfl

/-- Settles O43: the guard holds once no hall is awaited, and a write to one collective keeps the queue, the build and the reset pin. -/
theorem crossChipForm : Obligations.CrossChipForm := by
  intro s h o hs hholds hspan hop hasked
  have hexec := (runs_settleCrossChipForm o hs hholds hspan hop hasked).exec_eq rfl rfl rfl
  rwa [State.onColl_eq_put] at hexec

end Sys2Proof.Machine
end

section
/-!
# PROOFS. 08, pavilions: what faults, events and the ends of descriptors leave alone

A fault, an event, a trace record and the end of a descriptor write sources, rings, endpoints, tiles and counters, and nothing that a
link or the machine of chips goes by. One projection says which part of the state that is; one lemma for each operation says that it
stays.
-/
namespace Sys2Proof.Machine

/-- What the links of a chip go by: the clocks, the partitions, the pavilions, and the chip's place in the machine. -/
def State.linkPart (s : State) : FMap Time × FMap Partition × FMap Pavilion × Place := (s.clocks, s.parts, s.pavs, s.mach)

section
variable {s t : State} (h : t.linkPart = s.linkPart)
include h

theorem State.time_of_linkPart : t.time = s.time := congrArg (fun x => (x.1.get 0 k0.code).toNat) h
theorem State.parts_of_linkPart : t.parts = s.parts := congrArg (·.2.1) h
theorem State.pav_of_linkPart (k : Nat) : t.pav k = s.pav k := congrArg (·.2.2.1.get {} k) h
theorem State.mach_of_linkPart : t.mach = s.mach := congrArg (·.2.2.2) h
end

/-! ## Single writes -/

@[simp] theorem State.onEp_linkPart (s : State) (e : Nat) (f : Endpoint → Endpoint) : (s.onEp e f).linkPart = s.linkPart := rfl
@[simp] theorem State.onTile_linkPart (s : State) (l : Nat) (f : Tile → Tile) : (s.onTile l f).linkPart = s.linkPart := rfl
@[simp] theorem State.onColl_linkPart (s : State) (h : Nat) (f : Coll → Coll) : (s.onColl h f).linkPart = s.linkPart := rfl
@[simp] theorem State.emit_linkPart (s : State) (o : Output) : (s.emit o).linkPart = s.linkPart := rfl
@[simp] theorem State.setSem_linkPart (s : State) (l : Nat) (k : BitVec 8) (v : BitVec 32) : (s.setSem l k v).linkPart = s.linkPart := rfl
@[simp] theorem State.setWord_linkPart (s : State) (id inst row word v : Nat) : (s.setWord id inst row word v).linkPart = s.linkPart := rfl

@[simp] theorem State.bump_linkPart (s : State) (id inst row word lo w n : Nat) :
    (s.bump id inst row word lo w n).linkPart = s.linkPart := by
  simp only [State.bump]
  split <;> rfl

/-! ## Faults, counters, trace records and events -/

@[simp] theorem State.raise_linkPart (s : State) (u : UnitId) (sub kind part ctx : Nat) :
    (s.raise u sub kind part ctx).linkPart = s.linkPart := by
  simp only [State.raise, State.raiseFor]
  split <;> rfl

@[simp] theorem State.raise_dict (s : State) (u : UnitId) (sub kind part ctx : Nat) : (s.raise u sub kind part ctx).dict = s.dict := by
  simp only [State.raise, State.raiseFor]
  split <;> rfl

@[simp] theorem State.event_linkPart (s : State) (u : UnitId) (port ev part vc reason n : Nat) :
    (s.event u port ev part vc reason n).linkPart = s.linkPart := by
  simp only [State.event]
  split
  · split <;> rfl
  · rfl

@[simp] theorem State.traceDrop_linkPart (s : State) (u : UnitId) (port cause : Nat) (h : Header) :
    (s.traceDrop u port cause h).linkPart = s.linkPart := by
  simp only [State.traceDrop, State.trace]
  split <;> rfl

@[simp] theorem State.malformed_linkPart (s : State) (u : UnitId) (port : Nat) (h : Header) :
    (s.malformed u port h).linkPart = s.linkPart := by
  simp only [State.malformed, State.raise_linkPart, State.traceDrop_linkPart, State.event_linkPart]

@[simp] theorem State.ringPut_linkPart (s : State) (set r bytes v : Nat) : (s.ringPut set r bytes v).linkPart = s.linkPart := rfl

@[simp] theorem State.withLodge_linkPart (s : State) (x : Lodge) : ({ s with lodge := x } : State).linkPart = s.linkPart := rfl

@[simp] theorem State.eventPut_linkPart (s : State) (set code data : Nat) : (s.eventPut set code data).linkPart = s.linkPart := by
  rw [State.eventPut, State.withLodge_linkPart, State.ringPut_linkPart]

@[simp] theorem State.eventLost_linkPart (s : State) (set : Nat) : (s.eventLost set).linkPart = s.linkPart := by
  rw [State.eventLost, State.withLodge_linkPart, State.bump_linkPart]

@[simp] theorem State.postTo_linkPart (s : State) (set code data : Nat) : (s.postTo set code data).linkPart = s.linkPart := by
  simp only [State.postTo]
  split; · rfl
  split; · rw [State.eventLost_linkPart]
  split; · rw [State.eventPut_linkPart]
  split
  · rw [State.eventLost_linkPart, State.withLodge_linkPart, State.eventPut_linkPart]
  · rw [State.eventPut_linkPart, State.withLodge_linkPart, State.eventPut_linkPart]

@[simp] theorem State.post_linkPart (s : State) (code : Nat) (part : Option Nat) (data : Nat) :
    (s.post code part data).linkPart = s.linkPart := by
  cases part with
  | none => exact s.postTo_linkPart 0 code data
  | some p =>
    refine (foldl_keeps State.linkPart _ (fun t i => ?_) _ _).trans (s.postTo_linkPart 0 code data)
    split
    · exact t.postTo_linkPart i code data
    · rfl

/-! ## The packets and records of an endpoint -/

@[simp] theorem State.readServed_linkPart (s : State) (e : Nat) (h : Header) : (s.readServed e h).linkPart = s.linkPart := by
  simp only [State.readServed]
  split
  · split <;> rfl
  · rfl

@[simp] theorem State.queueTx_linkPart (s : State) (e : Nat) (kind : TxKind) (h : Header) (data : List Payload) (entry : Nat) :
    (s.queueTx e kind h data entry).linkPart = s.linkPart := by
  simp only [State.queueTx]
  split
  · rw [State.malformed_linkPart, State.readServed_linkPart]
  · rfl

@[simp] theorem State.tpOut_linkPart (s : State) (l : Nat) (o : Output) : (s.tpOut l o).linkPart = s.linkPart := by
  simp only [State.tpOut]
  split <;> rfl

@[simp] theorem State.record_linkPart (s : State) (l client : Nat) (tag : BitVec 6) (status entry bytes : Nat) :
    (s.record l client tag status entry bytes).linkPart = s.linkPart := by
  simp only [State.record]
  split; · rfl
  split
  · exact s.bump_linkPart _ _ _ _ _ _ _
  · exact s.tpOut_linkPart _ _

@[simp] theorem State.semBump_linkPart (s : State) (l : Nat) (k : BitVec 8) : (s.semBump l k).linkPart = s.linkPart := rfl

@[simp] theorem State.refuseDesc_linkPart (s : State) (e client : Nat) (d : Desc) (status : Nat) :
    (s.refuseDesc e client d status).linkPart = s.linkPart := by
  simp only [State.refuseDesc]
  split <;> simp only [State.semBump_linkPart, State.record_linkPart]

@[simp] theorem State.openWin_linkPart (s : State) (l k : Nat) (w : Window) : (s.openWin l k w).linkPart = s.linkPart :=
  State.tpOut_linkPart _ _ _

@[simp] theorem State.closeWin_linkPart (s : State) (l k status : Nat) : (s.closeWin l k status).linkPart = s.linkPart := by
  simp only [State.closeWin]
  split; · rfl
  split; · exact State.tpOut_linkPart _ _ _
  split <;> simp only [State.semBump_linkPart, State.record_linkPart, State.tpOut_linkPart, State.onTile_linkPart]

@[simp] theorem State.startRead_linkPart (s : State) (e : Nat) (j : ReadJob) : (s.startRead e j).linkPart = s.linkPart := by
  simp only [State.startRead]
  split
  · simp only [State.hostRequest]
    split <;> rfl
  · exact foldl_keeps State.linkPart _ (fun t r => t.emit_linkPart _) _ _

@[simp] theorem State.sendNext_linkPart (s : State) (e k : Nat) : (s.sendNext e k).linkPart = s.linkPart := by
  simp only [State.sendNext]
  split; · rfl
  split; · rfl
  split
  · exact State.queueTx_linkPart _ _ _ _ _ _
  · exact State.startRead_linkPart _ _ _

@[simp] theorem State.pump_linkPart (s : State) (e k : Nat) : (s.pump e k).linkPart = s.linkPart :=
  foldl_keeps State.linkPart _ (fun t _ => t.sendNext_linkPart e k) _ _

/-! ## The end of a descriptor, and what it sets going (05 R124, R127, R135) -/

@[simp] theorem State.localAct_linkPart (s : State) (e client op : Nat) (d : Desc) (order : Nat) :
    (s.localAct e client op d order).linkPart = s.linkPart := by
  simp only [State.localAct]
  split
  case h_1 => split <;> simp only [State.refuseDesc_linkPart, State.openWin_linkPart]
  case h_2 =>
    split
    · exact State.refuseDesc_linkPart _ _ _ _ _
    · split <;> simp only [State.refuseDesc_linkPart, State.closeWin_linkPart]
  case h_3 | h_4 => simp only [State.refuseDesc_linkPart, State.onTile_linkPart, State.setWord_linkPart]

@[simp] theorem State.runLocals_linkPart (s : State) (e n : Nat) : (s.runLocals e n).linkPart = s.linkPart := by
  induction n generalizing s with
  | zero => rfl
  | succ n ih =>
    simp only [State.runLocals]
    split
    · rw [ih, State.localAct_linkPart, State.onTile_linkPart]
    · rfl

@[simp] theorem State.startWaiting_linkPart (s : State) (e : Nat) : (s.startWaiting e).linkPart = s.linkPart := by
  simp only [State.startWaiting]
  split; · rfl
  refine (foldl_keeps State.linkPart _ (fun t kv => ?_) _ _).trans ?_
  · split
    · exact State.pump_linkPart _ _ _
    · rfl
  · split <;> simp only [State.runLocals_linkPart]

theorem State.portFrame.linkPart_eq {s t : State} {l : Nat} (h : s.portFrame t l) : t.linkPart = s.linkPart := by
  rw [h.frame]
  rfl

@[simp] theorem State.settleTile_linkPart (s : State) (e : Nat) : (s.settleTile e).linkPart = s.linkPart := by
  rw [State.settleTile, State.startWaiting_linkPart, (State.portFrame.wakeWaits s e).linkPart_eq]

@[simp] theorem State.memberDone_linkPart (s : State) (h status : Nat) (ran : Bool) : (s.memberDone h status ran).linkPart = s.linkPart := by
  simp only [State.memberDone]
  split <;> split <;> simp only [State.bump_linkPart, State.onColl_linkPart]

@[simp] theorem State.endLaunch_linkPart (s : State) (l k h status : Nat) : (s.endLaunch l k h status).linkPart = s.linkPart := by
  simp only [State.endLaunch]
  split; · rfl
  split; · rfl
  rw [State.onTile_linkPart, State.memberDone_linkPart]
  refine foldl_keeps State.linkPart _ (fun t u => ?_) _ _
  split
  · rfl
  · exact State.queueTx_linkPart _ _ _ _ _ _

@[simp] theorem State.endEntry_linkPart (s : State) (e k status : Nat) : (s.endEntry e k status).linkPart = s.linkPart := by
  simp only [State.endEntry]
  split; · rfl
  simp only [State.settleTile_linkPart, apply_ite State.linkPart, State.endLaunch_linkPart, State.semBump_linkPart,
    State.record_linkPart, State.bump_linkPart, ite_self]
  split
  · simp only [apply_ite State.linkPart, State.closeWin_linkPart, State.onEp_linkPart, ite_self]
  · rfl

@[simp] theorem State.endCollective_linkPart (s : State) (h code : Nat) : (s.endCollective h code).linkPart = s.linkPart := by
  refine (foldl_keeps State.linkPart _ (fun t l => ?_) _ _).trans (s.onColl_linkPart h _)
  split
  · rfl
  · split
    · exact t.endEntry_linkPart _ _ _
    · exact t.queueTx_linkPart _ _ _ _ _

end Sys2Proof.Machine
end

section
/-!
# PROOFS. 08, pavilions: a chip is declared lost once (R238)

The list of lost chips is what makes the second loss nothing; what the first one ends and reports leaves that list alone.
-/
namespace Sys2Proof.Machine

theorem State.takeLost_known {s : State} {c : Nat} (h : c ∈ s.mach.lost) : s.takeLost c = s := if_pos (List.contains_iff_mem.mpr h)

theorem State.declareLost_known {s : State} {c : Nat} (h : c ∈ s.mach.lost) : s.declareLost c = s :=
  if_pos (List.contains_iff_mem.mpr h)

/-- The first loss of a chip adds it to the lost ones. -/
theorem State.takeLost_mach {s : State} {c : Nat} (h : c ∉ s.mach.lost) :
    (s.takeLost c).mach = { s.mach with lost := s.mach.lost ++ [c] } := by
  have hnew : ¬ s.mach.lost.contains c = true := fun hc => h (List.contains_iff_mem.mp hc)
  simp only [State.takeLost, if_neg hnew]
  refine State.mach_of_linkPart (s := { s with mach := { s.mach with lost := s.mach.lost ++ [c] } }) ?_
  rw [State.raise_linkPart, State.post_linkPart, foldl_keeps State.linkPart _ (fun t k => t.endCollective_linkPart k 8),
    State.setWord_linkPart]

/-- Settles O52: both meanings return at once on a known chip, and the first loss appends the chip. -/
theorem lostOnce : Obligations.LostOnce := by
  intro s c
  refine ⟨fun h => ⟨State.takeLost_known h, State.declareLost_known h⟩, ?_⟩
  by_cases h : c ∈ s.mach.lost
  · rwa [State.takeLost_known h]
  · rw [State.takeLost_mach h]
    exact List.mem_append_right _ (List.mem_singleton_self c)

end Sys2Proof.Machine
end

section
/-!
# PROOFS. 08, pavilions: the retrain limit (R226)

A pavilion that leaves UP closes its line, enters its new state and starts the failover of the plans that use it. On a chip without
partitions, for a pavilion that is no parent and knows no peer chip, all of that stays within the pavilion's own line and times.
-/
namespace Sys2Proof.Machine

/-! ## What a pavilion that leaves UP writes -/

/-- Two states agree in the partitions and the machine, and differ among the pavilions at most in the line, the training state and
the times of one. -/
structure State.pavFrame (s t : State) (p : Nat) : Prop where
  parts : t.parts = s.parts
  mach : t.mach = s.mach
  others : ∀ k, k ≠ p → t.pav k = s.pav k
  own : t.pav p = { s.pav p with
    st := (t.pav p).st, since := (t.pav p).since, downSince := (t.pav p).downSince, announce := (t.pav p).announce
    rxOpen := (t.pav p).rxOpen, rxWait := (t.pav p).rxWait, freed := (t.pav p).freed }

namespace State.pavFrame
variable {s t q : State} {p : Nat}

theorem trans (h : s.pavFrame t p) (h' : t.pavFrame q p) : s.pavFrame q p where
  parts := h'.parts.trans h.parts
  mach := h'.mach.trans h.mach
  others k hk := (h'.others k hk).trans (h.others k hk)
  own := by
    refine h'.own.trans ?_
    rw [h.own]

theorem of_linkPart (h : t.linkPart = s.linkPart) (p : Nat) : s.pavFrame t p where
  parts := State.parts_of_linkPart h
  mach := State.mach_of_linkPart h
  others k _ := State.pav_of_linkPart h k
  own := by rw [State.pav_of_linkPart h p]

theorem refl (s : State) (p : Nat) : s.pavFrame s p := of_linkPart rfl p

theorem onPav (s : State) {p : Nat} {f : Pavilion → Pavilion}
    (hf : f (s.pav p) = { s.pav p with
      st := (f (s.pav p)).st, since := (f (s.pav p)).since, downSince := (f (s.pav p)).downSince, announce := (f (s.pav p)).announce
      rxOpen := (f (s.pav p)).rxOpen, rxWait := (f (s.pav p)).rxWait, freed := (f (s.pav p)).freed }) :
    s.pavFrame (s.onPav p f) p where
  parts := rfl
  mach := rfl
  others k hk := s.pav_onPav_other p k f hk
  own := by rw [s.pav_onPav_same p f]; exact hf

theorem queueLine (s : State) (p rel link : Nat) (lane : Lane) (b : Nat) (f : Flit) (h : Header) :
    s.pavFrame (s.queueLine p rel link lane b f h) p := by
  simp only [State.queueLine]
  split
  · refine trans ?_ (of_linkPart ((State.raise_linkPart _ _ _ _ _ _).trans ((State.traceDrop_linkPart _ _ _ _ _).trans
      ((State.event_linkPart _ _ _ _ _ _ _ _).trans (State.event_linkPart _ _ _ _ _ _ _ _)))) p)
    split
    · exact onPav s rfl
    · exact refl s p
  · exact onPav s rfl

theorem foldl {α : Type} {f : State → α → State} (hf : ∀ (s : State) a, s.pavFrame (f s a) p) (l : List α) (s : State) :
    s.pavFrame (l.foldl f s) p := by
  induction l generalizing s with
  | nil => exact refl s p
  | cons a l ih => exact (hf s a).trans (ih _)

theorem closeLine (s : State) (p : Nat) : s.pavFrame (s.closeLine p) p := by
  refine trans (foldl (fun t x => ?_) _ _) (onPav _ rfl)
  split
  · exact refl t p
  · exact queueLine t p _ _ _ _ _ _

theorem enter (s : State) (p : Nat) (st : Train) : s.pavFrame (s.enter p st) p :=
  (onPav s rfl).trans (of_linkPart (State.post_linkPart _ _ _ _) p)

end State.pavFrame

/-- A pavilion that was up closes its line and enters another state, down from now on. -/
def State.lineLeft (s : State) (p : Nat) (st : Train) : State :=
  ((s.closeLine p).onPav p (fun v => { v with downSince := (s.closeLine p).time, announce := none })).enter p st

theorem State.pavFrame.lineLeft (s : State) (p : Nat) (st : Train) : s.pavFrame (s.lineLeft p st) p :=
  ((State.pavFrame.closeLine s p).trans (State.pavFrame.onPav _ rfl)).trans (State.pavFrame.enter _ p st)

/-- A pavilion is in the state that it has entered, and its limits of time run from then. -/
theorem State.pav_enter_same (s : State) (p : Nat) (st : Train) : (s.enter p st).pav p = { s.pav p with st := st, since := s.time } := by
  rw [State.enter, State.pav_of_linkPart (State.post_linkPart _ _ _ _), State.pav_onPav_same]

theorem State.pav_enter_other (s : State) {p k : Nat} (st : Train) (hk : k ≠ p) : (s.enter p st).pav k = s.pav k :=
  (State.pavFrame.enter s p st).others k hk

/-! ## Without partitions -/

section
variable {s : State} (hparts : s.parts = [])
include hparts

/-- No partition runs. -/
theorem State.run_of_no_parts (q : Nat) : (s.part q).run = false := by
  rw [State.part, hparts]
  rfl

/-- No rate group is to change its rate. -/
theorem State.changeRate_no_parts (start : List Nat) (rate : Nat) (failed : Option Nat) : s.changeRate start rate failed = s := by
  have hgroup : s.rateGroup start rate = [] := by
    simp only [State.rateGroup, State.run_of_no_parts hparts, Bool.false_eq_true, List.filter_false, List.any_nil, and_false, if_false,
      List.filter_nil]
  simp only [State.changeRate, hgroup, List.isEmpty_nil, if_true]

/-- A failed link concerns no plan. -/
theorem State.failover_no_parts (p : Nat) : s.failover p = s := by
  simp only [State.failover, State.run_of_no_parts hparts, List.filter_false, List.filter_nil, List.foldl_nil,
    List.flatMap_nil, List.isEmpty_nil, if_true, State.changeRate_no_parts hparts]

end

/-- Without a known peer chip no chip is lost with the link. -/
theorem State.lossByGoingDown_no_peer {s : State} {p : Nat} (h : (s.pav p).peerChip = none) : s.lossByGoingDown p = s := by
  simp only [State.lossByGoingDown, h]

section
variable {s : State} {p : Nat} (hup : s.pavUp p = true) (hparts : s.parts = []) (hpeer : (s.pav p).peerChip = none)
  (hparent : s.mach.parent ≠ some p)
include hup hparts hpeer hparent

/-- On a chip without partitions a pavilion that is no parent and knows no peer chip closes its line and enters its new state. -/
theorem State.leaveUp_alone (st : Train) : s.leaveUp p st = s.lineLeft p st := by
  have hframe := State.pavFrame.lineLeft s p st
  have hchild : (s.lineLeft p st).mach.parent ≠ some p := by rwa [hframe.mach]
  have hnopeer : ((s.lineLeft p st).pav p).peerChip = none := by rwa [hframe.own]
  simp only [State.leaveUp, hup, if_true, Bool.not_true, Bool.false_eq_true, if_false]
  exact (congrArg (fun t : State => (t.failover p).lossByGoingDown p) (if_neg hchild)).trans
    ((congrArg (State.lossByGoingDown · p) (State.failover_no_parts (hframe.parts.trans hparts) p)).trans
      (State.lossByGoingDown_no_peer hnopeer))

end

/-! ## The count of retrains -/

/-- The retrains of a pavilion within the last second. -/
def State.recentRetrains (s : State) (p : Nat) : List Nat := (s.pav p).retrains.filter (fun t => decide (s.time < t + 2000000000))

/-- A retrain counted and reported. -/
def State.retrainReported (s : State) (p : Nat) : State :=
  (s.bump 0x281203 (pavInst p) 0 0 0 16 1).raise (.pavilion p) 9 0x061 1023 (ctxLink p 1)

/-- A retrain noted among those of its pavilion. -/
def State.retrainNoted (s : State) (p reason : Nat) : State :=
  (s.retrainReported p).onPav p (fun v => { v with
    retrains := (s.retrainReported p).recentRetrains p ++ [(s.retrainReported p).time], reason := reason, badFrames := 0 })

theorem State.retrainReported_linkPart (s : State) (p : Nat) : (s.retrainReported p).linkPart = s.linkPart := by
  rw [State.retrainReported, State.raise_linkPart, State.bump_linkPart]

theorem State.recentRetrains_retrainReported (s : State) (p : Nat) : (s.retrainReported p).recentRetrains p = s.recentRetrains p := by
  have h := s.retrainReported_linkPart p
  simp only [State.recentRetrains, State.pav_of_linkPart h, State.time_of_linkPart h]

section
variable (s : State) (p reason : Nat)

@[simp] theorem State.pav_retrainNoted_same : (s.retrainNoted p reason).pav p =
    { s.pav p with
      retrains := (s.retrainReported p).recentRetrains p ++ [(s.retrainReported p).time], reason := reason, badFrames := 0 } := by
  rw [State.retrainNoted, State.pav_onPav_same, State.pav_of_linkPart (s.retrainReported_linkPart p)]

theorem State.pav_retrainNoted_other {k : Nat} (hk : k ≠ p) : (s.retrainNoted p reason).pav k = s.pav k := by
  rw [State.retrainNoted, State.pav_onPav_other _ _ _ _ hk, State.pav_of_linkPart (s.retrainReported_linkPart p)]

@[simp] theorem State.retrainNoted_parts : (s.retrainNoted p reason).parts = s.parts := by
  rw [State.retrainNoted, State.onPav_parts, State.parts_of_linkPart (s.retrainReported_linkPart p)]

@[simp] theorem State.retrainNoted_mach : (s.retrainNoted p reason).mach = s.mach := by
  rw [State.retrainNoted, State.onPav_mach, State.mach_of_linkPart (s.retrainReported_linkPart p)]

@[simp] theorem State.pavUp_retrainNoted : (s.retrainNoted p reason).pavUp p = s.pavUp p := by
  rw [State.pavUp, State.pav_retrainNoted_same, State.pavUp]

/-- The count of a pavilion's retrains is not the limit. -/
@[simp] theorem State.val_retrainNoted : (s.retrainNoted p reason).val 0x280104 = s.val 0x280104 := by
  have hkey : dkey 0x280104 0 0 0 ≠ dkey 0x281203 (pavInst p) 0 0 := by
    simp only [dkey]
    omega
  refine Eq.trans ?_ (s.word_bump_other (lo := 0) (w := 16) (n := 1) hkey)
  simp only [State.val, State.word, State.retrainNoted, State.retrainReported, State.onPav_dict, State.raise_dict]

/-- Past the limit a retrain ends in FAILED with the transmitter idle. -/
theorem State.retrain_past_limit (hlimit : s.val 0x280104 < (s.recentRetrains p).length + 1) : s.retrain p true reason =
    ((s.retrainNoted p reason).onPav p (fun v => { v with reason := 6, txIdle := true, retrainCells := 0 })).leaveUp p .failed := by
  have hpast : (s.retrainNoted p reason).val 0x280104 <
      ((s.retrainReported p).recentRetrains p ++ [(s.retrainReported p).time]).length := by
    rwa [State.val_retrainNoted, List.length_append, List.length_singleton, State.recentRetrains_retrainReported]
  exact if_pos ⟨rfl, hpast⟩

/-- Within the limit a pavilion that is up goes on to LANE_SYNC, and its peer is told in 8 cells. -/
theorem State.retrain_within_limit (hup : s.pavUp p = true) (hlimit : (s.recentRetrains p).length + 1 ≤ s.val 0x280104) :
    s.retrain p true reason = ((s.retrainNoted p reason).onPav p (fun v => { v with retrainCells := 8 })).leaveUp p .laneSync := by
  have hwithin : ¬ (s.retrainNoted p reason).val 0x280104 <
      ((s.retrainReported p).recentRetrains p ++ [(s.retrainReported p).time]).length := by
    rw [State.val_retrainNoted, List.length_append, List.length_singleton, State.recentRetrains_retrainReported]
    omega
  have hcells : (if (s.retrainNoted p reason).pavUp p then 8 else 0) = 8 := if_pos (by rwa [State.pavUp_retrainNoted])
  rw [← hcells]
  exact if_neg (fun h => hwithin h.2)

end

section
variable {s : State} {p : Nat} (hup : s.pavUp p = true) (hparts : s.parts = []) (hpeer : (s.pav p).peerChip = none)
  (hparent : s.mach.parent ≠ some p)
include hup hparts hpeer hparent

/-- A pavilion whose retrain has been noted leaves UP: it enters its new state, keeps what else the retrain has written to it, and no
other changes. -/
theorem State.leaveUp_retrainNoted (reason : Nat) (f : Pavilion → Pavilion) (st : Train)
    (hst : ∀ v, (f v).st = v.st) (hchip : ∀ v, (f v).peerChip = v.peerChip) :
    ((s.retrainNoted p reason).onPav p f).pavFrame (((s.retrainNoted p reason).onPav p f).leaveUp p st) p ∧
      ((((s.retrainNoted p reason).onPav p f).leaveUp p st).pav p).st = st ∧
      ∀ k, k ≠ p → (((s.retrainNoted p reason).onPav p f).leaveUp p st).pav k = s.pav k := by
  have hup' : ((s.retrainNoted p reason).onPav p f).pavUp p = true := by
    simpa only [State.pavUp, State.pav_onPav_same, hst, State.pav_retrainNoted_same] using hup
  have hpeer' : (((s.retrainNoted p reason).onPav p f).pav p).peerChip = none := by
    simpa only [State.pav_onPav_same, hchip, State.pav_retrainNoted_same] using hpeer
  have hparts' : ((s.retrainNoted p reason).onPav p f).parts = [] := by rwa [State.onPav_parts, State.retrainNoted_parts]
  have hparent' : ((s.retrainNoted p reason).onPav p f).mach.parent ≠ some p := by rwa [State.onPav_mach, State.retrainNoted_mach]
  rw [State.leaveUp_alone hup' hparts' hpeer' hparent']
  have hframe := State.pavFrame.lineLeft ((s.retrainNoted p reason).onPav p f) p st
  refine ⟨hframe, ?_, fun k hk => ?_⟩
  · rw [State.lineLeft, State.pav_enter_same]
  · rw [hframe.others k hk, State.pav_onPav_other _ _ _ _ hk, State.pav_retrainNoted_other _ _ _ hk]

end

/-- Settles O50: the limit decides between two writes to the pavilion, and leaving UP keeps what they wrote. -/
theorem retrainLimit : Obligations.RetrainLimit := by
  intro s p reason hup hparts hpeer hparent
  have hleave := State.leaveUp_retrainNoted hup hparts hpeer hparent reason
  rcases Nat.lt_or_ge (s.val 0x280104) ((s.recentRetrains p).length + 1) with hlimit | hlimit
  · obtain ⟨hframe, hst, hothers⟩ :=
      hleave (fun v => { v with reason := 6, txIdle := true, retrainCells := 0 }) .failed (fun _ => rfl) (fun _ => rfl)
    rw [← State.retrain_past_limit s p reason hlimit] at hframe hst hothers
    refine ⟨fun _ => ⟨hst, ?_, ?_⟩, fun h => absurd h (Nat.not_le.mpr hlimit), hothers⟩
    · rw [hframe.own, State.pav_onPav_same]
    · rw [hframe.own, State.pav_onPav_same]
  · obtain ⟨hframe, hst, hothers⟩ := hleave (fun v => { v with retrainCells := 8 }) .laneSync (fun _ => rfl) (fun _ => rfl)
    rw [← State.retrain_within_limit s p reason hup hlimit] at hframe hst hothers
    refine ⟨fun h => absurd h (Nat.not_lt.mpr hlimit), fun _ => ⟨hst, ?_, ?_⟩, hothers⟩
    · rw [hframe.own, State.pav_onPav_same, State.pav_retrainNoted_same]
    · rw [hframe.own, State.pav_onPav_same]

end Sys2Proof.Machine
end

section
/-!
# PROOFS. 08, pavilions: the training of a link (R225 to R229)

Each clause is one command whose guard holds; the lemmas below say what the bodies do that have cases, a beacon round and the entry of
EXCHANGE.
-/
namespace Sys2Proof.Machine

theorem exec_laneSyncAchieved (p : Nat) (s : State) : exec (.laneSyncAchieved p) s = execLaneSyncAchieved p s := rfl
theorem exec_rxrdyFall (p lane : Nat) (s : State) : exec (.rxrdyFall p lane) s = execRxrdyFall p lane s := rfl
theorem exec_fecLimitExceeded (p : Nat) (s : State) : exec (.fecLimitExceeded p) s = execFecLimitExceeded p s := rfl
theorem exec_syncLoss (p : Nat) (s : State) : exec (.syncLoss p) s = execSyncLoss p s := rfl
theorem exec_trainingTimeout (p : Nat) (s : State) : exec (.trainingTimeout p) s = execTrainingTimeout p s := rfl
theorem exec_beaconRound (p : Nat) (tx : BitVec 70) (s : State) : exec (.beaconRound p tx) s = execBeaconRound p tx s := rfl
theorem exec_measureComplete (p : Nat) (s : State) : exec (.measureComplete p) s = execMeasureComplete p s := rfl

/-! ## Lane synchronisation (R225) -/

/-- A pavilion whose lanes have just synchronised: its line and its queues are empty, and the asymmetry in force is taken. -/
def Pavilion.synced (v : Pavilion) (a : Int) : Pavilion :=
  { v with alpha := a, retrainCells := 0, txIdle := false, rxHalf := none, txHalf := none, longQ := [], shortQ := [], rxOpen := []
           rxWait := [], alarm := false, badFrames := 0, txFirst := none, rxSecond := false, badWords := [] }

/-- A chip without a number takes the one that it is to ask for (R227). -/
def State.takeNumber (s : State) : State :=
  if s.mach.chipNo.isNone ∧ s.val 0x280001 < 1024 then { s with mach := { s.mach with chipNo := some (s.val 0x280001) } } else s

@[simp] theorem State.takeNumber_pav (s : State) (k : Nat) : s.takeNumber.pav k = s.pav k := by
  simp only [State.takeNumber]
  split <;> rfl

@[simp] theorem State.takeNumber_time (s : State) : s.takeNumber.time = s.time := by
  simp only [State.takeNumber]
  split <;> rfl

theorem runs_laneSyncAchieved {s : State} {p : Nat} (hs : s.live) (hst : (s.pav p).st = .laneSync) :
    Runs (.laneSyncAchieved p) s ((s.quiet.onPav p (fun v =>
      v.synced (BitVec.ofNat 16 (s.word 0x281005 (pavInst p) 0 0)).toInt)).takeNumber.enter p .exchange) :=
  runs_when hs (exec_laneSyncAchieved p s) (beq_iff_eq.mpr hst) rfl

/-- A pavilion whose lanes have synchronised enters EXCHANGE; no other changes. -/
theorem laneSyncAchieved_enters {s : State} {p : Nat} (hs : s.live) (hst : (s.pav p).st = .laneSync) :
    ∃ t, exec (.laneSyncAchieved p) s = .next t ∧ (t.pav p).st = .exchange ∧ (t.pav p).since = s.time ∧ (t.pav p).retrainCells = 0 ∧
      (t.pav p).badFrames = 0 ∧ ∀ k, k ≠ p → t.pav k = s.pav k := by
  refine ⟨_, runs_laneSyncAchieved hs hst, ?_⟩
  have hpav : ∀ q k, (s.framed q).pav k = q.pav k := fun _ _ => rfl
  simp only [hpav, State.pav_enter_same, State.takeNumber_pav, State.takeNumber_time, State.pav_onPav_same]
  refine ⟨trivial, rfl, rfl, rfl, fun k hk => ?_⟩
  rw [State.pav_enter_other _ _ hk, State.takeNumber_pav, State.pav_onPav_other _ _ _ _ hk]
  rfl

/-! ## Leaving UP, and the limits of time (R225, R226) -/

theorem runs_retrain_of_up {s : State} {p : Nat} (hs : s.live) (hup : s.pavUp p = true) :
    (∀ lane, Runs (.rxrdyFall p lane) s (s.quiet.retrain p true 0)) ∧
      (s.val 0x280103 < (s.pav p).badWords.length → Runs (.fecLimitExceeded p) s (s.quiet.retrain p true 0)) ∧
      (8 ≤ (s.pav p).badFrames → Runs (.syncLoss p) s (s.quiet.retrain p true 0)) := by
  refine ⟨fun lane => runs_when hs (exec_rxrdyFall p lane s) hup rfl, fun hwords => ?_, fun hframes => ?_⟩
  · exact runs_when hs (exec_fecLimitExceeded p s) (Bool.and_eq_true_iff.mpr ⟨hup, decide_eq_true hwords⟩) rfl
  · have hfour : 4 ≤ (s.pav p).badFrames / 2 := by omega
    exact runs_when hs (exec_syncLoss p s) (Bool.and_eq_true_iff.mpr ⟨hup, decide_eq_true hfour⟩) rfl

theorem runs_trainingTimeout_laneSync {s : State} {p : Nat} (hs : s.live) (hst : (s.pav p).st = .laneSync)
    (hdue : (s.pav p).since + 20000000 ≤ s.time) : Runs (.trainingTimeout p) s (s.quiet.retrain p false 1) := by
  refine runs_when hs (exec_trainingTimeout p s) ?_ (congrArg (s.quiet.retrain p false) (if_pos hst))
  exact Bool.or_eq_true_iff.mpr (.inl (Bool.and_eq_true_iff.mpr ⟨beq_iff_eq.mpr hst, decide_eq_true hdue⟩))

theorem runs_trainingTimeout_exchange {s : State} {p : Nat} (hs : s.live) (hst : (s.pav p).st = .exchange)
    (hdue : (s.pav p).since + 200000 ≤ s.time) : Runs (.trainingTimeout p) s (s.quiet.retrain p false 0) := by
  have hother : (s.pav p).st ≠ .laneSync := by rw [hst]; exact nofun
  refine runs_when hs (exec_trainingTimeout p s) ?_ (congrArg (s.quiet.retrain p false) (if_neg hother))
  exact Bool.or_eq_true_iff.mpr (.inr (Bool.and_eq_true_iff.mpr ⟨beq_iff_eq.mpr hst, decide_eq_true hdue⟩))

/-! ## Beacon rounds (R229, R231) -/

/-- A message that waits at a pavilion leaves its training state alone. -/
@[simp] theorem State.st_sendLong (s : State) (p type fields k : Nat) : ((s.sendLong p type fields).pav k).st = (s.pav k).st := by
  by_cases hk : k = p
  · subst hk
    rw [State.sendLong, State.pav_onPav_same]
  · rw [State.sendLong, State.pav_onPav_other _ _ _ _ hk]

/-- Which pavilions are linked goes by their training states alone. -/
theorem State.linked_congr {s t : State} (h : ∀ k, (t.pav k).st = (s.pav k).st) : t.linked = s.linked := by
  simp only [State.linked, h]

/-- The fields of a TIME_ANNOUNCE (08 R231). -/
def announceFields (m : Place) : Nat :=
  (match m.grand with | some g => g | none => 0xFFF) % 4096 * 2 ^ 228 + m.grandSeq.toNat * 2 ^ 212 + m.hops % 256 * 2 ^ 204 +
    timeCode m.st * 2 ^ 201

/-- A chip that follows no grand chip announces 0xFFF. -/
theorem announceFields_eq (m : Place) : announceFields m =
    (m.grand.getD 0xFFF) % 4096 * 2 ^ 228 + m.grandSeq.toNat * 2 ^ 212 + m.hops % 256 * 2 ^ 204 + timeCode m.st * 2 ^ 201 := by
  cases hgrand : m.grand <;> simp only [announceFields, hgrand, Option.getD_some, Option.getD_none]

/-- A pavilion that has stamped a round and sent its BEACON, with the stamp of this sending and those of the peer's last. -/
def State.beaconSent (s : State) (p : Nat) (tx : BitVec 70) : State :=
  (s.onPav p (fun v => { v with roundAt := some (s.now (.pavilion p)) })).sendLong p 1
    (tx.toNat * 2 ^ 170 + (s.pav p).peerTx.toNat * 2 ^ 100 + (s.pav p).peerRx.toNat * 2 ^ 30)

/-- The chip's round, which goes by its lowest linked pavilion. -/
def State.chipRound (s : State) (p : Nat) : State :=
  if !decide (s.linked.head? = some p) then s
  else if s.mach.st = .grand then
    { s with mach := { s.mach with
      grandSeq := s.mach.grandSeq + 1, seqSeen := s.mach.seqSeen.put s.chipNo (s.mach.grandSeq + 1) } }
  else { s with mach := { s.mach with staleRounds := s.mach.staleRounds + 1 } }

/-- The announcement behind a BEACON, and the round counted. -/
def State.announceSent (s : State) (p : Nat) : State :=
  (s.sendLong p 2 (announceFields s.mach)).onPav p (fun v => { v with rounds := v.rounds + 1 })

section
variable (s : State) (p : Nat) (tx : BitVec 70)

theorem State.beaconRound_eq : s.beaconRound p tx =
    let b := s.beaconSent p tx
    let a := (b.chipRound p).announceSent p
    if !b.pavUp p then b else if (a.pav p).st = .up ∧ (a.pav p).rounds % 64 = 0 then a.sendTimeBeacon p tx else a := rfl

@[simp] theorem State.st_beaconSent (k : Nat) : ((s.beaconSent p tx).pav k).st = (s.pav k).st := by
  rw [State.beaconSent, State.st_sendLong]
  by_cases hk : k = p
  · subst hk
    rw [State.pav_onPav_same]
  · rw [State.pav_onPav_other _ _ _ _ hk]

/-- A round outside UP and UP_UNMAPPED sends the BEACON alone. -/
theorem State.beaconRound_down (hdown : s.pavUp p = false) : s.beaconRound p tx = s.beaconSent p tx := by
  have hstill : (!(s.beaconSent p tx).pavUp p) = true := by
    simpa only [State.pavUp, State.st_beaconSent, Bool.not_eq_true'] using hdown
  exact (s.beaconRound_eq p tx).trans (if_pos hstill)

/-- Another pavilion than the lowest linked one makes no round of the chip's. -/
theorem State.chipRound_follower (hlead : s.linked.head? ≠ some p) : s.chipRound p = s :=
  if_pos (by rw [decide_eq_false hlead, Bool.not_false])

/-- A round in UP sends the TIME_ANNOUNCE behind the BEACON; the time packet goes every 64 rounds. -/
theorem State.beaconRound_up (hst : (s.pav p).st = .up) (hlead : s.linked.head? ≠ some p) (hrounds : ((s.pav p).rounds + 1) % 64 ≠ 0) :
    s.beaconRound p tx = (s.beaconSent p tx).announceSent p := by
  have hup : ¬ (!(s.beaconSent p tx).pavUp p) = true := by
    simp [State.pavUp, hst]
  have hfollower : (s.beaconSent p tx).chipRound p = s.beaconSent p tx := by
    refine State.chipRound_follower _ p ?_
    rwa [State.linked_congr (s.st_beaconSent p tx)]
  have hcount : (((s.beaconSent p tx).announceSent p).pav p).rounds = (s.pav p).rounds + 1 := by
    simp only [State.announceSent, State.beaconSent, State.sendLong, State.pav_onPav_same]
  rw [State.beaconRound_eq, if_neg hup, hfollower, if_neg]
  rw [hcount]
  exact fun h => hrounds h.2

end

/-- A round is due once its interval has passed since the last: 16 cells in MEASURE, 256 in UP and UP_UNMAPPED. -/
theorem State.roundDue_of_passed {s : State} {p n : Nat} (hn : (if s.pavUp p then 4096 else 256) = n)
    (hst : (s.pav p).st = .measure ∨ s.pavUp p = true) (hdue : (s.pav p).roundAt.all (fun t => t + n ≤ s.now (.pavilion p)) = true) :
    s.roundDue p = true := by
  subst hn
  have hstate : ((s.pav p).st == .measure || s.pavUp p) = true := by simpa using hst
  simp only [State.roundDue, hstate, Bool.true_and]
  cases hround : (s.pav p).roundAt with
  | none => rfl
  | some t =>
    rw [hround] at hdue
    exact decide_eq_true (.inr (of_decide_eq_true hdue))

section
variable {s : State} {p : Nat} (tx : BitVec 70) (hs : s.live)
include hs

theorem runs_beaconRound_measure (hst : (s.pav p).st = .measure) (hdown : s.pavUp p = false)
    (hdue : (s.pav p).roundAt.all (fun t => t + 256 ≤ s.now (.pavilion p)) = true) :
    Runs (.beaconRound p tx) s (s.quiet.beaconSent p tx) := by
  have hn : (if s.pavUp p then 4096 else 256) = 256 := if_neg (by rw [hdown]; exact Bool.false_ne_true)
  exact runs_when hs (exec_beaconRound p tx s) (State.roundDue_of_passed (s := s.quiet) hn (.inl hst) hdue)
    (s.quiet.beaconRound_down p tx hdown)

theorem runs_beaconRound_up (hst : (s.pav p).st = .up) (hlead : s.linked.head? ≠ some p) (hrounds : ((s.pav p).rounds + 1) % 64 ≠ 0)
    (hdue : (s.pav p).roundAt.all (fun t => t + 4096 ≤ s.now (.pavilion p)) = true) :
    Runs (.beaconRound p tx) s ((s.quiet.beaconSent p tx).announceSent p) := by
  have hup : s.pavUp p = true := by simp [State.pavUp, hst]
  exact runs_when hs (exec_beaconRound p tx s) (State.roundDue_of_passed (s := s.quiet) (if_pos hup) (.inr hup) hdue)
    (s.quiet.beaconRound_up p tx hst hlead hrounds)

/-! ## The end of MEASURE (R229, R230) -/

theorem runs_measureComplete (hst : (s.pav p).st = .measure) (hrounds : 16 ≤ (s.pav p).rounds) :
    let q := s.quiet.onPav p (fun v => { v with dRx := (v.dSum + 31) / 32, alarm := false })
    Runs (.measureComplete p) s ((q.sendTimeBeacon p (BitVec.ofNat 70 (s.now (.pavilion p) * 64))).enterCheck p) :=
  runs_when hs (exec_measureComplete p s) (Bool.and_eq_true_iff.mpr ⟨beq_iff_eq.mpr hst, decide_eq_true hrounds⟩) rfl

end

/-- Settles O49: one clause for each command of the training. -/
theorem linkTraining : Obligations.LinkTraining := by
  intro s p hs
  refine ⟨laneSyncAchieved_enters hs, runs_retrain_of_up hs, runs_trainingTimeout_laneSync hs, runs_trainingTimeout_exchange hs,
    fun tx => ⟨runs_beaconRound_measure tx hs, fun hst hlead hrounds hdue => ?_⟩, runs_measureComplete hs⟩
  have hmach : (s.quiet.beaconSent p tx).mach = s.mach := rfl
  have hrun := runs_beaconRound_up tx hs hst hlead hrounds hdue
  rw [State.announceSent, hmach, announceFields_eq] at hrun
  exact hrun

end Sys2Proof.Machine
end

section
/-!
# PROOFS. 09, the object dictionary: sessions, and the messages of a session

A message of an open session is served with the rights of that session. So the lemmas below say once whose rights a request has, and
give the service of each message one equation for each way in which it is taken.
-/
namespace Sys2Proof.Machine

/-! ## The dispatch of the messages -/

theorem exec_dictionaryRead (p : Path) (req : BitVec 8) (k : Nat) (es : List DictEntry) (s : State) :
    exec (.dictionaryRead p req k es) s = execDictionaryRead p req k es s := rfl
theorem exec_readStaged (p : Path) (req : BitVec 8) (k : Nat) (es : List DictEntry) (s : State) :
    exec (.readStaged p req k es) s = execReadStaged p req k es s := rfl
theorem exec_dictionaryWrite (p : Path) (req : BitVec 8) (k : Nat) (es : List DictEntry) (s : State) :
    exec (.dictionaryWrite p req k es) s = execDictionaryWrite p req k es s := rfl
theorem exec_commit (p : Path) (req : BitVec 8) (k : Nat) (b : CommitBody) (s : State) :
    exec (.commit p req k b) s = execCommit p req k b s := rfl
theorem exec_discard (p : Path) (req : BitVec 8) (k : Nat) (s : State) : exec (.discard p req k) s = execDiscard p req k s := rfl
theorem exec_sessionOpen (p : Path) (req : BitVec 8) (k : Nat) (right part : BitVec 16) (s : State) :
    exec (.sessionOpen p req k right part) s = execSessionOpen p req k right part s := rfl
theorem exec_sessionClose (p : Path) (req : BitVec 8) (k : Nat) (s : State) :
    exec (.sessionClose p req k) s = execSessionClose p req k s := rfl

/-- How a message of a path that K0 hears runs. -/
theorem runs_path {c : Instr} {s t : State} {p : Path} {f : State → State} (hs : s.live) (hhears : s.hears p = true)
    (hc : exec c s = pathUp p s f) (ht : f s.quiet = t) : Runs c s t := runs_when hs hc hhears ht

/-! ## The rights of a session, and what it has staged (R241, R242, R245) -/

/-- A session that a ring set has opened acts on that ring set with the right and the partition that it was opened with. -/
theorem State.who_host {s : State} {i k : Nat} {x : Session} (hk : k ≠ 0) (hopen : s.ctl.sessions.find k = some x)
    (hpath : x.path = .host i) : s.who (.host i) k = (some { key := k, right := x.right, part := x.part, num := k }, s) := by
  simp only [State.who, hopen, if_pos (And.intro hk hpath)]

/-- Dropping what a session has staged takes its writes off the staged ones; beside them it can only withdraw a staged activation or
plan of the session (03 R90; 12 R319). -/
theorem State.dropStaged_eq (s : State) (k : Nat) : s.dropStaged k = { s with
    ctl := { s.ctl with staged := s.ctl.staged.filter (fun w => w.sess != k) }
    fw := (s.dropStaged k).fw, plan := (s.dropStaged k).plan } := by
  simp only [State.dropStaged]
  split
  · split <;> rfl
  · split <;> rfl

theorem State.dropStaged_ctl (s : State) (k : Nat) :
    (s.dropStaged k).ctl = { s.ctl with staged := s.ctl.staged.filter (fun w => w.sess != k) } := congrArg State.ctl (s.dropStaged_eq k)
@[simp] theorem State.dropStaged_dict (s : State) (k : Nat) : (s.dropStaged k).dict = s.dict := by
  rw [State.dropStaged_eq]
@[simp] theorem State.dropStaged_outs (s : State) (k : Nat) : (s.dropStaged k).outs = s.outs := by
  rw [State.dropStaged_eq]

theorem State.closeSession_ctl (s : State) (k : Nat) : (s.closeSession k).ctl = { s.ctl with
    sessions := s.ctl.sessions.del k, staged := s.ctl.staged.filter (fun w => w.sess != k)
    selectors := s.ctl.selectors.filter (fun x => x.1 / 2 ^ 40 != k) } := by
  simp only [State.closeSession, State.dropStaged_ctl]
@[simp] theorem State.closeSession_dict (s : State) (k : Nat) : (s.closeSession k).dict = s.dict := s.dropStaged_dict k
@[simp] theorem State.closeSession_outs (s : State) (k : Nat) : (s.closeSession k).outs = s.outs := s.dropStaged_outs k

section
variable {s q : State} {p : Path} {k : Nat} {w : Who} (c : Carrier) (req : BitVec 8) (hk : k ≠ 0) (hwho : s.who p k = (some w, q))
include hk hwho

theorem State.serveDiscard_session :
    s.serveDiscard c p req k = (q.dropStaged w.key).respond c p (msgHeader 5 req k 0 0) [] 0 := by
  simp only [State.serveDiscard, if_neg hk, hwho]

theorem State.serveClose_session :
    s.serveClose c p req k = (q.closeSession w.key).respond c p (msgHeader 7 req k 0 0) [] 0 := by
  simp only [State.serveClose, if_neg hk, hwho]

end

/-! ## The number of a new session (R242) -/

/-- The session numbers that are free, from the lowest up. -/
def State.freeNumbers (s : State) : List Nat := ((List.range 63).map (· + 1)).filter (fun k => (s.ctl.sessions.find k).isNone)

theorem State.head_freeNumbers {s : State} {k : Nat} (hk1 : 1 ≤ k) (hk63 : k ≤ 63) (hfree : s.ctl.sessions.find k = none)
    (hbelow : ∀ j, 1 ≤ j → j < k → s.ctl.sessions.find j ≠ none) : s.freeNumbers.head? = some k := by
  have hnumbers : (List.range 63).map (· + 1) = List.range' 1 63 := rfl
  rw [State.freeNumbers, hnumbers, List.head?_filter, List.find?_range'_eq_some]
  refine ⟨Option.isNone_iff_eq_none.mpr hfree, by rw [List.mem_range'_1]; omega, fun j hj hjk => ?_⟩
  simpa using Option.isSome_iff_ne_none.mpr (hbelow j hj hjk)

theorem State.freeNumbers_eq_nil {s : State} (hfull : ∀ j, 1 ≤ j → j ≤ 63 → s.ctl.sessions.find j ≠ none) : s.freeNumbers = [] := by
  refine List.filter_eq_nil_iff.mpr fun j hj => ?_
  obtain ⟨i, hi, rfl⟩ := List.mem_map.mp hj
  have hlt := List.mem_range.mp hi
  simpa using (hfull (i + 1) (by omega) (by omega))

section
variable (s : State) (c : Carrier) (req : BitVec 8) (ident : BitVec 16) {right : Nat} (part : Nat)

/-- A request that is well formed, of a right that the path carries, is answered by what numbers are free. -/
theorem State.serveOpen_granted {p : Path} {g : Nat × Nat} (hright : right ≤ 2) (hgrant : s.grantRight p right part = some g) :
    s.serveOpen c p req 0 right part ident = match s.freeNumbers with
      | [] => s.respond c p (msgHeader 6 req 0 4 0) [] 0
      | k :: _ => ({ s with ctl := { s.ctl with sessions := s.ctl.sessions.put k ⟨g.1, g.2, p, ident⟩ } } : State).respond c p
          (msgHeader 6 req k 0 0) [] 0 := by
  have hasked : ¬ ((0 : Nat) ≠ 0 ∨ 2 < right) := by omega
  simp only [State.serveOpen, if_neg hasked, hgrant]
  rfl

theorem State.serveOpen_number {p : Path} {g : Nat × Nat} {k : Nat} (hright : right ≤ 2) (hgrant : s.grantRight p right part = some g)
    (hlowest : s.freeNumbers.head? = some k) : s.serveOpen c p req 0 right part ident =
      ({ s with ctl := { s.ctl with sessions := s.ctl.sessions.put k ⟨g.1, g.2, p, ident⟩ } } : State).respond c p
        (msgHeader 6 req k 0 0) [] 0 := by
  obtain ⟨others, hothers⟩ := List.head?_eq_some_iff.mp hlowest
  rw [s.serveOpen_granted c req ident part hright hgrant, hothers]

theorem State.serveOpen_full {p : Path} {g : Nat × Nat} (hright : right ≤ 2) (hgrant : s.grantRight p right part = some g)
    (hfull : s.freeNumbers = []) : s.serveOpen c p req 0 right part ident = s.respond c p (msgHeader 6 req 0 4 0) [] 0 := by
  rw [s.serveOpen_granted c req ident part hright hgrant, hfull]

/-- A session cannot ask for another. -/
theorem State.serveOpen_inSession (p : Path) {k : Nat} (hk : k ≠ 0) :
    s.serveOpen c p req k right part ident = s.respond c p (msgHeader 6 req k 5 0) [] 0 := if_pos (.inl hk)

end

/-! ## READ, WRITE and COMMIT (R243, R245, R246, R256) -/

section
variable {s q : State} {p : Path} {k : Nat} {es : List DictEntry} {w : Who} (c : Carrier) (req : BitVec 8)

/-- Whose request a read is: nobody's without a session, else that of the session. -/
def State.reader (s : State) (p : Path) (k : Nat) : Option Who × State := if k = 0 then (some nobody, s) else s.who p k

theorem State.reader_of_cases (h : (k = 0 ∧ w = nobody ∧ q = s) ∨ (k ≠ 0 ∧ s.who p k = (some w, q))) : s.reader p k = (some w, q) := by
  rcases h with ⟨rfl, rfl, rfl⟩ | ⟨hk, hwho⟩
  · rfl
  · rw [State.reader, if_neg hk, hwho]

theorem State.serveRead_reader (staged : Bool) (hsome : 1 ≤ es.length) (hfits : es.length ≤ entryLimit p)
    (hreader : s.reader p k = (some w, q)) :
    let r := serveEach (fun a e => a.readEntry w p staged (k == 0) e) q es
    s.serveRead c p req k es staged = r.1.respond c p (msgHeader (if staged then 3 else 1) req k (entryStatus r.2) es.length) r.2 0 := by
  have hcount : ¬ (es.length = 0 ∨ entryLimit p < es.length) := by omega
  rw [State.reader] at hreader
  simp only [State.serveRead, if_neg hcount, hreader]

/-- A word that may be read, of a unit that is awake, is answered with its live value. -/
theorem State.readEntry_readable {e : DictEntry} {o : Obj} (hplace : q.locate e = .inl o) (hopen : k ≠ 0 ∨ isIdentity o.id = true)
    (hread : q.mayRead w p o e.inst.toNat e.row.toNat = true) (hadmits : q.fwAdmits o.id false = true)
    (hawake : q.targetAsleep o.id e.inst.toNat = false) :
    q.readEntry w p false (k == 0) e = (q.touch e.inst.toNat,
      { e with outcome := 0, value := BitVec.ofNat 64 (q.liveObj w.key o e.inst.toNat e.row.toNat e.word.toNat) }) := by
  have hmay : ((k == 0 && !isIdentity o.id) || !q.mayRead w p o e.inst.toNat e.row.toNat) = false := by
    rcases hopen with hk | hid
    · simp [hk, hread]
    · simp [hid, hread]
  simp only [State.readEntry, hplace, hmay, hadmits, hawake]
  rfl

theorem State.serveRead_word {e : DictEntry} {o : Obj} (hfits : 1 ≤ entryLimit p) (hreader : s.reader p k = (some w, q))
    (hplace : q.locate e = .inl o) (hopen : k ≠ 0 ∨ isIdentity o.id = true)
    (hread : q.mayRead w p o e.inst.toNat e.row.toNat = true) (hadmits : q.fwAdmits o.id false = true)
    (hawake : q.targetAsleep o.id e.inst.toNat = false) :
    s.serveRead c p req k [e] false = (q.touch e.inst.toNat).respond c p (msgHeader 1 req k 0 1)
      [{ e with outcome := 0, value := BitVec.ofNat 64 (q.liveObj w.key o e.inst.toNat e.row.toNat e.word.toNat) }] 0 := by
  rw [State.serveRead_reader c req (es := [e]) false (Nat.le_refl 1) hfits hreader]
  simp only [serveEach, q.readEntry_readable hplace hopen hread hadmits hawake]
  rfl

/-- No word 1 of an attach request waits for its word 0 (12 R315). -/
def State.noAttachWord (s : State) : State := { s with fw := { s.fw with attachWord := none } }

/-- One entry of a WRITE: the unit is woken, and the entry is checked and carried out. -/
def State.serveEntry (w : Who) (p : Path) (a : State) (e : DictEntry) : State × DictEntry :=
  (a.touch e.inst.toNat).writeEntry w p e (fun o v a => a.immediate w o e.inst.toNat e.row.toNat e.word.toNat v)

theorem State.serveWrite_session (hsome : 1 ≤ es.length) (hfits : es.length ≤ entryLimit p) (hk : k ≠ 0)
    (hwho : s.who p k = (some w, q)) :
    let r := serveEach (State.serveEntry w p) q.noAttachWord es
    s.serveWrite c p req k es = r.1.noAttachWord.respond c p (msgHeader 2 req k (entryStatus r.2) es.length) r.2 0 := by
  have hcount : ¬ (es.length = 0 ∨ entryLimit p < es.length) := by omega
  have hsess : ¬ (k = 0 ∧ p ≠ .keeper) := fun h => hk h.1
  simp only [State.serveWrite, if_neg hcount, if_neg hsess, hwho]
  rfl

/-- An entry that the checks accept as it is is carried out, and answered with the value applied. -/
theorem State.writeEntry_accepted {a : State} {e : DictEntry} {o : Obj} {x : Nat} (now : Obj → Nat → State → State)
    (hplace : a.locate e = .inl o) (haccepted : a.checkEntry w p e = ⟨0, x, []⟩) :
    a.writeEntry w p e now = (a.carryOut w o e.inst.toNat e.row.toNat e.word.toNat x (now o x),
      { e with outcome := 0, value := BitVec.ofNat 64 x }) := by
  simp only [State.writeEntry, haccepted, State.logChecked, List.foldl_nil, hplace]
  rfl

theorem State.serveWrite_word {e : DictEntry} {o : Obj} {x : Nat} (hfits : 1 ≤ entryLimit p) (hk : k ≠ 0)
    (hwho : s.who p k = (some w, q)) (hplace : (q.noAttachWord.touch e.inst.toNat).locate e = .inl o)
    (haccepted : (q.noAttachWord.touch e.inst.toNat).checkEntry w p e = ⟨0, x, []⟩) :
    s.serveWrite c p req k [e] = ((q.noAttachWord.touch e.inst.toNat).carryOut w o e.inst.toNat e.row.toNat e.word.toNat x
      (fun a => a.immediate w o e.inst.toNat e.row.toNat e.word.toNat x)).noAttachWord.respond c p (msgHeader 2 req k 0 1)
        [{ e with outcome := 0, value := BitVec.ofNat 64 x }] 0 := by
  rw [State.serveWrite_session c req (es := [e]) (Nat.le_refl 1) hfits hk hwho]
  simp only [serveEach, State.serveEntry, State.writeEntry_accepted _ hplace haccepted]
  rfl

/-- A COMMIT of a session of this chip, with a right to write, in a state that takes commits, of writes that break no rule of R257. -/
theorem State.serveCommit_taken {f : State} {b : CommitBody} (hk : k ≠ 0) (hwho : s.who p k = (some w, q)) (hhere : ∀ n, p ≠ .remote n)
    (hright : w.right ≠ 0) (htakes : q.takesCommits = true) (hscope : b.scope ≠ 3#2) (htime : b.time.toNat ≤ q.time + 2000000000)
    (hfatal : q.react.st ≠ 3) (hrules : q.commitFails (q.ctl.staged.filter (fun y => y.sess == w.key)) = (none, f)) :
    s.serveCommit c p req k b = f.take
      { path := p, req := req, sess := w.key, num := w.num, time := b.time.toNat, scope := if q.build.pavilions then b.scope.toNat else 0
        part := b.part.toNat, writes := q.ctl.staged.filter (fun y => y.sess == w.key), own := false, carrier := c } := by
  have hbody : ¬ (b.scope = 3#2 ∨ q.time + 2000000000 < b.time.toNat) := not_or.mpr ⟨hscope, by omega⟩
  simp only [State.serveCommit, if_neg hk, hwho]
  cases p with
  | remote n => exact absurd rfl (hhere n)
  | host i | lodge i | mgmt | keeper => simp [hright, htakes, hbody, hfatal, hrules]

end

end Sys2Proof.Machine
end

section
/-!
# PROOFS. 09, the object dictionary: the writes of one object

A command that is a write of one object passes through the checks of R250 and through the carrying out of the write. Of an object that
takes effect at once both come down to the effect that the command names; the slot entries and the ALU reinstatement are staged.
-/
namespace Sys2Proof.Machine

/-! ## The dispatch of the commands -/

section
variable (p : Path) (k : Nat) (v : BitVec 64) (s : State)

theorem exec_planLoadStart : exec (.planLoadStart p k v) s = execPlanLoadStart p k v s := rfl
theorem exec_halfRateRequest : exec (.halfRateRequest p k v) s = execHalfRateRequest p k v s := rfl
theorem exec_fullRateReturnRequest : exec (.fullRateReturnRequest p k v) s = execFullRateReturnRequest p k v s := rfl
theorem exec_shadowSlotEntryWrite (u : UnitId) :
    exec (.shadowSlotEntryWrite p k u v) s = execShadowSlotEntryWrite p k u v s := rfl
theorem exec_activeSlotEntryWrite (u : UnitId) :
    exec (.activeSlotEntryWrite p k u v) s = execActiveSlotEntryWrite p k u v s := rfl
theorem exec_aluReinstatementRequest (u : UnitId) :
    exec (.aluReinstatementRequest p k u v) s = execAluReinstatementRequest p k u v s := rfl
theorem exec_ownerScrubRequest (l : Nat) : exec (.ownerScrubRequest p k l v) s = execOwnerScrubRequest p k l v s := rfl
theorem exec_pavilionEnableWrite (n : Nat) : exec (.pavilionEnableWrite p k n v) s = execPavilionEnableWrite p k n v s := rfl
theorem exec_relockRequest : exec (.relockRequest p k v) s = execRelockRequest p k v s := rfl
theorem exec_killRequest : exec (.killRequest p k v) s = execKillRequest p k v s := rfl
theorem exec_domainTargetWrite (u : UnitId) : exec (.domainTargetWrite p k u v) s = execDomainTargetWrite p k u v s := rfl
theorem exec_fifoPop : exec (.fifoPop p k v) s = execFifoPop p k v s := rfl
theorem exec_faultClear : exec (.faultClear p k v) s = execFaultClear p k v s := rfl
theorem exec_faultForce (u : UnitId) : exec (.faultForce p k u v) s = execFaultForce p k u v s := rfl
theorem exec_firmwareLoadStart : exec (.firmwareLoadStart p k v) s = execFirmwareLoadStart p k v s := rfl
theorem exec_attach (w : BitVec 64) : exec (.attach p k w v) s = execAttach p k w v s := rfl
theorem exec_detach : exec (.detach p k v) s = execDetach p k v s := rfl
theorem exec_hostHeartbeat : exec (.hostHeartbeat p k v) s = execHostHeartbeat p k v s := rfl
theorem exec_ringSetEnable : exec (.ringSetEnable p k v) s = execRingSetEnable p k v s := rfl
theorem exec_channelConfigWrite (ch : Nat) : exec (.channelConfigWrite p k ch v) s = execChannelConfigWrite p k ch v s := rfl
theorem exec_counterConfigWrite (u : UnitId) (n : Nat) :
    exec (.counterConfigWrite p k u n v) s = execCounterConfigWrite p k u n v s := rfl
theorem exec_traceBufferPop (u : UnitId) : exec (.traceBufferPop p k u v) s = execTraceBufferPop p k u v s := rfl
theorem exec_snapshotRequest : exec (.snapshotRequest p k v) s = execSnapshotRequest p k v s := rfl
theorem exec_snapshotRelease : exec (.snapshotRelease p k v) s = execSnapshotRelease p k v s := rfl

end

/-! ## The checks of an allowed write (R250) -/

/-- An entry that names a place of the dictionary names an object of the table. -/
theorem State.findObj_of_locate {s : State} {e : DictEntry} {o : Obj} (hplace : s.locate e = .inl o) :
    findObj (e.idx.toNat * 256 + e.sub.toNat) = some o := by
  simp only [State.locate] at hplace
  split at hplace
  next => cases hplace
  next hfound =>
    split at hplace
    · exact Sum.inl.inj hplace ▸ hfound
    · cases hplace

/-- The object identifier that a written entry names, of 16 bits of index and 8 of sub-index. -/
theorem writeOf_id {id : Nat} (hid : id < 2 ^ 24) (inst row word : Nat) (v : BitVec 64) :
    (writeOf id inst row word v).idx.toNat * 256 + (writeOf id inst row word v).sub.toNat = id := by
  simp only [writeOf, BitVec.toNat_ofNat]
  omega

theorem findObj_writeOf {id inst row word : Nat} {v : BitVec 64} {o : Obj} (hid : id < 2 ^ 24) (hfound : findObj id = some o) :
    findObj ((writeOf id inst row word v).idx.toNat * 256 + (writeOf id inst row word v).sub.toNat) = some o := by
  rw [writeOf_id hid, hfound]

/-- What the checks decide of an allowed write: the active slot entry is redirected and logged, any other is accepted. -/
def allowedAs (o : Obj) (v x : Nat) : Checked :=
  if o.id = 0x182004 then { outcome := 3, value := x, logs := [(0, 3, v, x)] } else { outcome := 0, value := x, logs := [] }

/-- An allowed write of an object passes every check, and meets no unit that sleeps. -/
theorem State.checkEntry_allowed {s : State} {w : Who} {p : Path} {e : DictEntry} {x : Nat} {o : Obj} (h : s.allows w p e x)
    (hfound : findObj (e.idx.toNat * 256 + e.sub.toNat) = some o) :
    s.locate e = .inl o ∧ s.checkEntry w p e = allowedAs o e.value.toNat x := by
  obtain ⟨o', hplace, hmay, helsewhere, hpermits, hrange, hrule, hawake⟩ := h
  obtain rfl : o' = o := Option.some.inj ((State.findObj_of_locate hplace).symm.trans hfound)
  have hcheck : s.checkWrite w p e = allowedAs o' e.value.toNat x := by
    simp only [State.checkWrite, hplace, hmay, helsewhere, hpermits, hrange, hrule]
    rfl
  refine ⟨hplace, ?_⟩
  simp only [State.checkEntry, hplace, hcheck]
  refine if_neg fun ⟨_, _, honce, hasleep⟩ => ?_
  rw [hawake honce] at hasleep
  cases hasleep

section
variable {q : State} {w : Who} {p : Path} {e : DictEntry} {x : Nat} {o : Obj} (now : Obj → Nat → State → State)
  (h : q.allows w p e x) (hfound : findObj (e.idx.toNat * 256 + e.sub.toNat) = some o)
include h hfound

/-- An allowed write is carried out, and answered with the value applied. -/
theorem State.writeEntry_allowed (hid : o.id ≠ 0x182004) :
    q.writeEntry w p e now = (q.carryOut w o e.inst.toNat e.row.toNat e.word.toNat x (now o x),
      { e with outcome := 0, value := BitVec.ofNat 64 x }) := by
  obtain ⟨hplace, hcheck⟩ := q.checkEntry_allowed h hfound
  exact State.writeEntry_accepted now hplace (hcheck.trans (if_neg hid))

/-- One of an object that takes effect at once has the effect that it names. -/
theorem State.writeEntry_immediate (himm : o.takes = .immediate) (hid : o.id ≠ 0x182004) :
    q.writeEntry w p e now = (now o x q, { e with outcome := 0, value := BitVec.ofNat 64 x }) := by
  rw [State.writeEntry_allowed now h hfound hid]
  simp [State.carryOut, State.takesAtOnce, himm]

/-- A write of the active slot entry is logged, and staged with its owner beside it (03 R68, R85). -/
theorem State.writeEntry_redirected (hid : o.id = 0x182004) :
    q.writeEntry w p e now = ((q.clampPut e w.num (0, 3, e.value.toNat, x)).carryOut w o e.inst.toNat e.row.toNat e.word.toNat x (now o x),
      { e with outcome := 3, value := BitVec.ofNat 64 x }) := by
  obtain ⟨hplace, hcheck⟩ := q.checkEntry_allowed h hfound
  rw [allowedAs, if_pos hid] at hcheck
  have hstill : (q.clampPut e w.num (0, 3, e.value.toNat, x)).locate e = .inl o := hplace
  simp only [State.writeEntry, hcheck, State.logChecked, List.foldl_cons, List.foldl_nil, hstill]
  rfl

end

/-! ## What carrying out a staged write does (R255; 03 R68) -/

section
variable (s : State) (w : Who) {o : Obj} (inst row word x : Nat) (now : State → State) (hepoch : o.takes = .epoch)
include hepoch

/-- A slot-table entry is staged with the partition that the session's selector names as its owner, and an EMPTY one with none. -/
theorem State.carryOut_slotEntry (hrange : o.range = .slotEntry) (hid : o.id = 0x182003 ∨ o.id = 0x182004) :
    let key := s.placeOf w.key o.id inst row word
    s.carryOut w o inst row word x now =
      (s.stage w.key key x).stage w.key (key + 1) (if x = 0 then 0 else s.selector w.key 0x182005 inst + 1) := by
  have hstaged : s.takesAtOnce o = false := by rw [State.takesAtOnce, hepoch]; rfl
  simp only [State.carryOut, hepoch, hstaged, hrange, if_pos hid]
  rfl

/-- An object that a 1 triggers is staged for a 1, and left alone for a 0. -/
theorem State.carryOut_trigger (hrange : o.range = .one) (hslot : ¬ (o.id = 0x182003 ∨ o.id = 0x182004)) (hactivate : o.id ≠ 0x440008) :
    s.carryOut w o inst row word x now = if x = 0 then s else s.stage w.key (s.placeOf w.key o.id inst row word) x := by
  have hstaged : s.takesAtOnce o = false := by rw [State.takesAtOnce, hepoch]; rfl
  simp only [State.carryOut, hepoch, hstaged, hrange, if_neg hslot, if_neg hactivate]
  by_cases hx : x = 0 <;> simp [hx]

end

/-! ## A write of one object over an open session -/

/-- Whether a write of an object takes effect at once. -/
def takesNow (id : Nat) : Bool := decide (id < 2 ^ 24) && (findObj id).any (fun o => o.takes == .immediate && o.id != 0x182004)

theorem takesNow_iff {id : Nat} :
    takesNow id = true ↔ id < 2 ^ 24 ∧ ∃ o, findObj id = some o ∧ o.takes = .immediate ∧ o.id ≠ 0x182004 := by
  simp [takesNow, Option.any_eq_true]

section
variable {s q : State} {p : Path} {k : Nat} {v : BitVec 64} {w : Who} {x id inst row word : Nat}
  {now : Nat → State → State} (hhears : s.hears p = true) (hwho : s.who p k = (some w, q))
include hhears hwho

theorem State.ownWrite_session : s.ownWrite p k id inst row word v now =
    let r := q.writeEntry w p (writeOf id inst row word v) (fun _ v s => now v s)
    r.1.emit (.dictResp p (msgHeader 2 0 k (if r.2.outcome = 0#8 then 0 else 1) 1) [r.2] 0) := by
  simp only [State.ownWrite, hhears, hwho]
  rfl

theorem State.ownWrite_immediate (h : q.allows w p (writeOf id inst row word v) x) (hnow : takesNow id = true) :
    s.ownWrite p k id inst row word v now = (now x q).wrote p k (writeOf id inst row word v) x := by
  obtain ⟨hid, o, hfound, himm, hne⟩ := takesNow_iff.mp hnow
  rw [State.ownWrite_session hhears hwho, State.writeEntry_immediate _ h (findObj_writeOf hid hfound) himm hne]
  rfl

end

section
variable {s q : State} {p : Path} {k : Nat} {v : BitVec 64} {w : Who} {x : Nat}
  (hs : s.live) (hhears : s.hears p = true) (hwho : s.quiet.who p k = (some w, q))
include hs hhears hwho

/-- A command that is a write of one object which takes effect at once. -/
theorem runs_ownWrite {c : Instr} {id inst row word : Nat} {now : Nat → State → State}
    (hc : exec c s = up s (fun s => s.ownWrite p k id inst row word v now)) (hnow : takesNow id = true)
    (h : q.allows w p (writeOf id inst row word v) x) : Runs c s ((now x q).wrote p k (writeOf id inst row word v) x) :=
  runs_up hs hc (State.ownWrite_immediate hhears hwho h hnow)

theorem runs_shadowSlotEntryWrite (u : UnitId) (h : q.allows w p (writeOf 0x182003 (instOf u) 0 0 v) x) :
    let e := writeOf 0x182003 (instOf u) 0 0 v
    let key := q.placeOf w.key 0x182003 e.inst.toNat 0 0
    Runs (.shadowSlotEntryWrite p k u v) s
      (((q.stage w.key key x).stage w.key (key + 1) (if x = 0 then 0 else q.selector w.key 0x182005 e.inst.toNat + 1)).wrote p k e x) := by
  have hfound : findObj 0x182003 = some ⟨0x182003, [1, 2, 3, 4], .priv, 1, 1, [0], .slotEntry, .epoch⟩ := rfl
  refine runs_up hs (exec_shadowSlotEntryWrite p k v s u) ?_
  rw [State.ownWrite_session (s := s.quiet) hhears hwho, State.writeEntry_allowed _ h (findObj_writeOf (by decide) hfound) (by decide),
    State.carryOut_slotEntry _ _ _ _ _ _ _ rfl rfl (.inl rfl)]
  rfl

theorem runs_activeSlotEntryWrite (u : UnitId) (h : q.allows w p (writeOf 0x182004 (instOf u) 0 0 v) x) :
    let e := writeOf 0x182004 (instOf u) 0 0 v
    let key := q.placeOf w.key 0x182004 e.inst.toNat 0 0
    Runs (.activeSlotEntryWrite p k u v) s
      (((((q.clampPut e w.num (0, 3, v.toNat, x)).stage w.key key x).stage w.key (key + 1)
        (if x = 0 then 0 else q.selector w.key 0x182005 e.inst.toNat + 1))).emit
          (.dictResp p (msgHeader 2 0 k 1 1) [{ e with outcome := 3, value := BitVec.ofNat 64 x }] 0)) := by
  have hfound : findObj 0x182004 = some ⟨0x182004, [1, 2, 3, 4], .priv, 1, 1, [0], .slotEntry, .epoch⟩ := rfl
  refine runs_up hs (exec_activeSlotEntryWrite p k v s u) ?_
  rw [State.ownWrite_session (s := s.quiet) hhears hwho, State.writeEntry_redirected _ h (findObj_writeOf (by decide) hfound) rfl,
    State.carryOut_slotEntry _ _ _ _ _ _ _ rfl rfl (.inr rfl)]
  rfl

theorem runs_aluReinstatementRequest (u : UnitId) (h : q.allows w p (writeOf 0x200005 (instOf u) 0 0 v) x) :
    let e := writeOf 0x200005 (instOf u) 0 0 v
    Runs (.aluReinstatementRequest p k u v) s
      ((if x = 0 then q else q.stage w.key (q.placeOf w.key 0x200005 e.inst.toNat 0 0) x).wrote p k e x) := by
  have hfound : findObj 0x200005 = some ⟨0x200005, [2, 3, 4], .priv, 1, 1, [0], .one, .epoch⟩ := rfl
  refine runs_up hs (exec_aluReinstatementRequest p k v s u) ?_
  rw [State.ownWrite_session (s := s.quiet) hhears hwho, State.writeEntry_allowed _ h (findObj_writeOf (by decide) hfound) (by decide),
    State.carryOut_trigger _ _ _ _ _ _ _ rfl rfl (by decide) (by decide)]
  rfl

/-- ATTACH writes word 1 of the attach request, which is kept for word 0, and then word 0, which attaches (12 R315). -/
theorem runs_attach {w1 : BitVec 64} (h1 : q.allows w p (writeOf 0x401001 0 1 0 w1) w1.toNat)
    (h0 : ({ q with fw := { q.fw with attachWord := some w1 } } : State).allows w p (writeOf 0x401001 0 0 0 v) v.toNat) :
    Runs (.attach p k w1 v) s (((({ q with fw := { q.fw with attachWord := some w1 } } : State).attachDriver w.key w1 v).noAttachWord).emit
      (.dictResp p (msgHeader 2 0 k 0 2) [writeOf 0x401001 0 1 0 w1, writeOf 0x401001 0 0 0 v] 0)) := by
  have hfound : findObj 0x401001 = some ⟨0x401001, [0], .wo, 2, 1, [0], .any, .immediate⟩ := rfl
  refine runs_up hs (exec_attach p k v s w1) ?_
  have hhears' : s.quiet.hears p = true := hhears
  have hword : BitVec.ofNat 64 w1.toNat = w1 := by simp
  have hword0 : BitVec.ofNat 64 v.toNat = v := by simp
  simp only [State.attachMessage, hhears', hwho, State.writeEntry_immediate _ h1 (findObj_writeOf (by decide) hfound) rfl (by decide), hword]
  simp only [State.writeEntry_immediate _ h0 (findObj_writeOf (by decide) hfound) rfl (by decide), hword0]
  rfl

end

end Sys2Proof.Machine
end

section
/-!
# PROOFS. 09, epochs: the switch, the end of the tag window, the decision across chips, the late commit
-/
namespace Sys2Proof.Machine

theorem exec_epochSwitch (s : State) : exec .epochSwitch s = execEpochSwitch s := rfl
theorem exec_tagWindowEnd (s : State) : exec .tagWindowEnd s = execTagWindowEnd s := rfl
theorem exec_crossChipDecision (s : State) : exec .crossChipDecision s = execCrossChipDecision s := rfl
theorem exec_lateCommit (s : State) : exec .lateCommit s = execLateCommit s := rfl

/-- The pending epoch is taken once its time has come, unless the chip is in the fatal state (R262; 11 R302). -/
theorem runs_epochSwitch {s : State} {e : Epoch} (hs : s.live) (hpending : s.ctl.pending = some e) (hfatal : s.react.st ≠ 3)
    (hdue : e.time ≤ s.time) : Runs .epochSwitch s (s.quiet.epochSwitch e) := by
  have hpending' : s.quiet.ctl.pending = some e := hpending
  refine runs_when hs (exec_epochSwitch s) ?_ (by rw [hpending'])
  rw [State.epochDue, hpending']
  exact Bool.and_eq_true_iff.mpr ⟨bne_iff_ne.mpr hfatal, decide_eq_true hdue⟩

theorem runs_tagWindowEnd {s : State} (hs : s.live) (hopen : s.ctl.windowOpen = true) (hdue : s.ctl.windowEnd ≤ s.time) :
    Runs .tagWindowEnd s s.quiet.endWindow :=
  runs_when hs (exec_tagWindowEnd s) (Bool.and_eq_true_iff.mpr ⟨hopen, decide_eq_true hdue⟩) rfl

section
variable {s : State} {x : CrossCommit}

/-- The home chip confirms where every chip of the scope has answered READY (R259). -/
theorem State.decideCross_ready (h : ∀ c, c ∈ s.scopeChips x.ask.scope x.ask.part → (c, true) ∈ x.answers) :
    s.decideCross x = s.confirmCross x :=
  if_pos (List.all_eq_true.mpr fun c hc => List.contains_iff_mem.mpr (h c hc))

/-- One chip of the scope that has not answered READY is enough to cancel. -/
theorem State.decideCross_missing {c : Nat} (hc : c ∈ s.scopeChips x.ask.scope x.ask.part) (hmissing : (c, true) ∉ x.answers) :
    s.decideCross x = s.cancelCross x :=
  if_neg fun h => hmissing (List.contains_iff_mem.mp (List.all_eq_true.mp h c hc))

/-- The home chip decides F + 4,000 slots before the epoch (R259). -/
theorem runs_crossChipDecision (hs : s.live) (hcross : s.ctl.cross = some x) (hfatal : s.react.st ≠ 3)
    (hdue : x.time ≤ s.time + x.flood + 4000) : Runs .crossChipDecision s (s.quiet.decideCross x) := by
  have hcross' : s.quiet.ctl.cross = some x := hcross
  refine runs_when hs (exec_crossChipDecision s) ?_ (by rw [hcross'])
  rw [State.decisionDue, hcross']
  exact Bool.and_eq_true_iff.mpr ⟨bne_iff_ne.mpr hfatal, decide_eq_true hdue⟩

end

theorem runs_lateCommit {s : State} {x : Prepare} (hs : s.live) (hlate : s.quiet.lateRecord = some x) :
    Runs .lateCommit s (s.quiet.lateCommit x) :=
  runs_when hs (exec_lateCommit s) (by rw [hlate]; rfl) (by rw [hlate])

end Sys2Proof.Machine
end

section
/-!
# PROOFS. The statements of 09, settled
-/
namespace Sys2Proof.Machine

/-- Settles O26: the answer goes by the free numbers, of which the first is the lowest. -/
theorem sessionOpen : Obligations.SessionOpen := by
  intro s req right part hs hhears hright
  have hgrant : s.quiet.grantRight (.host 0) right.toNat part.toNat = some (right.toNat, part.toNat) := rfl
  have hrun (k : Nat) {t : State} (ht : s.quiet.serveOpen .direct (.host 0) req k right.toNat part.toNat 0 = t) :
      Runs (.sessionOpen (.host 0) req k right part) s t := runs_path hs hhears (exec_sessionOpen _ req k right part s) ht
  refine ⟨fun k hk1 hk63 hfree hbelow => ?_, fun hfull => ?_, fun k hk => ?_⟩
  · have hlowest : s.quiet.freeNumbers.head? = some k := State.head_freeNumbers hk1 hk63 hfree hbelow
    exact (hrun 0 (s.quiet.serveOpen_number _ req _ _ hright hgrant hlowest)).exec_eq rfl rfl rfl
  · have hnone : s.quiet.freeNumbers = [] := State.freeNumbers_eq_nil hfull
    exact (hrun 0 (s.quiet.serveOpen_full _ req _ _ hright hgrant hnone)).exec_eq rfl rfl rfl
  · exact (hrun k (s.quiet.serveOpen_inSession _ req _ _ _ hk)).exec_eq rfl rfl rfl

/-- Settles O27: the key of the session leaves the table, and its staged writes go with it. -/
theorem sessionClose : Obligations.SessionClose := by
  intro s i req k x hs hhears hk hopen hpath
  have hwho := State.who_host (s := s.quiet) hk hopen hpath
  have hrun := runs_path hs hhears (exec_sessionClose _ req k s) (State.serveClose_session .direct req hk hwho)
  have hctl := s.quiet.closeSession_ctl k
  refine ⟨_, hrun, ?_, fun j hj => ?_, congrArg Control.staged hctl, s.quiet.closeSession_dict k, ?_⟩
  · exact (congrArg (fun c => FMap.find c.sessions k) hctl).trans (FMap.find_del_same _ k)
  · exact (congrArg (fun c => FMap.find c.sessions j) hctl).trans (FMap.find_del_other _ k j hj)
  · exact congrArg (· ++ _) (s.quiet.closeSession_outs k)

/-- Settles O28: of the sessions' state only the staged writes change. -/
theorem discard : Obligations.Discard := by
  intro s i req k x hs hhears hk hopen hpath
  have hwho := State.who_host (s := s.quiet) hk hopen hpath
  have hrun := runs_path hs hhears (exec_discard _ req k s) (State.serveDiscard_session .direct req hk hwho)
  have hctl := s.quiet.dropStaged_ctl k
  exact ⟨_, hrun, (congrArg Control.sessions hctl :), (congrArg Control.staged hctl :), s.quiet.dropStaged_dict k,
    congrArg (· ++ _) (s.quiet.dropStaged_outs k)⟩

/-- Settles O29: each message by the equation of its service. -/
theorem dictionaryMessages : Obligations.DictionaryMessages := by
  refine ⟨fun s q p req k es w hs hhears hsome hfits hcases => ?_, fun s q p req k es w hs hhears hsome hfits hk hwho => ⟨?_, ?_⟩,
    fun s q f p req k b w hs hhears hk hhere hwho hright htakes hscope htime hfatal hrules => ?_⟩
  · have hreader := State.reader_of_cases hcases
    refine ⟨?_, ?_, ?_⟩
    · exact runs_path hs hhears (exec_dictionaryRead p req k es s) (State.serveRead_reader _ req false hsome hfits hreader)
    · exact runs_path hs hhears (exec_readStaged p req k es s) (State.serveRead_reader _ req true hsome hfits hreader)
    · rintro e o rfl hplace hopen hread hadmits hawake
      exact runs_path hs hhears (exec_dictionaryRead p req k [e] s)
        (State.serveRead_word _ req hfits hreader hplace hopen hread hadmits hawake)
  · exact runs_path hs hhears (exec_dictionaryWrite p req k es s) (State.serveWrite_session _ req hsome hfits hk hwho)
  · rintro e o x rfl hplace haccepted
    exact runs_path hs hhears (exec_dictionaryWrite p req k [e] s) (State.serveWrite_word _ req hfits hk hwho hplace haccepted)
  · exact runs_path hs hhears (exec_commit p req k b s)
      (State.serveCommit_taken _ req hk hwho hhere hright htakes hscope htime hfatal hrules)

/-- Settles O31: the commands of objects that take effect at once by one lemma, with the effect that each command names. -/
theorem objectWrites : Obligations.ObjectWrites := by
  intro s q p k v w x hs hhears hwho
  refine ⟨?planLoad, ?halfRate, ?fullRate, runs_shadowSlotEntryWrite hs hhears hwho, runs_activeSlotEntryWrite hs hhears hwho,
    runs_aluReinstatementRequest hs hhears hwho, fun l => ?scrub, fun n => ?pavilion, ?relock, ?kill, fun u d hd => ?target, ?pop, ?clear,
    fun u => ?force, ?firmware, fun w1 => runs_attach hs hhears hwho, ?detach, ?heartbeat, ?rings, fun ch => ?channel,
    fun u n => ?counter, fun u => ?trace, ?request, ?release⟩
  case planLoad => exact runs_ownWrite hs hhears hwho (exec_planLoadStart p k v s) rfl
  case halfRate => exact (runs_ownWrite (x := x) hs hhears hwho (exec_halfRateRequest p k v s) rfl :)
  case fullRate => exact (runs_ownWrite (x := x) hs hhears hwho (exec_fullRateReturnRequest p k v s) rfl :)
  case scrub => exact runs_ownWrite hs hhears hwho (exec_ownerScrubRequest p k v s l) rfl
  case pavilion => exact runs_ownWrite hs hhears hwho (exec_pavilionEnableWrite p k v s n) rfl
  case relock => exact runs_ownWrite hs hhears hwho (exec_relockRequest p k v s) rfl
  case kill => exact runs_ownWrite hs hhears hwho (exec_killRequest p k v s) rfl
  case target =>
    intro e h
    have hrun := runs_ownWrite hs hhears hwho (exec_domainTargetWrite p k v s u) rfl h
    simpa only [hd] using hrun
  case pop => exact runs_ownWrite hs hhears hwho (exec_fifoPop p k v s) rfl
  case clear => exact runs_ownWrite hs hhears hwho (exec_faultClear p k v s) rfl
  case force => exact runs_ownWrite hs hhears hwho (exec_faultForce p k v s u) (by split <;> rfl)
  case firmware => exact runs_ownWrite hs hhears hwho (exec_firmwareLoadStart p k v s) rfl
  case detach =>
    simp only [ite_and]
    exact runs_ownWrite hs hhears hwho (exec_detach p k v s) rfl
  case heartbeat => exact runs_ownWrite hs hhears hwho (exec_hostHeartbeat p k v s) rfl
  case rings => exact runs_ownWrite hs hhears hwho (exec_ringSetEnable p k v s) rfl
  case channel => exact runs_ownWrite hs hhears hwho (exec_channelConfigWrite p k v s ch) rfl
  case counter => exact runs_ownWrite hs hhears hwho (exec_counterConfigWrite p k v s u n) rfl
  case trace => exact runs_ownWrite hs hhears hwho (exec_traceBufferPop p k v s u) rfl
  case request => exact runs_ownWrite hs hhears hwho (exec_snapshotRequest p k v s) rfl
  case release => exact runs_ownWrite hs hhears hwho (exec_snapshotRelease p k v s) rfl

/-- Settles O33: each command where it is due, and the decision by whether an answer READY is missing. -/
theorem epochs : Obligations.Epochs := by
  refine ⟨fun s e hs hpending hfatal hdue => ?_, fun s hs hopen hdue => ?_, fun s x hs hcross hfatal hdue => ?_, fun s x hs hlate => ?_⟩
  · exact runs_epochSwitch hs hpending hfatal hdue
  · exact ⟨_, runs_tagWindowEnd hs hopen hdue, rfl, rfl⟩
  · have hrun := runs_crossChipDecision hs hcross hfatal hdue
    exact ⟨fun h => State.decideCross_ready h ▸ hrun, fun c hc hmissing => State.decideCross_missing hc hmissing ▸ hrun⟩
  · exact runs_lateCommit hs hlate

end Sys2Proof.Machine
end

section
/-!
# PROOFS. 10, partitions: the stop bit of a unit, the report of an abort, the time-out and the end of a scrub
-/
namespace Sys2Proof.Machine

theorem exec_stopBitSet (u : UnitId) (q : Nat) (s : State) : exec (.stopBitSet u q) s = execStopBitSet u q s := rfl
theorem exec_abortedReport (l : Nat) (s : State) : exec (.abortedReport l) s = execAbortedReport l s := rfl
theorem exec_scrubTimeout (l : Nat) (s : State) : exec (.scrubTimeout l) s = execScrubTimeout l s := rfl
theorem exec_scrubComplete (l : Nat) (s : State) : exec (.scrubComplete l) s = execScrubComplete l s := rfl

section
variable {s : State} {u : UnitId} {q l d : Nat}

/-- A unit takes the stop bit of a stopped partition once (R271). -/
theorem runs_stopBitSet (hs : s.live) (hstopped : (s.part q).stopped = true) (hnew : q ∉ (s.node u).stop) :
    Runs (.stopBitSet u q) s (s.quiet.stopAt u q) := by
  have hfree : (s.node u).stop.contains q = false := Bool.eq_false_iff.mpr (mt List.contains_iff_mem.mp hnew)
  exact runs_when hs (exec_stopBitSet u q s) (Bool.and_eq_true_iff.mpr ⟨hstopped, congrArg (!·) hfree⟩) rfl

/-- The keeper orders the first scrub of a landing that has aborted (R273, R274). -/
theorem runs_abortedReport (hs : s.live) (haborted : (s.tile l).aborted = true) (hfirst : (s.tile l).scrubTries = 0) :
    Runs (.abortedReport l) s (s.quiet.orderScrub l) :=
  runs_when hs (exec_abortedReport l s) (Bool.and_eq_true_iff.mpr ⟨haborted, beq_iff_eq.mpr hfirst⟩) rfl

/-- A scrub that is not answered in its time has failed (R274). -/
theorem runs_scrubTimeout (hs : s.live) (hdue : (s.tile l).scrubDue = some d) (htime : d ≤ s.time) :
    Runs (.scrubTimeout l) s (s.quiet.scrubFailed l) := by
  have hdue' : (s.quiet.tile l).scrubDue = some d := hdue
  refine runs_when hs (exec_scrubTimeout l s) ?_ rfl
  rw [hdue']
  exact decide_eq_true htime

end

/-! ## The bytes that a scrub clears (05 R138) -/

section
variable {s t : State} {l : Nat}

/-- A store changes the scratchpad of its tile, and drives its rows out. -/
theorem State.storeBytes_scratch (s : State) (l a : Nat) (bs : List Byte) :
    ((s.storeBytes l a bs).tile l).scratch = padWrite (s.tile l).scratch a bs := by
  simp only [State.storeBytes, State.tile_onTile_same]
  split <;> rfl

theorem State.onlyTile.storeBytes (h : s.onlyTile t l) (a : Nat) (bs : List Byte) : s.onlyTile (t.storeBytes l a bs) l := by
  simp only [State.storeBytes]
  split
  · exact (h.emit _).onTile _
  · exact ((h.emit _).emit _).onTile _

theorem State.zeroLines_succ (s : State) (l base n : Nat) :
    s.zeroLines l base (n + 1) = (s.zeroLines l base n).storeBytes l (base + 64 * n) (List.replicate 64 0#8) := by
  simp only [State.zeroLines, List.range_succ, List.foldl_append, List.foldl_cons, List.foldl_nil]

theorem State.onlyTile_zeroLines (s : State) (l base n : Nat) : s.onlyTile (s.zeroLines l base n) l := by
  induction n with
  | zero => exact ⟨rfl, fun _ _ => rfl⟩
  | succ n ih => exact s.zeroLines_succ l base n ▸ ih.storeBytes _ _

/-- The lines that a scrub has cleared read 0, and every other byte reads as before. -/
theorem State.padByte_zeroLines (s : State) (l base n a : Nat) :
    padByte ((s.zeroLines l base n).tile l).scratch a =
      if base ≤ a ∧ a < base + 64 * n then some 0#8 else padByte (s.tile l).scratch a := by
  induction n with
  | zero => exact (if_neg (by omega)).symm
  | succ n ih =>
    rw [State.zeroLines_succ, State.storeBytes_scratch]
    by_cases hline : base + 64 * n ≤ a ∧ a < base + 64 * n + 64
    · obtain ⟨i, rfl⟩ := Nat.exists_eq_add_of_le hline.1
      rw [padByte_padWrite _ _ i _ (by simp only [List.length_replicate]; omega), List.getElem_replicate, if_pos (by omega)]
    · rw [padByte_padWrite_outside _ _ _ _ (by simp only [List.length_replicate]; omega), ih]
      exact if_congr (by omega) rfl rfl

/-- What the end of a scrub of the owner's own leaves: the range is cleared, the tile holds no scrub, and the count of lines can be read. -/
def State.scrubEnded (s : State) (l : Nat) (x : Scrub) : State :=
  ((s.zeroLines l x.base x.lines).onTile l (fun t => { t with scrub := none, scrubState := 2 })).setWord 0x800502 (8192 + l) 0 0 x.lines

theorem State.scrubEnded_tile (s : State) (l : Nat) (x : Scrub) :
    (s.scrubEnded l x).tile l = { (s.zeroLines l x.base x.lines).tile l with scrub := none, scrubState := 2 } :=
  (s.zeroLines l x.base x.lines).tile_onTile_same l (fun t => { t with scrub := none, scrubState := 2 })

theorem State.scrubEnded_tile_other (s : State) (x : Scrub) {k : Nat} (h : k ≠ l) : (s.scrubEnded l x).tile k = s.tile k :=
  ((s.zeroLines l x.base x.lines).tile_onTile_other l k (fun t => { t with scrub := none, scrubState := 2 }) h).trans
    ((s.onlyTile_zeroLines l x.base x.lines).2 k h)

/-- A scrub that no keeper ordered ends without an answer (05 R138). -/
theorem exec_scrubComplete_owner {x : Scrub} (hs : s.live) (hscrub : (s.tile l).scrub = some x) (howner : x.order = none) :
    exec (.scrubComplete l) s = .next (s.quiet.scrubEnded l x) := by
  have hscrub' : (s.quiet.tile l).scrub = some x := hscrub
  have hrun : Runs (.scrubComplete l) s (s.quiet.scrubEnded l x) :=
    runs_when hs (exec_scrubComplete l s) (by rw [hscrub']; rfl) (by simp only [hscrub', howner]; rfl)
  have hframe := (s.quiet.onlyTile_zeroLines l x.base x.lines).1
  exact hrun.exec_eq (congrArg State.pending hframe :) (congrArg State.build hframe :) (congrArg (·.boot.inReset) hframe :)

end

end Sys2Proof.Machine
end

section
/-!
# PROOFS. 10, power: the states of a domain, the checks of its rejoin, the self-test of a combining ALU
-/
namespace Sys2Proof.Machine

theorem exec_dozeDelayExpiry (u : UnitId) (s : State) : exec (.dozeDelayExpiry u) s = execDozeDelayExpiry u s := rfl
theorem exec_dozeWake (u : UnitId) (s : State) : exec (.dozeWake u) s = execDozeWake u s := rfl
theorem exec_goingDownEnd (u : UnitId) (s : State) : exec (.goingDownEnd u) s = execGoingDownEnd u s := rfl
theorem exec_wakingComplete (u : UnitId) (s : State) : exec (.wakingComplete u) s = execWakingComplete u s := rfl
theorem exec_rejoinCheck (u : UnitId) (g : BitVec 64) (e : BitVec 32) (s : State) :
    exec (.rejoinCheck u g e) s = execRejoinCheck u g e s := rfl
theorem exec_aluSelfTestComplete (u : UnitId) (passed : Bool) (s : State) :
    exec (.aluSelfTestComplete u passed) s = execAluSelfTestComplete u passed s := rfl

section
variable {s : State} {u : UnitId} {d : Nat}

/-! ## The states of a domain (R277, R280, R282) -/

/-- An idle domain enters DOZE where the delay is set and DOZE is permitted (R277). -/
theorem runs_dozeDelayExpiry (hs : s.live) (hd : domainOf u = some d) (hactive : (s.dom d).st = .active) (hset : s.val 0x041201 ≠ 0)
    (hidle : s.quiet.idleFor d (s.val 0x041201) = true) (hmay : s.quiet.domainMay d 1 = true) :
    Runs (.dozeDelayExpiry u) s (s.quiet.onDom d (fun x => { x with st := .doze, since := s.time })) := by
  refine runs_when hs (exec_dozeDelayExpiry u s) ?_ (by rw [hd]; rfl)
  rw [hd]
  simp only [Bool.and_eq_true_iff]
  exact ⟨⟨⟨beq_iff_eq.mpr hactive, bne_iff_ne.mpr hset⟩, hidle⟩, hmay⟩

/-- A wake makes a domain in DOZE ACTIVE at once. -/
theorem State.wake_doze (h : (s.dom d).st = .doze) : s.wake d = s.onDom d (fun x => { x with st := .active, since := s.time }) := by
  simp only [State.wake, h]

theorem runs_dozeWake (hs : s.live) (hd : domainOf u = some d) (hdoze : (s.dom d).st = .doze) :
    Runs (.dozeWake u) s (s.quiet.onDom d (fun x => { x with st := .active, since := s.time })) := by
  have hdoze' : (s.quiet.dom d).st = .doze := hdoze
  refine runs_when hs (exec_dozeWake u s) ?_ (by rw [hd]; exact State.wake_doze hdoze')
  rw [State.domState, hd]
  exact beq_iff_eq.mpr hdoze

/-- GOING_DOWN ends in SLEEP, and what the units still held is counted (R277). -/
theorem runs_goingDownEnd (hs : s.live) (hd : domainOf u = some d) (hdown : (s.dom d).st = .goingDown)
    (hdue : s.quiet.domainIdle d = true ∨ (s.dom d).since + 8000 ≤ s.time) :
    let left := ((rejoinUnits d).map s.quiet.unitHolds).sum
    let q := s.quiet.enterSleep d
    Runs (.goingDownEnd u) s (if left = 0 then q else q.bump 0x802004 (instOf (domainUnit d)) 0 0 0 16 left) := by
  refine runs_when hs (exec_goingDownEnd u s) ?_ (by rw [hd])
  rw [hd]
  exact Bool.and_eq_true_iff.mpr ⟨beq_iff_eq.mpr hdown, Bool.or_eq_true_iff.mpr (hdue.imp_right decide_eq_true)⟩

/-- WAKING ends 40,000 slots after the power came, outside the start-up (R277). -/
theorem exec_wakingComplete_due (hs : s.live) (hd : domainOf u = some d) (hwaking : (s.dom d).st = .waking)
    (hsupply : (s.dom d).supplyReset = false) (hup : s.boot.progress = 3) (hdue : (s.dom d).poweredAt + 40000 ≤ s.time) :
    exec (.wakingComplete u) s = .next (s.quiet.enterRejoining d) := by
  refine (runs_when hs (exec_wakingComplete u s) ?_ (by rw [hd])).exec_eq rfl rfl rfl
  rw [hd]
  simp only [Bool.and_eq_true_iff]
  exact ⟨⟨⟨beq_iff_eq.mpr hwaking, congrArg (!·) hsupply⟩, beq_iff_eq.mpr hup⟩, decide_eq_true hdue⟩

/-- A domain that rejoins has its first attempt before it. -/
theorem State.enterRejoining_dom (s : State) (d : Nat) : (s.enterRejoining d).dom d =
    { s.dom d with st := .rejoining, since := s.time, attempts := 0, matched := [], epochAt := s.ctl.epoch } :=
  State.dom_onDom_same _ _ _

theorem State.enterRejoining_dom_other (s : State) {d k : Nat} (h : k ≠ d) : (s.enterRejoining d).dom k = s.dom k :=
  State.dom_onDom_other _ _ _ _ h

/-- K0 sends its time to every unit of a domain that rejoins (01 R26). -/
theorem State.enterRejoining_load (s : State) (d : Nat) : (s.enterRejoining d).loads.find d =
    some { value := BitVec.ofNat 64 s.time, left := (rejoinUnits d).map UnitId.code } :=
  FMap.find_put_same _ _ _

/-! ## The checks of the rejoining units (R282) -/

/-- The units of a domain that have matched, with one more. -/
def Domain.matchedWith (x : Domain) (u : UnitId) : List Nat := if x.matched.contains u.code then x.matched else x.matched ++ [u.code]

/-- A unit whose tables match is noted. -/
def State.noteMatch (s : State) (d : Nat) (u : UnitId) : State := s.onDom d (fun x => { x with matched := (s.dom d).matchedWith u })

/-- A mismatch makes the checks of a domain begin again. -/
def State.checkAgain (s : State) (d : Nat) : State := s.onDom d (fun x => { x with attempts := x.attempts + 1, matched := [] })

/-- A unit of a rejoining domain is checked once it has loaded the time, for three attempts. -/
theorem runs_rejoinCheck (g : BitVec 64) (e : BitVec 32) (hs : s.live) (hd : domainOf u = some d) (hst : (s.dom d).st = .rejoining)
    (htries : (s.dom d).attempts < 3) (hmember : u ∈ rejoinUnits d) (hloaded : s.quiet.loadDue u = false) :
    Runs (.rejoinCheck u g e) s (s.quiet.rejoinCheck d u g e) := by
  refine runs_when hs (exec_rejoinCheck u g e s) ?_ (by rw [hd])
  rw [hd]
  simp only [Bool.and_eq_true_iff]
  exact ⟨⟨⟨beq_iff_eq.mpr hst, decide_eq_true htries⟩, List.contains_iff_mem.mpr hmember⟩, congrArg (!·) hloaded⟩

variable {g : BitVec 64} {e : BitVec 32} (hepoch : (s.dom d).epochAt = s.ctl.epoch)
include hepoch

theorem State.rejoinCheck_match (hg : g = s.tableDigest u) (he : e = s.ctl.epoch) : s.rejoinCheck d u g e =
    if (rejoinUnits d).all (fun v => ((s.dom d).matchedWith u).contains v.code) then (s.noteMatch d u).domainActive d
    else s.noteMatch d u :=
  (if_neg (not_not_intro hepoch)).trans (if_pos ⟨hg, he⟩)

/-- One unit that has not matched keeps the domain rejoining. -/
theorem State.rejoinCheck_noted (hg : g = s.tableDigest u) (he : e = s.ctl.epoch)
    (hmore : ∃ v, v ∈ rejoinUnits d ∧ v.code ∉ (s.dom d).matchedWith u) : s.rejoinCheck d u g e = s.noteMatch d u := by
  obtain ⟨v, hv, hopen⟩ := hmore
  exact (State.rejoinCheck_match hepoch hg he).trans
    (if_neg fun hall => hopen (List.contains_iff_mem.mp (List.all_eq_true.mp hall v hv)))

/-- With its last unit the domain is ACTIVE. -/
theorem State.rejoinCheck_last (hg : g = s.tableDigest u) (he : e = s.ctl.epoch)
    (hall : ∀ v, v ∈ rejoinUnits d → v.code ∈ (s.dom d).matchedWith u) :
    s.rejoinCheck d u g e = (s.noteMatch d u).domainActive d :=
  (State.rejoinCheck_match hepoch hg he).trans (if_pos (List.all_eq_true.mpr fun v hv => List.contains_iff_mem.mpr (hall v hv)))

/-- A unit that does not match: the third failure is reported. -/
theorem State.rejoinCheck_mismatch (h : g ≠ s.tableDigest u ∨ e ≠ s.ctl.epoch) : s.rejoinCheck d u g e =
    if (s.dom d).attempts + 1 = 3 then (s.checkAgain d).raise .chip 5 0x084 1023 (ctxMachine d 3) else s.checkAgain d :=
  (if_neg (not_not_intro hepoch)).trans (if_neg fun hboth => h.elim (· hboth.1) (· hboth.2))

end

/-! ## The self-test of a combining ALU (06 R173) -/

theorem runs_aluSelfTestComplete {s : State} {u : UnitId} (passed : Bool) (hs : s.live) (htested : (s.sw u).alu = 2) :
    Runs (.aluSelfTestComplete u passed) s (if passed then s.quiet.onSw u (fun w => { w with aluReady := true })
      else (s.quiet.onSw u (fun w => { w with alu := 1, aluReady := false })).raise u 3 0x044 1023 (ctxColl 0 0)) :=
  runs_when hs (exec_aluSelfTestComplete u passed s) (beq_iff_eq.mpr htested) rfl

end Sys2Proof.Machine
end

section
/-!
# PROOFS. 10, limits: the supply and temperature sensors, the windows of the power cap
-/
namespace Sys2Proof.Machine

theorem exec_supplyWarning (d r : Nat) (s : State) : exec (.supplyWarning d r) s = execSupplyWarning d r s := rfl
theorem exec_supplyWarningClear (d r : Nat) (s : State) : exec (.supplyWarningClear d r) s = execSupplyWarningClear d r s := rfl
theorem exec_supplyReset (d r : Nat) (s : State) : exec (.supplyReset d r) s = execSupplyReset d r s := rfl
theorem exec_supplyResetRelease (d r : Nat) (s : State) : exec (.supplyResetRelease d r) s = execSupplyResetRelease d r s := rfl
theorem exec_thermalThrottle (i : Nat) (r : Int) (s : State) : exec (.thermalThrottle i r) s = execThermalThrottle i r s := rfl
theorem exec_thermalTrip (i : Nat) (r : Int) (s : State) : exec (.thermalTrip i r) s = execThermalTrip i r s := rfl
theorem exec_throttleEnd (s : State) : exec .throttleEnd s = execThrottleEnd s := rfl
theorem exec_plCapChange (v : BitVec 8) (s : State) : exec (.plCapChange v) s = execPlCapChange v s := rfl
theorem exec_powerEmergency (s : State) : exec .powerEmergency s = execPowerEmergency s := rfl
theorem exec_powerEmergencyRelease (s : State) : exec .powerEmergencyRelease s = execPowerEmergencyRelease s := rfl
theorem exec_powerEstimateWindow (s : State) : exec .powerEstimateWindow s = execPowerEstimateWindow s := rfl

/-! ## Supply (R284, R285) -/

/-- A reading at or above the release of the warning leaves the time from which that release counts. -/
theorem State.readSupply_warnAt {s : State} {d r : Nat} (h : s.val 0x041103 * 100 + 100 ≤ s.supplyOf r) :
    (s.readSupply d r).lim.warnAt = s.lim.warnAt := if_neg (Nat.not_lt.mpr h)

/-- A reading at or above the warning threshold leaves the time from which the release of the reset counts. -/
theorem State.readSupply_lowAt {s : State} {d r : Nat} (h : s.val 0x041103 * 100 ≤ s.supplyOf r) :
    (s.readSupply d r).lim.lowAt = s.lim.lowAt := if_neg (Nat.not_lt.mpr h)

section
variable {s : State} {d r : Nat}

theorem runs_supplyWarning (hs : s.live) (hlow : s.quiet.supplyOf r < s.val 0x041103 * 100) (hfirst : s.lim.warn.contains d = false) :
    let q := s.quiet.readSupply d r
    Runs (.supplyWarning d r) s
      (({ q with lim := { q.lim with warn := s.lim.warn ++ [d] } }.stretch d true).raise (supplyUnit d) 12 0x0A0 1023 (ctxValue r)) :=
  runs_up hs (exec_supplyWarning d r s) (if_pos ⟨hlow, congrArg (!·) hfirst⟩)

theorem runs_supplyWarningClear (hs : s.live) (hhigh : s.val 0x041103 * 100 + 100 ≤ s.quiet.supplyOf r)
    (hlong : s.lim.warnAt.get 0 d + 20000 ≤ s.time) (hwarned : s.lim.warn.contains d = true) :
    let q := s.quiet.readSupply d r
    Runs (.supplyWarningClear d r) s ({ q with lim := { q.lim with warn := s.lim.warn.filter (fun x => x != d) } }.stretch d false) := by
  refine runs_up hs (exec_supplyWarningClear d r s) (if_pos ⟨hhigh, ?_, hwarned⟩)
  rw [State.readSupply_warnAt (s := s.quiet) hhigh]
  exact hlong

/-- A reading that ends no warning is only stored. -/
theorem runs_supplyWarningClear_stored (hs : s.live) (hhigh : s.val 0x041103 * 100 + 100 ≤ s.quiet.supplyOf r)
    (hnone : s.lim.warn.contains d = false ∨ s.time < s.lim.warnAt.get 0 d + 20000) :
    Runs (.supplyWarningClear d r) s (s.quiet.readSupply d r) := by
  refine runs_up hs (exec_supplyWarningClear d r s) (if_neg ?_)
  rw [State.readSupply_warnAt (s := s.quiet) hhigh]
  rintro ⟨-, hlong, hwarned⟩
  exact hnone.elim (fun h => Bool.false_ne_true (h.symm.trans hwarned)) (fun h => Nat.not_lt.mpr hlong h)

/-- In the control domain the reset of the supply is a fatal fault (R285). -/
theorem runs_supplyReset_control (hs : s.live) (hd : 140 ≤ d) (hlow : s.quiet.supplyOf r < s.val 0x041104 * 100)
    (hfirst : s.lim.reset.contains d = false) :
    let q := s.quiet.readSupply d r
    Runs (.supplyReset d r) s
      ({ q with lim := { q.lim with reset := s.lim.reset ++ [d] } }.raise .chip 12 0x0A2 1023 (ctxValue r)) :=
  runs_up hs (exec_supplyReset d r s) ((if_pos ⟨hlow, congrArg (!·) hfirst⟩).trans (if_pos hd))

theorem runs_supplyResetRelease (hs : s.live) (hhigh : s.val 0x041103 * 100 ≤ s.quiet.supplyOf r)
    (hlong : s.lim.lowAt.get 0 d + 20000 ≤ s.time) (hreset : s.lim.reset.contains d = true) (hd : d < 140)
    (hheld : (s.dom d).supplyReset = true) :
    let q := s.quiet.readSupply d r
    Runs (.supplyResetRelease d r) s (({ q with lim := { q.lim with reset := s.lim.reset.filter (fun x => x != d) } }.onDom d
      (fun x => { x with supplyReset := false })).enterRejoining d) := by
  refine runs_up hs (exec_supplyResetRelease d r s) ((if_pos ⟨hhigh, ?_, hreset⟩).trans (if_pos ⟨hd, hheld⟩))
  rw [State.readSupply_lowAt (s := s.quiet) hhigh]
  exact hlong

end

/-! ## Temperature (R286, R287) -/

section
variable {s : State} {i : Nat} {r : Int}

/-- A reading of an input that the build has is kept, with the time from which the end of the throttle counts (log entry 154). -/
theorem State.readThermal_used (hi : i < s.build.thermalInputs) :
    s.readThermal i r = { s with lim := { s.lim with
      thermal := s.lim.thermal.put i r
      hotAt := if 16 * (s.val 0x041101 : Int) - 80 < s.thermalOf r then s.time else s.lim.hotAt } } :=
  if_pos hi

/-- What the trip does to the domains that it finds: each has the target SLEEP, and one that is not asleep is gated, a hall with a
linked pavilion once it has announced that it goes down (R287, log entry 83). -/
def State.gateDomains (s : State) (on : List Nat) : State :=
  s.doms.foldl (fun s x =>
    let s := s.onDom x.1 (fun y => { y with target := 2 })
    if x.2.st = .sleep then s
    else if on.any (fun p => 136 + p / 4 == x.1) then s.onDom x.1 (fun y => { y with st := .goingDown, since := s.time - 6000 })
    else s.enterSleep x.1) s

theorem runs_thermalThrottle (hs : s.live) (hi : i < s.build.thermalInputs) (hhot : 16 * (s.val 0x041101 : Int) ≤ s.quiet.thermalOf r)
    (hfirst : s.lim.throttle = false) :
    let q := s.quiet.readThermal i r
    let a : State := { q with lim := { q.lim with throttle := true, stage := max s.lim.stage 2, above := 0, below := 0 } }
    Runs (.thermalThrottle i r) s ((a.changeRate a.heldParts 2 none).raise .chip 13 0x0A3 1023 (ctxValue (patternOf 16 r))) := by
  have hi' : i < s.quiet.build.thermalInputs := hi
  intro q a
  refine runs_up hs (exec_thermalThrottle i r s) ?_
  simp only [a, q, State.readThermal_used hi']
  exact if_pos ⟨hi, hhot, congrArg (!·) hfirst⟩

theorem runs_thermalTrip (hs : s.live) (hi : i < s.build.thermalInputs) (hhot : 16 * (s.val 0x041102 : Int) ≤ s.quiet.thermalOf r)
    (hfirst : s.lim.tripped = false) :
    let q := s.quiet.readThermal i r
    let a := s.quiet.linked.foldl (fun (s : State) p => s.onPav p (fun v => { v with goingDown := 8 }))
      { q with lim := { q.lim with tripped := true } }
    Runs (.thermalTrip i r) s ((a.gateDomains s.quiet.linked).raise .chip 13 0x0A4 1023 (ctxValue (patternOf 16 r))) := by
  have hi' : i < s.quiet.build.thermalInputs := hi
  intro q a
  refine runs_up hs (exec_thermalTrip i r s) ?_
  simp only [a, q, State.readThermal_used hi']
  exact if_pos ⟨hi, hhot, congrArg (!·) hfirst⟩

theorem runs_throttleEnd (hs : s.live) (hon : s.lim.throttle = true) (hlong : s.lim.hotAt + 20000000 ≤ s.time)
    (hcool : s.quiet.coolTo (16 * (s.val 0x041101 : Int) - 80) = true) :
    Runs .throttleEnd s { s.quiet with lim := { s.lim with throttle := false, below := 0 } }.returnRate := by
  refine runs_when hs (exec_throttleEnd s) ?_ rfl
  simp only [Bool.and_eq_true_iff]
  exact ⟨⟨hon, decide_eq_true hlong⟩, hcool⟩

end

/-! ## The windows of the power cap (R288) -/

/-- The estimate of the window that ends, a free value (log entry 30). -/
def State.windowEstimate (s : State) : Nat := (Config.freeBits 10 s.free).toNat

/-- The windows in a row that have stayed within nine tenths of the cap, with the one that ends. -/
def State.windowsLow (s : State) : Nat := if 10 * s.windowEstimate ≤ 9 * s.capInForce then s.lim.below + 1 else 0

/-- The state with the estimate and the counts of the window that ends, before its stage is judged. -/
def State.windowCounted (s : State) : State :=
  { s with
    free := s.free + 1
    lim := { s.lim with estimate := s.windowEstimate, above := s.lim.above + 1, below := s.windowsLow
                        unmet := s.lim.unmet && decide (s.capInForce < s.windowEstimate) } }

/-- Another stage, whose own windows count from 0. -/
def State.toStage (s : State) (n : Nat) : State := { s with lim := { s.lim with stage := n, above := 0 } }

/-- An earlier stage, with the low windows counted anew. -/
def State.backTo (s : State) (n : Nat) : State := { s with lim := { s.lim with stage := n, above := 0, below := 0 } }

section
variable {s : State}

/-- What a window does, case by case. -/
theorem State.powerWindow_eq (s : State) : s.powerWindow =
    let w := s.windowCounted
    if s.lim.stage = 0 then if s.capInForce < s.windowEstimate then w.toStage 1 else w
    else if s.capInForce < s.windowEstimate ∧ s.lim.stage < 3 ∧ 4 ≤ s.lim.above + 1 then
      let a := w.toStage (s.lim.stage + 1)
      if s.lim.stage + 1 = 3 then a.changeRate a.heldParts 2 none else a
    else if s.capInForce < s.windowEstimate ∧ s.lim.stage = 3 ∧ 64 ≤ s.lim.above + 1 ∧ !w.lim.unmet then
      { w with lim := { w.lim with unmet := true } }.raise .chip 0 0x0A5 1023 (ctxValue s.windowEstimate)
    else if 16 ≤ s.windowsLow ∧ s.leastStage < s.lim.stage then
      let a := w.backTo (s.lim.stage - 1)
      if s.lim.stage = 3 then a.returnRate else a
    else w := by
  simp only [State.powerWindow, decide_eq_true_eq]
  rfl

theorem State.powerWindow_stage0 (hstage : s.lim.stage = 0) :
    s.powerWindow = if s.capInForce < s.windowEstimate then s.windowCounted.toStage 1 else s.windowCounted :=
  s.powerWindow_eq.trans (if_pos hstage)

/-- After four windows at a stage the next window above the cap takes the next one, and stage 3 half rate. -/
theorem State.powerWindow_up {n : Nat} (hexceeds : s.capInForce < s.windowEstimate) (hstage : s.lim.stage = n) (hpos : n ≠ 0)
    (hlt : n < 3) (hheld : 3 ≤ s.lim.above) :
    s.powerWindow =
      let a := s.windowCounted.toStage (n + 1)
      if n + 1 = 3 then a.changeRate a.heldParts 2 none else a := by
  subst hstage
  rw [State.powerWindow_eq, if_neg hpos, if_pos ⟨hexceeds, hlt, Nat.succ_le_succ hheld⟩]

/-- A window within the cap, at a stage, can only take that stage back. -/
theorem State.powerWindow_within (hwithin : s.windowEstimate ≤ s.capInForce) (hpos : s.lim.stage ≠ 0) :
    s.powerWindow =
      if 16 ≤ s.windowsLow ∧ s.leastStage < s.lim.stage then
        let a := s.windowCounted.backTo (s.lim.stage - 1)
        if s.lim.stage = 3 then a.returnRate else a
      else s.windowCounted := by
  have hno := Nat.not_lt.mpr hwithin
  rw [State.powerWindow_eq, if_neg hpos, if_neg (fun h => hno h.1), if_neg (fun h => hno h.1)]

/-- A window above the cap leaves CAP_UNMET as it was. -/
theorem State.windowCounted_above (h : s.capInForce < s.windowEstimate) : s.windowCounted =
    { s with free := s.free + 1, lim := { s.lim with
      estimate := s.windowEstimate, above := s.lim.above + 1, below := s.windowsLow } } := by
  simp only [State.windowCounted, decide_eq_true h, Bool.and_true]

/-- The first window within the cap ends CAP_UNMET (log entry 84). -/
theorem State.windowCounted_within (h : s.windowEstimate ≤ s.capInForce) : s.windowCounted =
    { s with free := s.free + 1, lim := { s.lim with
      estimate := s.windowEstimate, above := s.lim.above + 1, below := s.windowsLow, unmet := false } } := by
  simp only [State.windowCounted, decide_eq_false (Nat.not_lt.mpr h), Bool.and_false]

theorem runs_powerEstimateWindow {t : State} (hs : s.live) (ht : s.quiet.powerWindow = t) : Runs .powerEstimateWindow s t :=
  runs_up hs (exec_powerEstimateWindow s) ht

end

end Sys2Proof.Machine
end

section
/-!
# PROOFS. The statements of 10 on endings, domains and limits, settled
-/
namespace Sys2Proof.Machine

/-- Settles O53: the commands by their guards, the bytes of a scrub by induction on its lines. -/
theorem partitionEnding : Obligations.PartitionEnding := by
  intro s hs
  refine ⟨fun u q => runs_stopBitSet hs, fun l => runs_abortedReport hs, fun l d => runs_scrubTimeout hs, fun l x hscrub howner => ?_⟩
  have htile := s.quiet.scrubEnded_tile l x
  have hbyte (a : Nat) : padByte ((s.quiet.scrubEnded l x).tile l).scratch a =
      if x.base ≤ a ∧ a < x.base + 64 * x.lines then some 0#8 else padByte (s.tile l).scratch a := by
    rw [htile]
    exact s.quiet.padByte_zeroLines l x.base x.lines a
  refine ⟨_, exec_scrubComplete_owner hs hscrub howner, by rw [htile], by rw [htile],
    fun k hk => s.quiet.scrubEnded_tile_other x hk, fun a hlo hhi => ?_, fun a hout => ?_⟩
  · rw [hbyte, if_pos ⟨hlo, hhi⟩]
  · rw [hbyte, if_neg (by omega)]

/-- Settles O54: each state by its own command, the rejoin by whether the unit matches and whether it is the last. -/
theorem domainStates : Obligations.DomainStates := by
  intro s u d hs hd
  refine ⟨fun hactive hset hidle hmay => ?doze, fun hdoze => ?wake, runs_goingDownEnd hs hd,
    fun hwaking hsupply hup hdue => ?waking, fun g e hst htries hmember hloaded hepoch => ?rejoin, fun htested => ?alu⟩
  case doze => exact (runs_dozeDelayExpiry hs hd hactive hset hidle hmay).exec_eq rfl rfl rfl
  case wake => exact (runs_dozeWake hs hd hdoze).exec_eq rfl rfl rfl
  case waking =>
    have hdom := s.quiet.enterRejoining_dom d
    exact ⟨_, exec_wakingComplete_due hs hd hwaking hsupply hup hdue, congrArg Domain.st hdom, congrArg Domain.attempts hdom,
      fun k hk => s.quiet.enterRejoining_dom_other hk, rfl, s.quiet.enterRejoining_load d⟩
  case rejoin =>
    have hepoch' : (s.quiet.dom d).epochAt = s.quiet.ctl.epoch := hepoch
    have hrun {t : State} (h : s.quiet.rejoinCheck d u g e = t) : Runs (.rejoinCheck u g e) s t :=
      h ▸ runs_rejoinCheck g e hs hd hst htries hmember hloaded
    refine ⟨fun hg he hmore => hrun (State.rejoinCheck_noted hepoch' hg he hmore),
      fun hg he hall => hrun (State.rejoinCheck_last hepoch' hg he hall), fun hne => ⟨fun hlt => hrun ?_, fun hlast => hrun ?_⟩⟩
    · exact (State.rejoinCheck_mismatch hepoch' hne).trans (if_neg fun h => Nat.ne_of_lt hlt (Nat.succ.inj h))
    · exact (State.rejoinCheck_mismatch hepoch' hne).trans (if_pos (congrArg (· + 1) hlast))
  case alu => exact ⟨(runs_aluSelfTestComplete true hs htested).exec_eq rfl rfl rfl, runs_aluSelfTestComplete false hs htested⟩

/-- Settles O55: each sensor by the limit that its reading crosses. -/
theorem sensorCommands : Obligations.SensorCommands := by
  intro s hs
  refine ⟨fun d r => ⟨rfl, runs_supplyWarning hs, runs_supplyWarningClear hs, fun hnone hhigh => ?_, runs_supplyReset_control hs,
    runs_supplyResetRelease hs⟩, fun i r hi => ⟨?_, runs_thermalThrottle hs hi, runs_thermalTrip hs hi⟩, runs_throttleEnd hs⟩
  · exact runs_supplyWarningClear_stored hs hhigh hnone
  · exact State.readThermal_used (s := s.quiet) hi

/-- Settles O56: the inputs by their commands, a window by its stage and by whether it exceeds the cap. -/
theorem powerLimits : Obligations.PowerLimits := by
  intro s hs
  have hwindow {t : State} (h : s.quiet.powerWindow = t) : Runs .powerEstimateWindow s t := runs_powerEstimateWindow hs h
  refine ⟨fun v => (runs_up hs (exec_plCapChange v s) rfl).exec_eq rfl rfl rfl, ?emergency,
    (runs_up hs (exec_powerEmergencyRelease s) rfl).exec_eq rfl rfl rfl, fun hwithin hstage => hwindow ?idle,
    fun hexceeds hstage => hwindow ?first, fun hexceeds hstage hheld => hwindow ?second, fun hexceeds hstage hheld => hwindow ?third,
    fun hwithin hstage hlow => hwindow ?stays, fun hwithin hlow hstage hleast => hwindow ?down⟩
  case emergency =>
    refine ⟨_, (runs_up hs (exec_powerEmergency s) rfl).exec_eq rfl rfl rfl, rfl, Nat.le_max_right _ _,
      fun h => ⟨Nat.max_eq_left h, if_neg (Nat.not_lt.mpr h)⟩, rfl⟩
  case idle =>
    exact ((State.powerWindow_stage0 (s := s.quiet) hstage).trans (if_neg (Nat.not_lt.mpr hwithin))).trans
      (State.windowCounted_within (s := s.quiet) hwithin)
  case first =>
    exact ((State.powerWindow_stage0 (s := s.quiet) hstage).trans (if_pos hexceeds)).trans
      (congrArg (State.toStage · 1) (State.windowCounted_above (s := s.quiet) hexceeds))
  case second =>
    exact ((State.powerWindow_up (s := s.quiet) hexceeds hstage (by decide) (by decide) hheld).trans (if_neg (by decide))).trans
      (congrArg (State.toStage · 2) (State.windowCounted_above (s := s.quiet) hexceeds))
  case third =>
    exact ((State.powerWindow_up (s := s.quiet) hexceeds hstage (by decide) (by decide) hheld).trans (if_pos rfl)).trans
      (congrArg (fun w => (w.toStage 3).changeRate (w.toStage 3).heldParts 2 none)
        (State.windowCounted_above (s := s.quiet) hexceeds))
  case stays =>
    exact ((State.powerWindow_within (s := s.quiet) hwithin (Nat.ne_of_gt hstage)).trans
      (if_neg fun h => Nat.not_le.mpr hlow h.1)).trans (State.windowCounted_within (s := s.quiet) hwithin)
  case down =>
    have hne : s.lim.stage ≠ 3 := by omega
    exact ((State.powerWindow_within (s := s.quiet) hwithin (Nat.ne_of_gt (Nat.zero_lt_of_lt hleast))).trans
      ((if_pos ⟨hlow, hleast⟩).trans (if_neg hne))).trans
      (congrArg (State.backTo · (s.lim.stage - 1)) (State.windowCounted_within (s := s.quiet) hwithin))

end Sys2Proof.Machine
end

section
/-!
# PROOFS. 11, fault collection: the timers of the fault sources, the steps of K0's reactions, the first-fault clear
-/
namespace Sys2Proof.Machine

theorem exec_repeatTimerExpiry (u : UnitId) (n : Nat) (s : State) :
    exec (.repeatTimerExpiry u n) s = execRepeatTimerExpiry u n s := rfl
theorem exec_outboxRescue (u : UnitId) (s : State) : exec (.outboxRescue u) s = execOutboxRescue u s := rfl
theorem exec_forcedOccurrence (u : UnitId) (s : State) : exec (.forcedOccurrence u) s = execForcedOccurrence u s := rfl
theorem exec_reactionStep (s : State) : exec .reactionStep s = execReactionStep s := rfl
theorem exec_firstFaultClear (p : Path) (k : Nat) (v : BitVec 64) (s : State) :
    exec (.firstFaultClear p k v) s = execFirstFaultClear p k v s := rfl

/-! ## The sources (R294 to R296, R305) -/

section
variable {s : State} {u : UnitId}

theorem runs_repeatTimerExpiry {n : Nat} (hs : s.live) (hdue : s.quiet.slotDue u n = true) :
    Runs (.repeatTimerExpiry u n) s (s.quiet.onSrc u (fun f => expireSlot f n (s.quiet.sourceTime u) (s.val 0x300201))) :=
  runs_when hs (exec_repeatTimerExpiry u n s) hdue rfl

/-- A keeper sends the messages of a unit that has been cut off from the halls for 2,000 slots (R296). -/
theorem runs_outboxRescue (hs : s.live) (hcut : s.quiet.hallsCut u = true) (hlong : (s.node u).joinedAt + 2000 ≤ s.time)
    (hsome : (s.src u).outbox ≠ []) : Runs (.outboxRescue u) s (s.quiet.rescueOutbox u) := by
  have hfull : (!(s.src u).outbox.isEmpty) = true := by simpa using hsome
  exact runs_when hs (exec_outboxRescue u s)
    (Bool.and_eq_true_iff.mpr ⟨Bool.and_eq_true_iff.mpr ⟨hcut, decide_eq_true hlong⟩, hfull⟩) rfl

/-- The force that is left at a source after one occurrence of it: the next is due 16 slots later (R305). -/
def Force.rest (f : Force) : Option Force := if f.left ≤ 1 then none else some { f with left := f.left - 1, next := f.next + 16 }

theorem runs_forcedOccurrence {f : Force} (hs : s.live) (hforce : (s.src u).force = some f) (hdue : f.next ≤ s.quiet.sourceTime u) :
    Runs (.forcedOccurrence u) s ((s.quiet.onSrc u (fun x => { x with force := f.rest })).forceOnce u f) := by
  have hforce' : (s.quiet.src u).force = some f := hforce
  refine runs_when hs (exec_forcedOccurrence u s) ?_ ?_
  · rw [hforce']
    exact decide_eq_true hdue
  · rw [hforce']
    rfl

end

/-! ## The reactions (R301, R302) -/

section
variable {s : State} {r : Reaction}

/-- K0 reacts while no change-over runs and a reaction runs or waits. -/
theorem runs_reactionStep {t : State} (hs : s.live) (hkeepers : s.fw.changing = none)
    (hwork : s.react.running.isSome = true ∨ s.react.queue ≠ [] ∨ s.react.suspended ≠ []) (ht : s.quiet.react1 = t) :
    Runs .reactionStep s t := by
  refine runs_when hs (exec_reactionStep s) ?_ ht
  have hguard : (s.fw.changing.isNone && (s.react.running.isSome || !s.react.queue.isEmpty || !s.react.suspended.isEmpty)) = true := by
    simpa [hkeepers, or_assoc] using hwork
  exact hguard

/-- With no fatal reaction and none begun before it, the head of the queue takes its first step (R301). -/
theorem State.react1_queued {rest : List Reaction} (hst : s.react.st ≠ 3) (hrunning : s.react.running = none)
    (hsuspended : s.react.suspended = []) (hqueue : s.react.queue = r :: rest) (hcontained : s.react.queue.find? (·.fatal) = none) :
    s.react1 =
      let y := ({ s with react := { s.react with st := 1, running := some r, queue := rest } } : State).reactStep r
      match y.2 with
      | some n => { y.1 with react := { y.1.react with running := some { r with step := n } } }
      | none => { y.1 with react := { y.1.react with running := none, st := if rest.isEmpty then 0 else 1 } } := by
  simp only [State.react1, if_neg hst, hcontained, hrunning]
  simp only [hsuspended, hqueue, List.isEmpty_nil, true_and] <;> rfl

/-- The first fatal reaction of the queue takes its first step, and subsumes every contained one (R302). -/
theorem State.react1_fatal (hst : s.react.st ≠ 3) (hfatal : s.react.queue.find? (·.fatal) = some r) :
    s.react1 =
      let n := (s.react.queue.filter (fun y => !y.fatal)).length + s.react.suspended.length + s.react.running.toList.length
      let y := ({ s with react := { s.react with
        st := 3, queue := [], suspended := [], running := some r, subsumed := s.react.subsumed + n } } : State).fatalStep 0
      { y.1 with react := { y.1.react with running := y.2.map (fun n => { r with step := n }) } } := by
  simp only [State.react1, if_neg hst, hfatal]

end

/-! ## The first-fault clear (R299; 09 R250) -/

/-- The row of the first-fault clear in the table of objects: one word of the chip, for a privileged session, which a 1 triggers. -/
def firstFaultObj : Obj := ⟨0x300402, [0], .priv, 1, 1, [0], .one, .immediate⟩

theorem findObj_firstFault : findObj 0x300402 = some firstFaultObj := rfl

/-- With a driver attached and nothing staged, a privileged session may clear the first-fault record. -/
theorem State.allows_firstFaultClear {s : State} {w : Who} {i : Nat} (hattached : s.fw.st = .attached) (hright : w.right = 2)
    (hstaged : s.allStaged = []) : s.allows w (.host i) (writeOf 0x300402 0 0 0 1) 1 := by
  refine ⟨firstFaultObj, ?place, ?may, ?elsewhere, ?permits, rfl, rfl, fun _ => rfl⟩
  case place =>
    simp only [State.locate, findObj_writeOf (by decide) findObj_firstFault]
    exact if_pos ⟨rfl, Nat.zero_lt_one, Nat.zero_lt_one, Nat.zero_lt_one, rfl⟩
  case may => simp [State.mayWrite, firstFaultObj, hright]
  case elsewhere => rw [State.stagedElsewhere, hstaged, List.any_nil]
  case permits => simp only [State.statePermits, State.fwAdmits, firstFaultObj, hattached, Bool.and_self]

/-- Settles O32: the checks accept the write, and the effect of the object is the one that the command names. -/
theorem firstFaultClear : Obligations.FirstFaultClear := by
  intro s k x hs hhears hattached hk hopen hpath hright hstaged
  have hwho := State.who_host (s := s.quiet) hk hopen hpath
  have hallowed := State.allows_firstFaultClear (s := s.quiet) (w := ⟨k, x.right, x.part, k⟩) (i := 0) hattached hright hstaged
  exact (runs_ownWrite hs hhears hwho (exec_firstFaultClear (.host 0) k 1 s) rfl hallowed).exec_eq rfl rfl rfl

/-- Settles O57: each timer by the command that it sets off, and a reaction by whether a fatal one is queued. -/
theorem faultEvents : Obligations.FaultEvents := by
  intro s hs
  refine ⟨fun u n hdue => ?timer, fun u => runs_outboxRescue hs, fun u f => runs_forcedOccurrence hs,
    fun hkeepers hst => ⟨fun r rest hrunning hsuspended hqueue hcontained => ?queued, fun r hfatal => ?fatal⟩⟩
  case timer => exact (runs_repeatTimerExpiry hs hdue).exec_eq rfl rfl rfl
  case queued =>
    have hnone : s.react.queue.find? (·.fatal) = none :=
      List.find?_eq_none.mpr fun y hy => Bool.eq_false_iff.mp (hcontained y hy)
    exact runs_reactionStep hs hkeepers (.inr (.inl (by simp [hqueue])))
      (State.react1_queued (s := s.quiet) hst hrunning hsuspended hqueue hnone)
  case fatal =>
    have hsome : s.react.queue ≠ [] := List.ne_nil_of_mem (List.mem_of_find?_eq_some hfatal)
    exact runs_reactionStep hs hkeepers (.inr (.inl hsome)) (State.react1_fatal (s := s.quiet) hst hfatal)

end Sys2Proof.Machine
end

section
/-!
# PROOFS. 12, the ring sets and the lodge channels: doorbells, and the words of a channel
-/
namespace Sys2Proof.Machine

theorem exec_doorbell (set : Nat) (v : BitVec 32) (s : State) : exec (.doorbell set v) s = execDoorbell set v s := rfl
theorem exec_chWrite (hl : Bool) (id : BitVec 16) (tag : BitVec 8) (ch : Nat) (ws : List (BitVec 32)) (s : State) :
    exec (.chWrite hl id tag ch ws) s = execChWrite hl id tag ch ws s := rfl

/-! ## The bytes of a number (00 R8) -/

@[simp] theorem length_bytesOf (n v : Nat) : (bytesOf n v).length = n := by
  induction n generalizing v with
  | zero => rfl
  | succ n ih => rw [bytesOf, List.length_cons, ih]

theorem getElem_bytesOf (n v j : Nat) (h : j < (bytesOf n v).length) : (bytesOf n v)[j] = BitVec.ofNat 8 (v / 256 ^ j) := by
  induction n generalizing v j with
  | zero => simp at h
  | succ n ih =>
    cases j with
    | zero => simp [bytesOf]
    | succ j =>
      have hrest := ih (v / 256) j (by simpa using h)
      simp only [bytesOf, List.getElem_cons_succ, hrest, Nat.div_div_eq_div_mul, Nat.pow_succ']

/-! ## Doorbells (R323) -/

/-- A doorbell changes nothing but the notified sets, which it joins where it is enabled and not yet among them. -/
theorem State.ringBell_eq (s : State) (set : Nat) : s.ringBell set = { s with lodge := { s.lodge with
    bells := if s.ringOn set && !s.lodge.bells.contains set then s.lodge.bells ++ [set] else s.lodge.bells } } := by
  simp only [State.ringBell, Bool.and_eq_true]
  split <;> rfl

theorem runs_doorbell {s : State} {set : Nat} (v : BitVec 32) (hs : s.live) (hpresent : s.boot.present = true) (hset : set < 32) :
    Runs (.doorbell set v) s ((s.quiet.sramSet (64 * set + 4) (bytesOf 4 v.toNat)).ringBell set) :=
  runs_when hs (exec_doorbell set v s) (Bool.and_eq_true_iff.mpr ⟨hpresent, decide_eq_true hset⟩) rfl

/-! ## The words of a channel (R328, R329) -/

@[simp] theorem State.chan_onChan_same (s : State) (ch : Nat) (f : Chan → Chan) : (s.onChan ch f).chan ch = f (s.chan ch) :=
  FMap.get_modify_same _ _ _ _

theorem State.chan_onChan_other (s : State) {ch k : Nat} (f : Chan → Chan) (h : k ≠ ch) : (s.onChan ch f).chan k = s.chan k :=
  FMap.get_modify_other _ _ _ _ _ h

/-- Words of one sender join the inbound queue, in order. -/
def Chan.pushIn (c : Chan) (id : BitVec 16) (ws : List (BitVec 32)) : Chan := { c with inq := c.inq ++ ws.map (fun w => (w, id)) }

/-- Words of one sender join the outbound queue, in order. -/
def Chan.pushOut (c : Chan) (id : BitVec 16) (ws : List (BitVec 32)) : Chan := { c with outq := c.outq ++ ws.map (fun w => (w, id)) }

/-- K0 is notified of a channel that it serves and has not been notified of yet. -/
def State.notifyMail (s : State) (ch : Nat) : State :=
  if s.chanPlain ch ∨ s.lodge.mail.contains ch then s else { s with lodge := { s.lodge with mail := s.lodge.mail ++ [ch] } }

theorem State.notifyMail_eq (s : State) (ch : Nat) :
    s.notifyMail ch = { s with lodge := { s.lodge with mail := (s.notifyMail ch).lodge.mail } } := by
  simp only [State.notifyMail]
  split <;> rfl

section
variable {s t : State} {ch : Nat} {id : BitVec 16} {ws : List (BitVec 32)}

theorem State.chanWrite_owner (hon : s.chanOn ch = true) (hend : s.chanEnd ch id = some true)
    (hroom : (s.chan ch).inq.length + ws.length ≤ 16) :
    s.chanWrite ch id ws = (0, (s.onChan ch (·.pushIn id ws)).notifyMail ch) := by
  simp only [State.chanWrite, hon, hend, if_neg (Nat.not_lt.mpr hroom)]
  rfl

theorem State.chanWrite_peer (hon : s.chanOn ch = true) (hend : s.chanEnd ch id = some false)
    (hroom : (s.chan ch).outq.length + ws.length ≤ 16) :
    s.chanWrite ch id ws = (0, s.onChan ch (·.pushOut id ws)) := by
  simp only [State.chanWrite, hon, hend, if_neg (Nat.not_lt.mpr hroom)]
  rfl

/-- The answer to a write that the channel takes, on HL_ or to a fabric endpoint. -/
def chWriteAnswer (hl : Bool) (id : BitVec 16) (tag : BitVec 8) (ch : Nat) : Output :=
  if hl then .hlResp (hlHeader tag 0 0 0) [] else .lodgeResp id (lodgeHeader 0xC tag ch 0 0) [] []

/-- A write of 1 to 13 words that the channel takes does the same to the channel over either access. -/
theorem runs_chWrite (hl : Bool) (tag : BitVec 8) (hs : s.live) (hpresent : s.boot.present = true) (hch : ch < 64)
    (hsome : 1 ≤ ws.length) (hfits : ws.length ≤ 13) (hdone : s.quiet.chanWrite ch id ws = (0, t)) :
    Runs (.chWrite hl id tag ch ws) s (t.emit (chWriteAnswer hl id tag ch)) := by
  refine runs_when hs (exec_chWrite hl id tag ch ws s) (Bool.or_eq_true_iff.mpr (.inr hpresent)) ?_
  have hhl : ¬ (ws.length = 0 ∨ 16 < ws.length ∨ 64 ≤ ch) := by omega
  have hfabric : ¬ (ws.length = 0 ∨ 13 < ws.length ∨ 64 ≤ ch) := by omega
  cases hl with
  | true => simp only [if_true, if_neg hhl, hdone, chWriteAnswer]
  | false => simp only [Bool.false_eq_true, if_false, if_neg hfabric, hdone, chWriteAnswer]

end

/-- Settles O20: the four bytes of the producer by the laws of the memory, the notified sets by the equation of the doorbell. -/
theorem doorbell : Obligations.Doorbell := by
  intro s set v hs hpresent hset
  have hrun := runs_doorbell v hs hpresent hset
  rw [State.ringBell_eq] at hrun
  refine ⟨_, hrun.exec_eq rfl rfl rfl, rfl, fun j hj => ?stored, fun x hx => ?kept, rfl⟩
  case stored =>
    exact (sramByte_sramWrite _ _ j _ (by simpa using hj)).trans (getElem_bytesOf 4 v.toNat j (by simpa using hj))
  case kept => exact sramByte_sramWrite_outside _ _ x _ (by rw [length_bytesOf]; omega)

/-- Settles O24: the writer is the owner or the peer, and each has the queue that it writes. -/
theorem channelWrite : Obligations.ChannelWrite := by
  intro s id tag ch ws hs hpresent hch hsome hfits hon
  refine ⟨fun howner hroom hl => ?owner, fun hpeer hroom hl => ?peer⟩
  case owner =>
    have hrun := runs_chWrite hl tag hs hpresent hch hsome hfits (State.chanWrite_owner (s := s.quiet) hon howner hroom)
    rw [State.notifyMail_eq] at hrun
    have hchan := s.quiet.chan_onChan_same ch (·.pushIn id ws)
    exact ⟨_, hrun.exec_eq rfl rfl rfl, (congrArg Chan.inq hchan :), (congrArg Chan.outq hchan :),
      fun k hk => s.quiet.chan_onChan_other (·.pushIn id ws) hk, rfl⟩
  case peer =>
    have hrun := runs_chWrite hl tag hs hpresent hch hsome hfits (State.chanWrite_peer (s := s.quiet) hon hpeer hroom)
    have hchan := s.quiet.chan_onChan_same ch (·.pushOut id ws)
    exact ⟨_, hrun.exec_eq rfl rfl rfl, (congrArg Chan.outq hchan :), (congrArg Chan.inq hchan :),
      fun k hk => s.quiet.chan_onChan_other (·.pushOut id ws) hk, rfl⟩

end Sys2Proof.Machine
end

section
/-!
# PROOFS. 12, the messages that K0 and the keepers take from where they wait: ring sets, channels, service packets, the service tree
-/
namespace Sys2Proof.Machine

theorem exec_ringCommand (s : State) : exec .ringCommand s = execRingCommand s := rfl
theorem exec_lodgeMessage (ch : Nat) (s : State) : exec (.lodgeMessage ch) s = execLodgeMessage ch s := rfl
theorem exec_serviceReq (ep : Nat) (p : Packet) (s : State) : exec (.serviceReq ep p) s = execServiceReq ep p s := rfl
theorem exec_serviceResp (ep : Nat) (p : Packet) (s : State) : exec (.serviceResp ep p) s = execServiceResp ep p s := rfl
theorem exec_serviceTreeAccess (u : UnitId) (wr : Bool) (e : DictEntry) (s : State) :
    exec (.serviceTreeAccess u wr e) s = execServiceTreeAccess u wr e s := rfl

/-- How a message that K0 takes from its boot ROM on runs. -/
theorem runs_dict {c : Instr} {s t : State} {f : State → State} (hs : s.live) (hup : 2 ≤ s.boot.progress) (hc : exec c s = dictUp s f)
    (ht : f s.quiet = t) : Runs c s t := runs_when hs hc (decide_eq_true hup) ht

/-- The operations of 1 to 3 carry entries. -/
theorem hasEntries_iff {op : Nat} : hasEntries op = true ↔ 1 ≤ op ∧ op ≤ 3 := by
  simp only [hasEntries, Bool.or_eq_true, beq_iff_eq]
  omega

/-! ## Commands of a ring set (R324) -/

/-- The entry of the command ring that a set's consumer index names. -/
def State.commandBytes (s : State) (i : Nat) : List Byte :=
  sramRead s.lodge.sram ((s.ring i 0).1 + s.consumer i 0 % 2 ^ (s.ring i 0).2 * 64) 64

/-- Its header word, the lodge address of its entry array, and its 256-bit body. -/
def State.commandHeader (s : State) (i : Nat) : Nat := ofBytes ((s.commandBytes i).take 4)
def State.commandArray (s : State) (i : Nat) : Nat := ofBytes (((s.commandBytes i).drop 4).take 4)
def State.commandBody (s : State) (i : Nat) : BitVec 256 := BitVec.ofNat 256 (ofBytes (((s.commandBytes i).drop 16).take 32))

/-- A command of no operation, or of more entries than it has room for, or of an array outside lodge SRAM. -/
def State.commandBad (s : State) (i : Nat) : Bool :=
  let op := bitsAt (s.commandHeader i) 28 4
  let n := s.commandHeader i % 256
  let arr := s.commandArray i
  8 ≤ op || op == 0 || (hasEntries op && (if arr = 0 then decide (3 < n) else arr % 16 != 0 || decide (0x200000 < arr + 16 * n)))

/-- A ring set advances its consumer index by one entry. -/
def State.consumeCommand (s : State) (i : Nat) : State := s.sramSet (64 * i) (bytesOf 4 ((s.consumer i 0 + 1) % 2 ^ 32))

/-- The next turn is the following set's, this one waits for its response, and its notification lasts while commands are left. -/
def State.passTurn (s : State) (i : Nat) : State := { s with lodge := { s.lodge with
  turn := (i + 1) % 32, busy := s.lodge.busy ++ [i]
  bells := if s.producer i 0 = s.consumer i 0 then s.lodge.bells.filter (fun x => x != i) else s.lodge.bells } }

/-- The entries of a command, in the command itself or in its array. -/
def State.commandEntries (s : State) (i : Nat) : List DictEntry :=
  let n := s.commandHeader i % 256
  if hasEntries (bitsAt (s.commandHeader i) 28 4) then
    (if s.commandArray i = 0 then entriesOf n ((s.commandBytes i).drop 16)
      else entriesOf n (sramRead (s.consumeCommand i).lodge.sram (s.commandArray i) (16 * n)))
  else []

section
variable {s t : State} {i : Nat} {rest : List Nat}

/-- K0 takes the command of the set whose turn it is. -/
theorem runs_ringCommand (hs : s.live) (hup : 2 ≤ s.boot.progress) (hkeepers : s.fw.changing = none)
    (hready : s.quiet.readySets = i :: rest) (ht : s.quiet.takeCommand i = t) : Runs .ringCommand s t := by
  refine runs_dict hs hup (exec_ringCommand s) (Eq.trans ?_ ht)
  have hkeepers' : s.quiet.fw.changing.isSome = false := congrArg Option.isSome hkeepers
  simp only [hkeepers', hready, Bool.false_eq_true, if_false]

/-- A well-formed command is served after it has left the ring. -/
theorem State.takeCommand_served (hgood : s.commandBad i = false) :
    s.takeCommand i = ((s.consumeCommand i).passTurn i).serveMessage
      (.ring i (if hasEntries (bitsAt (s.commandHeader i) 28 4) then s.commandArray i else 0)) (.host i) 0 (s.commandHeader i)
      (s.commandEntries i) (s.commandBody i) := by
  have hturn : ({ s.consumeCommand i with lodge := { (s.consumeCommand i).lodge with
      turn := (i + 1) % 32, busy := (s.consumeCommand i).lodge.busy ++ [i]
      bells := if ((s.consumeCommand i).producer i 0 != (s.consumeCommand i).consumer i 0) = true then (s.consumeCommand i).lodge.bells
        else (s.consumeCommand i).lodge.bells.filter (fun b => b != i) } } : State) = (s.consumeCommand i).passTurn i := by
    simp only [State.passTurn, bne_iff_ne, ite_not]
  rw [← hturn]
  exact if_neg (Bool.eq_false_iff.mp hgood)

/-- A command of an operation without entries. -/
theorem State.takeCommand_plain (hlo : 4 ≤ bitsAt (s.commandHeader i) 28 4) (hhi : bitsAt (s.commandHeader i) 28 4 ≤ 7) :
    s.takeCommand i = ((s.consumeCommand i).passTurn i).serveMessage (.ring i 0) (.host i) 0 (s.commandHeader i) [] (s.commandBody i) := by
  have hnone : hasEntries (bitsAt (s.commandHeader i) 28 4) = false := Bool.eq_false_iff.mpr fun h => by
    have := (hasEntries_iff.mp h).2
    omega
  have hgood : s.commandBad i = false := by
    simp only [State.commandBad, hnone, Bool.false_and, Bool.or_false, Bool.or_eq_false_iff, decide_eq_false_iff_not, beq_eq_false_iff_ne]
    omega
  rw [State.takeCommand_served hgood, State.commandEntries, hnone]
  rfl

section
variable (hlo : 1 ≤ bitsAt (s.commandHeader i) 28 4) (hhi : bitsAt (s.commandHeader i) 28 4 ≤ 3)
include hlo hhi

/-- A command with up to three entries in itself. -/
theorem State.takeCommand_inline (harr : s.commandArray i = 0) (hn : s.commandHeader i % 256 ≤ 3) :
    s.takeCommand i = ((s.consumeCommand i).passTurn i).serveMessage (.ring i 0) (.host i) 0 (s.commandHeader i)
      (entriesOf (s.commandHeader i % 256) ((s.commandBytes i).drop 16)) (s.commandBody i) := by
  have hsome := hasEntries_iff.mpr ⟨hlo, hhi⟩
  have hgood : s.commandBad i = false := by
    simp only [State.commandBad, harr, if_true, Bool.or_eq_false_iff, Bool.and_eq_false_iff, decide_eq_false_iff_not, beq_eq_false_iff_ne]
    omega
  rw [State.takeCommand_served hgood, State.commandEntries, harr, hsome]
  rfl

/-- A command whose entries stand in an array in lodge SRAM. -/
theorem State.takeCommand_array (harr : s.commandArray i ≠ 0) (halign : s.commandArray i % 16 = 0)
    (hrange : s.commandArray i + 16 * (s.commandHeader i % 256) ≤ 0x200000) :
    s.takeCommand i = ((s.consumeCommand i).passTurn i).serveMessage (.ring i (s.commandArray i)) (.host i) 0 (s.commandHeader i)
      (entriesOf (s.commandHeader i % 256)
        (sramRead (s.consumeCommand i).lodge.sram (s.commandArray i) (16 * (s.commandHeader i % 256)))) (s.commandBody i) := by
  have hsome := hasEntries_iff.mpr ⟨hlo, hhi⟩
  have hgood : s.commandBad i = false := by
    simp only [State.commandBad, if_neg harr, Bool.or_eq_false_iff, Bool.and_eq_false_iff, decide_eq_false_iff_not, beq_eq_false_iff_ne,
      bne_eq_false_iff_eq]
    omega
  simp only [State.takeCommand_served hgood, State.commandEntries, hsome, if_true, if_neg harr]

end
end

/-! ## Messages of a channel (R330) -/

/-- A channel serves K0, is notified, and waits for no response. -/
theorem runs_lodgeMessage {s t : State} {ch : Nat} (hs : s.live) (hup : 2 ≤ s.boot.progress) (hkeepers : s.fw.changing = none)
    (hon : s.chanOn ch = true) (hplain : s.chanPlain ch = false) (hmail : s.lodge.mail.contains ch = true)
    (hidle : s.lodge.busy.contains (32 + ch) = false) (ht : s.quiet.takeMessage ch = t) : Runs (.lodgeMessage ch) s t := by
  refine runs_dict hs hup (exec_lodgeMessage ch s) ((if_neg ?_).trans ht)
  have hkeepers' : s.quiet.fw.changing.isSome = false := congrArg Option.isSome hkeepers
  have hon' : s.quiet.chanOn ch = true := hon
  have hplain' : s.quiet.chanPlain ch = false := hplain
  have hmail' : s.quiet.lodge.mail.contains ch = true := hmail
  have hidle' : s.quiet.lodge.busy.contains (32 + ch) = false := hidle
  simp only [hkeepers', hon', hplain', hmail', hidle', Bool.not_true, Bool.false_eq_true, or_self, not_false_eq_true]

/-- A message of `len` words has left a channel, which waits for its response; its notification lasts while words are left. -/
def State.messageTaken (s : State) (ch len : Nat) : State :=
  let a := s.onChan ch (fun c => { c with inq := (s.chan ch).inq.drop len, ackOwner := 0x0001 })
  { a with lodge := { a.lodge with
    busy := a.lodge.busy ++ [32 + ch]
    mail := if ((s.chan ch).inq.drop len).isEmpty then a.lodge.mail.filter (fun m => m != ch) else a.lodge.mail } }

/-- A whole message of one sender is served, if its response fits. -/
theorem State.takeMessage_served {s : State} {ch len : Nat} {w : BitVec 32} {id : BitVec 16} {rest : List (BitVec 32 × BitVec 16)}
    (hinq : (s.chan ch).inq = (w, id) :: rest) (hlen : messageWords (bitsAt w.toNat 28 4) (w.toNat % 256) = some len)
    (hwhole : len ≤ (s.chan ch).inq.length) (hsender : ∀ x, x ∈ (s.chan ch).inq.take len → x.2 = id)
    (hfits : (s.chan ch).outq.length + answerWords (bitsAt w.toNat 28 4) (w.toNat % 256) ≤ 16) :
    let body := (((s.chan ch).inq.take len).drop 1).flatMap (fun x => bytesOf 4 x.1.toNat)
    s.takeMessage ch = (s.messageTaken ch len).serveMessage (.chan ch) (.lodge ch) id w.toNat
      (if hasEntries (bitsAt w.toNat 28 4) then entriesOf (w.toNat % 256) body else []) (BitVec.ofNat 256 (ofBytes (body.take 32))) := by
  have hone : ((s.chan ch).inq.take len).any (fun x => x.2 != id) = false := by
    simpa only [List.any_eq_false, bne_iff_ne, not_not] using hsender
  have hready : ¬ (((s.chan ch).inq.take len).length < len ∨
      16 < (s.chan ch).outq.length + answerWords (bitsAt w.toNat 28 4) (w.toNat % 256)) := by
    rw [List.length_take_of_le hwhole]
    omega
  rw [hinq] at hone hready
  simp only [State.takeMessage, State.messageTaken, hinq, hlen, hone, if_neg hready, Bool.false_eq_true, if_false]

/-! ## Service packets (R328; 01 R31; 09 R239, R259) -/

/-- The service of a request that finds room in the read-service queue, which it joins. -/
theorem runs_serviceReq {s a t : State} {ep : Nat} {p : Packet} (hs : s.live) (hsound : (s.quiet.takeRx (epUnit ep) p).soundAt ep p)
    (hroom : (s.quiet.takeRx (epUnit ep) p).readsFull ep = false)
    (ha : (s.quiet.takeRx (epUnit ep) p).onEp ep (fun x => { x with reads := x.reads ++ [p] }) = a)
    (ht : (if ep = 2049 then a.serviceLodge p else a.serviceKeeper ep p) = t) : Runs (.serviceReq ep p) s t := by
  subst ha
  refine runs_up hs (exec_serviceReq ep p s) ((State.receive_takeIn _ _ _ _ _ _ hsound).trans (Eq.trans ?_ ht))
  simp only [hroom, Bool.false_eq_true, if_false]

/-- A well-formed request of a keeper, and at the head keeper of any endpoint, is served. -/
theorem State.serviceKeeper_served {s : State} {ep : Nat} {p : Packet} (hfrom : ep = 2051 ∨ s.servicePath p.hdr.src = .keeper)
    (hlength : hasEntries (bitsAt p.hdr.aux.toNat 28 4) = false ∨
      p.hdr.length.toNat = (if p.hdr.aux.toNat % 256 ≤ 2 then 0 else (p.hdr.aux.toNat % 256 + 3) / 4)) :
    let n := p.hdr.aux.toNat % 256
    s.serviceKeeper ep p = s.serveMessage (.fabric ep p.hdr) (s.servicePath p.hdr.src) 0 p.hdr.aux.toNat
      (if hasEntries (bitsAt p.hdr.aux.toNat 28 4) then
        entriesOf n (if n ≤ 2 then bytesOf 32 p.hdr.inl.toNat else p.data.flatMap payloadBytes) else []) p.hdr.inl := by
  have hunits : (hasEntries (bitsAt p.hdr.aux.toNat 28 4) &&
      p.hdr.length.toNat != (if p.hdr.aux.toNat % 256 ≤ 2 then 0 else (p.hdr.aux.toNat % 256 + 3) / 4)) = false :=
    Bool.and_eq_false_iff.mpr (hlength.imp_right bne_eq_false_iff_eq.mpr)
  have hallowed : ¬ (ep ≠ 2051 ∧ s.servicePath p.hdr.src ≠ .keeper) := fun h => hfrom.elim h.1 h.2
  simp only [State.serviceKeeper, hunits, if_neg hallowed, Bool.false_eq_true, if_false]

section
variable {s : State} {p : Packet} {ch : Nat} (hchan : bitsAt p.hdr.aux.toNat 12 8 = ch) (hch : ch < 64)
include hchan hch

/-- CH_STATUS over the fabric answers the status word and changes nothing else. -/
theorem State.serviceLodge_status (hop : bitsAt p.hdr.aux.toNat 28 4 = 15) :
    s.serviceLodge p = s.lodgeAnswer p.hdr (lodgeHeader 15 (BitVec.ofNat 8 (bitsAt p.hdr.aux.toNat 20 8)) ch 0 0)
      (BitVec.ofNat 256 (s.chanStatus ch)) [] := by
  simp only [State.serviceLodge, hchan, if_neg (Nat.not_le.mpr hch), hop]

/-- ACK_WRITE over the fabric by an end of an enabled channel. -/
theorem State.serviceLodge_ack (hop : bitsAt p.hdr.aux.toNat 28 4 = 14) (hon : s.chanOn ch = true)
    (hend : (s.chanEnd ch (BitVec.ofNat 16 (0x8000 + localOf p.hdr.src))).isSome = true) :
    s.serviceLodge p = (s.chanAck ch (BitVec.ofNat 16 (0x8000 + localOf p.hdr.src)) (p.hdr.inl.setWidth 16)).2.lodgeAnswer p.hdr
      (lodgeHeader 14 (BitVec.ofNat 8 (bitsAt p.hdr.aux.toNat 20 8)) ch 0 0) 0 [] := by
  have hdone : (s.chanAck ch (BitVec.ofNat 16 (0x8000 + localOf p.hdr.src)) (p.hdr.inl.setWidth 16)).1 = true := by
    obtain ⟨owner, howner⟩ := Option.isSome_iff_exists.mp hend
    cases owner <;> simp only [State.chanAck, hon, howner, Bool.not_true, Bool.false_eq_true, if_false]
  simp only [State.serviceLodge, hchan, if_neg (Nat.not_le.mpr hch), hop, hdone, if_true]

end

/-- The first answer of another chip to the commit that waits for it (09 R259). -/
theorem State.crossAnswer_noted {s : State} {c hdr : Nat} {x : CrossCommit} (hcross : s.ctl.cross = some x) (hop : bitsAt hdr 28 4 = 4)
    (hseq : bitsAt hdr 20 8 = x.seq.toNat % 256) (hfirst : ∀ v, (c, v) ∉ x.answers) :
    s.crossAnswer c hdr = { s with ctl := { s.ctl with cross := some { x with
      answers := x.answers ++ [(c, bitsAt hdr 8 4 == 0)], ruleFailed := x.ruleFailed || bitsAt hdr 8 4 == 6 } } } := by
  have hnew : x.answers.any (fun a => a.1 == c) = false := by
    refine List.any_eq_false.mpr fun a ha hc => hfirst a.2 ?_
    rwa [← beq_iff_eq.mp hc]
  simp only [State.crossAnswer, hcross, hop, hseq, hnew, ne_eq, not_true_eq_false, Bool.false_eq_true, or_self, if_false]

theorem runs_serviceResp {s t : State} {p : Packet} (hs : s.live) (hsound : (s.quiet.takeRx (epUnit 2051) p).soundAt 2051 p)
    (hchip : chipOf p.hdr.src ≠ (s.quiet.takeRx (epUnit 2051) p).chipNo) (hkeeper : localOf p.hdr.src = 2051)
    (ht : (s.quiet.takeRx (epUnit 2051) p).crossAnswer (chipOf p.hdr.src) p.hdr.aux.toNat = t) : Runs (.serviceResp 2051 p) s t :=
  runs_up hs (exec_serviceResp 2051 p s) ((State.receive_takeIn _ _ _ _ _ _ hsound).trans ((if_pos ⟨rfl, hchip, hkeeper⟩).trans ht))

/-! ## The service tree (01 R30, R31) -/

/-- A keeper acts on a unit with the rights of a privileged session. -/
def treeWho : Who := { nobody with right := 2 }

section
variable {s : State} {u : UnitId} {e : DictEntry} {o : Obj}

theorem State.treeAccess_asleep (wr : Bool) (hasleep : s.asleep u = true) : s.treeAccess u wr e = s.emit (.treeResp u true 0) :=
  if_pos hasleep

variable (hawake : s.asleep u = false)
  (hplace : (s.touch (instOf u)).locate { e with inst := BitVec.ofNat 16 (instOf u) } = .inl o)
include hawake hplace

theorem State.treeAccess_read : s.treeAccess u false e = (s.touch (instOf u)).emit
    (.treeResp u false (BitVec.ofNat 64 ((s.touch (instOf u)).liveObj 0 o (instOf u) e.row.toNat e.word.toNat))) := by
  simp only [State.treeAccess, hawake, hplace, Bool.false_eq_true, false_and, if_false]

theorem State.treeAccess_write (htakes : o.takes ≠ .never) (hacc : o.acc ≠ .ro) : s.treeAccess u true e =
    ((s.touch (instOf u)).carryOut treeWho o (instOf u) e.row.toNat e.word.toNat e.value.toNat (fun a =>
      a.immediate treeWho o (instOf u) e.row.toNat e.word.toNat e.value.toNat)).emit (.treeResp u false e.value) := by
  simp only [State.treeAccess, hawake, hplace, htakes, hacc, ne_eq, not_false_eq_true, and_self, Bool.false_eq_true, if_false, if_true,
    BitVec.ofNat_toNat, BitVec.setWidth_eq, treeWho]

end

/-- Settles O30: each message by the case in which it is taken. -/
theorem carriedMessages : Obligations.CarriedMessages := by
  refine ⟨?rings, ?channels, ?packets, ?tree⟩
  case rings =>
    intro s i rest hs hup hkeepers hready
    have hrun {t : State} (h : s.quiet.takeCommand i = t) : Runs .ringCommand s t := runs_ringCommand hs hup hkeepers hready h
    exact ⟨fun hlo hhi => hrun (State.takeCommand_plain hlo hhi), fun hlo hhi harr hn => hrun (State.takeCommand_inline hlo hhi harr hn),
      fun hlo hhi harr halign hrange => hrun (State.takeCommand_array hlo hhi harr halign hrange)⟩
  case channels =>
    intro s ch len w id rest hs hup hkeepers hon hplain hmail hidle hinq hlen hwhole hsender hfits
    exact runs_lodgeMessage hs hup hkeepers hon hplain hmail hidle
      (State.takeMessage_served (s := s.quiet) hinq hlen hwhole hsender hfits)
  case packets =>
    intro s ep p hs q h hsound
    refine ⟨fun hroom => ?requests, fun x hep hchip hkeeper hcross hop hseq hfirst => ?answers⟩
    case requests =>
      intro a op n ch
      have hrun {t : State} (h : (if ep = 2049 then a.serviceLodge p else a.serviceKeeper ep p) = t) : Runs (.serviceReq ep p) s t :=
        runs_serviceReq hs hsound hroom rfl h
      exact ⟨fun hep hfrom hlength => hrun ((if_neg hep).trans (State.serviceKeeper_served hfrom hlength)),
        fun hep hch hop => hrun ((if_pos hep).trans (State.serviceLodge_status rfl hch hop)),
        fun hep hch hop hon hend => hrun ((if_pos hep).trans (State.serviceLodge_ack rfl hch hop hon hend))⟩
    case answers =>
      subst hep
      exact runs_serviceResp hs hsound hchip hkeeper (State.crossAnswer_noted hcross hop hseq hfirst)
  case tree =>
    intro s u wr e o hs hup
    have hrun {wr : Bool} {t : State} (h : s.quiet.treeAccess u wr e = t) : Runs (.serviceTreeAccess u wr e) s t :=
      runs_dict hs hup (exec_serviceTreeAccess u wr e s) h
    refine ⟨fun hasleep => (hrun (State.treeAccess_asleep wr hasleep)).exec_eq rfl rfl rfl, fun hawake => ?_⟩
    intro q w hplace
    exact ⟨hrun (State.treeAccess_read hawake hplace), fun htakes hacc => hrun (State.treeAccess_write hawake hplace htakes hacc)⟩

end Sys2Proof.Machine
end

section
/-!
# PROOFS. 12, the keeper firmware and the driver: loads, activation, the loss of the driver
-/
namespace Sys2Proof.Machine

theorem exec_firmwareLoadComplete (s : State) : exec .firmwareLoadComplete s = execFirmwareLoadComplete s := rfl
theorem exec_activationFailure (k : Nat) (s : State) : exec (.activationFailure k) s = execActivationFailure k s := rfl
theorem exec_activationRecommit (s : State) : exec .activationRecommit s = execActivationRecommit s := rfl
theorem exec_graceTimeExpiry (s : State) : exec .graceTimeExpiry s = execGraceTimeExpiry s := rfl
theorem exec_hostlessLimitExpiry (s : State) : exec .hostlessLimitExpiry s = execHostlessLimitExpiry s := rfl

/-! ## An event leaves the firmware alone (R325) -/

@[simp] theorem State.ringPut_fw (s : State) (set r bytes v : Nat) : (s.ringPut set r bytes v).fw = s.fw := rfl

@[simp] theorem State.withLodge_fw (s : State) (x : Lodge) : ({ s with lodge := x } : State).fw = s.fw := rfl

@[simp] theorem State.eventPut_fw (s : State) (set code data : Nat) : (s.eventPut set code data).fw = s.fw := by
  rw [State.eventPut, State.withLodge_fw, State.ringPut_fw]

@[simp] theorem State.bump_fw (s : State) (id inst row word lo w n : Nat) : (s.bump id inst row word lo w n).fw = s.fw := by
  simp only [State.bump]
  split <;> rfl

@[simp] theorem State.eventLost_fw (s : State) (set : Nat) : (s.eventLost set).fw = s.fw := by
  rw [State.eventLost, State.withLodge_fw, State.bump_fw]

@[simp] theorem State.postTo_fw (s : State) (set code data : Nat) : (s.postTo set code data).fw = s.fw := by
  simp only [State.postTo]
  split; · rfl
  split; · rw [State.eventLost_fw]
  split; · rw [State.eventPut_fw]
  split
  · rw [State.eventLost_fw, State.withLodge_fw, State.eventPut_fw]
  · rw [State.eventPut_fw, State.withLodge_fw, State.eventPut_fw]

/-! ## Loads (R312, R314, R319) -/

/-- The load under way is over: its buffer is empty. -/
def State.loadEnded (s : State) : State := { s with fw := { s.fw with loading := false, host := [], hostError := false } }

/-- The image that a load has brought, or why it is refused: an error of the host window, or the first check of R312 that fails. -/
def State.loadResult (s : State) (bs : List Byte) : Image ⊕ Nat := if s.fw.hostError then .inr 8 else s.checkFirmware bs

/-- What the end of a load leaves: the code of a refused image; a cold load starts its image, another has it on standby. -/
def State.takeLoaded (s : State) : Image ⊕ Nat → State
  | .inr c => { s with fw := { s.fw with status := c } }
  | .inl i => if s.fw.cold then s.coldStart i else { s with fw := { s.fw with standby := some i, status := 3 } }

theorem State.takeLoaded_warm {s : State} (i : Image) (hwarm : s.fw.cold = false) :
    s.takeLoaded (.inl i) = { s with fw := { s.fw with standby := some i, status := 3 } } := if_neg (Bool.eq_false_iff.mp hwarm)

theorem State.takeLoaded_cold {s : State} (i : Image) (hcold : s.fw.cold = true) : s.takeLoaded (.inl i) = s.coldStart i := if_pos hcold

/-- A load ends once its bytes have been read. -/
theorem runs_firmwareLoadComplete {s : State} {bs : List Byte} {r : Image ⊕ Nat} (hs : s.live) (hloading : s.fw.loading = true)
    (hbytes : s.quiet.firmwareBytes = some bs) (hresult : s.quiet.loadResult bs = r) :
    Runs .firmwareLoadComplete s (s.quiet.loadEnded.takeLoaded r) := by
  have hguard : (s.quiet.fw.loading && s.quiet.firmwareBytes.isSome) = true :=
    Bool.and_eq_true_iff.mpr ⟨hloading, Option.isSome_iff_exists.mpr ⟨bs, hbytes⟩⟩
  refine runs_when hs (exec_firmwareLoadComplete s) hguard ?_
  rw [State.loadResult] at hresult
  cases r <;> simp only [hbytes, Option.getD_some, hresult] <;> rfl

/-! ## The driver (R316 to R318) -/

section
variable {s : State}

/-- Without a driver for the grace time, under a policy that stops no plan, the firmware is HOSTLESS. -/
theorem runs_graceTimeExpiry (hs : s.live) (hattached : s.fw.st = .attached) (hover : s.fw.beatAt + s.val 0x043001 ≤ s.time)
    (hpolicy : s.val 0x043003 ≠ 1) :
    Runs .graceTimeExpiry s { s.quiet with fw := { s.fw with st := .hostless, hostlessAt := s.time } } :=
  runs_when hs (exec_graceTimeExpiry s) (Bool.and_eq_true_iff.mpr ⟨beq_iff_eq.mpr hattached, decide_eq_true hover⟩) (if_neg hpolicy)

/-- Writes of lodge SRAM leave the notified sets alone. -/
theorem State.foldl_sramSet_bells (at_ : Nat → Nat) (bs : List Byte) (l : List Nat) (s : State) :
    (l.foldl (fun s r => s.sramSet (at_ r) bs) s).lodge.bells = s.lodge.bells :=
  foldl_keeps (fun t : State => t.lodge.bells) (fun s r => s.sramSet (at_ r) bs) (fun _ _ => rfl) l s

/-- The tenants have ended, and the host has lost its sessions and its ring sets but set 0, whose indices are zero (R318). -/
def State.hostGone (s : State) : State :=
  let s := s.endAll ((s.parts.filter (fun p => p.2.st == .held)).map (·.1))
  let s := s.closeSessions (fun _ x => onHost x)
  let s := s.setVal 0x400001 (s.val 0x400001 % 2)
  let s := { s with lodge := { s.lodge with rings := s.lodge.rings.filter (fun r => decide (r.1 < 4)), bells := [] } }
  (List.range 4).foldl (fun s r => s.sramSet (16 * r) (bytesOf 8 0)) s

theorem State.hostGone_bells (s : State) : s.hostGone.lodge.bells = [] := by
  simp only [State.hostGone, State.foldl_sramSet_bells]

theorem runs_hostlessLimitExpiry (hs : s.live) (hhostless : s.fw.st = .hostless) (hover : s.fw.hostlessAt + s.val 0x043002 ≤ s.time) :
    Runs .hostlessLimitExpiry s { s.quiet.hostGone with fw := { s.quiet.hostGone.fw with st := .ready } } :=
  runs_when hs (exec_hostlessLimitExpiry s) (Bool.and_eq_true_iff.mpr ⟨beq_iff_eq.mpr hhostless, decide_eq_true hover⟩) rfl

end

/-- Settles O58: a load by the result of its checks, each other event by its guard. -/
theorem firmwareEvents : Obligations.FirmwareEvents := by
  intro s hs
  refine ⟨fun bs hloading hbytes => ?loads, fun hchanging k => ?failure, fun hdeferred hcalm => ?recommit,
    fun hattached hover hpolicy => (runs_graceTimeExpiry hs hattached hover hpolicy).exec_eq rfl rfl rfl,
    fun hhostless hover => ⟨_, runs_hostlessLimitExpiry hs hhostless hover, rfl, s.quiet.hostGone_bells⟩⟩
  case loads =>
    intro f
    have hrun {r : Image ⊕ Nat} (hresult : s.quiet.loadResult bs = r) : Runs .firmwareLoadComplete s (s.quiet.loadEnded.takeLoaded r) :=
      runs_firmwareLoadComplete hs hloading hbytes hresult
    refine ⟨fun c hrefused => (hrun hrefused).exec_eq rfl rfl rfl, fun i himage hwarm => ?warm, fun i himage hcold => ?cold⟩
    case warm =>
      have himaged := hrun himage
      rw [State.takeLoaded_warm (s := s.quiet.loadEnded) i hwarm] at himaged
      exact himaged.exec_eq rfl rfl rfl
    case cold =>
      have himaged := hrun himage
      rwa [State.takeLoaded_cold (s := s.quiet.loadEnded) i hcold] at himaged
  case failure =>
    exact ⟨_, runs_when hs (exec_activationFailure k s) hchanging rfl, State.postTo_fw _ _ _ _⟩
  case recommit =>
    exact runs_when hs (exec_activationRecommit s) (Bool.and_eq_true_iff.mpr ⟨hdeferred, by rw [hcalm]; rfl⟩) rfl

end Sys2Proof.Machine
end

section
/-!
# PROOFS. 14, the block as a whole: the frame of every command, the reset, the test access port

Every command but the two edges of reset and those of the test access port is written through one frame, which ignores it in reset and
else keeps the queue, the build and the reset pin. `exec_eq_next` says this once for all of them, and `exec_tap` what the commands of
the port leave alone; what no command touches, and what a block held in reset keeps, follow from the two.
-/
namespace Sys2Proof.Machine

/-! ## The frames of the commands (R349, R350) -/

/-- A command that a block held in reset does not take drives nothing in reset, and acts within the frame out of it. -/
theorem exec_eq_next {c : Instr} (h : takenInReset c = false) (s : State) :
    ∃ t, exec c s = .next (if s.boot.inReset then s.quiet else s.framed t) := by
  cases c
  case blockReset | resetRelease | testReset | extest | idcode | samplePreload | status | bypass => cases h
  all_goals exact ⟨_, rfl⟩

theorem exec_held {c : Instr} {s : State} (hs : s.boot.inReset = true) (h : takenInReset c = false) : exec c s = .next s.quiet := by
  obtain ⟨t, ht⟩ := exec_eq_next h s
  rw [ht, if_pos hs]

/-! ## The edges of reset (R350, R352) -/

theorem exec_blockReset (s : State) : exec .blockReset s = .next (if s.resetAccepted then s.wiped else s.quiet) := rfl

/-- The state of a block that has just been released: its start-up begins, and the clocks of the control domain are to be loaded. -/
def State.released (s : State) : State :=
  { s with
    outs := [], boot := { s.boot with inReset := false, progress := 1 }
    loads := s.loads.put 140 { value := 0, left := s.specials.map (fun e => (UnitId.special e).code) } }

theorem exec_resetRelease_held {s : State} (hs : s.boot.inReset = true) : exec .resetRelease s = .next s.released := by
  refine (congrArg _ (if_pos hs)).trans ?_
  simp only [State.sendLoad, List.map_map]
  rfl

theorem exec_resetRelease_live {s : State} (hs : s.live) : exec .resetRelease s = .next s.quiet :=
  congrArg _ (if_neg (Bool.eq_false_iff.mp hs))

/-! ## The test access port (R368) -/

theorem exec_extest_held {s : State} (hs : s.boot.inReset = true) :
    exec .extest s = .next { s with
      outs := [.pins s.tap.preload, .tdo (boundaryCells s.build) (Config.freeBits (boundaryCells s.build) s.free).toNat]
      free := s.free + 1, tap := { s.tap with instr := 0#8 } } :=
  congrArg (fun t => Host.Outcome.next (s.framed t)) (if_pos hs)

theorem exec_extest_live {s : State} (hs : s.live) :
    exec .extest s = .next { s with outs := [.tdo 1 0], tap := { s.tap with instr := 0#8 } } :=
  congrArg (fun t => Host.Outcome.next (s.framed t)) (if_neg (Bool.eq_false_iff.mp hs))

theorem exec_samplePreload (cells : List Bool) (s : State) :
    exec (.samplePreload cells) s = .next { s with
      outs := [.tdo (boundaryCells s.build) (Config.freeBits (boundaryCells s.build) s.free).toNat], free := s.free + 1
      tap := { s.tap with instr := 2#8, preload := cells.take (boundaryCells s.build) } } := rfl

/-- A command of the port changes what is driven out, the count of free values and the port. -/
theorem exec_tap {c : Instr} (h : takenInReset c = true) (hreset : c ≠ .blockReset) (hrelease : c ≠ .resetRelease) (s : State) :
    ∃ (o : List Output) (n : Nat) (x : TapPort), exec c s = .next { s with outs := o, free := n, tap := x } := by
  cases c
  case blockReset => exact absurd rfl hreset
  case resetRelease => exact absurd rfl hrelease
  case testReset | idcode | status | bypass | samplePreload => exact ⟨_, _, _, rfl⟩
  case extest =>
    cases hs : s.boot.inReset with
    | false => exact ⟨_, _, _, exec_extest_live hs⟩
    | true => exact ⟨_, _, _, exec_extest_held hs⟩
  all_goals cases h

/-! ## What no command touches -/

/-- Every command answers a next state, with the queue and the build as they were, and the reset pin too but for the edges of
reset. -/
theorem exec_next (c : Instr) (s : State) :
    ∃ t, exec c s = .next t ∧ t.pending = s.pending ∧ t.build = s.build ∧
      (c ≠ .blockReset → c ≠ .resetRelease → t.boot.inReset = s.boot.inReset) := by
  cases h : takenInReset c with
  | false =>
    obtain ⟨t, ht⟩ := exec_eq_next h s
    refine ⟨_, ht, ?_⟩
    split <;> exact ⟨rfl, rfl, fun _ _ => rfl⟩
  | true =>
    by_cases hreset : c = .blockReset
    · subst hreset
      refine ⟨_, exec_blockReset s, ?_⟩
      split <;> exact ⟨rfl, rfl, fun h => absurd rfl h⟩
    by_cases hrelease : c = .resetRelease
    · subst hrelease
      cases hs : s.boot.inReset with
      | false => exact ⟨_, exec_resetRelease_live hs, rfl, rfl, fun _ h => absurd rfl h⟩
      | true => exact ⟨_, exec_resetRelease_held hs, rfl, rfl, fun _ h => absurd rfl h⟩
    obtain ⟨_, _, _, ht⟩ := exec_tap h hreset hrelease s
    exact ⟨_, ht, rfl, rfl, fun _ _ => rfl⟩

theorem exec_keeps_inReset {c : Instr} {s t : State} (h : exec c s = .next t) (hreset : c ≠ .blockReset) (hrelease : c ≠ .resetRelease) :
    t.boot.inReset = s.boot.inReset := by
  obtain ⟨u, hu, -, -, hpin⟩ := exec_next c s
  cases hu.symm.trans h
  exact hpin hreset hrelease

/-- A step answers a next state: an empty queue idles. -/
theorem step_next (s : State) : ∃ t, step s = .next t := by
  rw [step]
  split
  · exact ⟨s, rfl⟩
  · exact (exec_next _ _).imp fun _ h => h.1

theorem State.safeFor_all (s : State) (n : Nat) : s.safeFor n := by
  induction n generalizing s with
  | zero => trivial
  | succ n ih => exact (step_next s).imp fun t h => ⟨h, ih t⟩

/-! ## A block held in reset (R350) -/

/-- What a block held in reset may change: the commands that wait, what is driven out, the count of free values, and the port. -/
theorem State.heldInReset.beside {s : State} (h : s.heldInReset) (p : List Instr) (o : List Output) (n : Nat) (x : TapPort) :
    ({ s with pending := p, outs := o, free := n, tap := x } : State).heldInReset := fun hs =>
  congrArg (fun t : State => { t with pending := p, outs := o, free := n, tap := x }) (h hs)

theorem State.wiped_heldInReset (s : State) : s.wiped.heldInReset := fun _ => rfl

theorem exec_keeps_heldInReset {c : Instr} {s t : State} (h : s.heldInReset) (ht : exec c s = .next t) : t.heldInReset := by
  by_cases hreset : c = .blockReset
  · subst hreset
    cases (exec_blockReset s).symm.trans ht
    split
    · exact s.wiped_heldInReset
    · exact h.beside s.pending [] s.free s.tap
  by_cases hrelease : c = .resetRelease
  · subst hrelease
    cases hs : s.boot.inReset with
    | false =>
      cases (exec_resetRelease_live hs).symm.trans ht
      exact h.beside s.pending [] s.free s.tap
    | true =>
      cases (exec_resetRelease_held hs).symm.trans ht
      intro hout
      cases hout
  intro hheld
  have hs : s.boot.inReset = true := (exec_keeps_inReset ht hreset hrelease).symm.trans hheld
  cases htaken : takenInReset c with
  | false =>
    cases (exec_held hs htaken).symm.trans ht
    exact h.beside s.pending [] s.free s.tap hs
  | true =>
    obtain ⟨o, n, x, htap⟩ := exec_tap htaken hreset hrelease s
    cases htap.symm.trans ht
    exact h.beside s.pending o n x hs

/-- Settles O1: the two cases of the queue. -/
theorem stepRunsFront : Obligations.StepRunsFront :=
  ⟨fun _ _ _ => rfl, fun s h => by rw [step, h]⟩

/-- Settles O2: every command answers a next state, and so every step of a run does. -/
theorem everyRunIsSafe : Obligations.EveryRunIsSafe :=
  ⟨fun c s => (exec_next c s).imp fun _ h => h.1, fun s n => s.safeFor_all n⟩

/-- Settles O3: the state that a command answers is the one that keeps them. -/
theorem commandFrame : Obligations.CommandFrame := by
  intro c s t h
  obtain ⟨u, hu, hkept⟩ := exec_next c s
  cases hu.symm.trans h
  exact hkept

/-- Settles O4: taking a command from the queue changes nothing that a block held in reset keeps, and no command does. -/
theorem heldInResetKept : Obligations.HeldInResetKept := by
  intro s t h ht
  rw [step] at ht
  split at ht
  · cases ht
    exact h
  · next rest _ => exact exec_keeps_heldInReset (h.beside rest s.outs s.free s.tap) ht

/-- Settles O5: the state after reset differs in nothing from itself. -/
theorem heldInResetAtReset : Obligations.HeldInResetAtReset := fun _ => rfl

/-- Settles O6: the frame of such a command ignores it. -/
theorem resetIgnoresInputs : Obligations.ResetIgnoresInputs := fun _ _ hs h => exec_held hs h

/-- Settles O7: each edge of reset by whether it is taken. -/
theorem blockReset : Obligations.BlockReset :=
  ⟨fun s h => (exec_blockReset s).trans (congrArg _ (if_pos h)),
    fun s h => (exec_blockReset s).trans (congrArg _ (if_neg (Bool.eq_false_iff.mp h))),
    fun _ hs => exec_resetRelease_held hs, fun _ hs => exec_resetRelease_live hs⟩

/-- Settles O16: each command of the port by its equation; the value of the boundary register is the one drawn. -/
theorem tapCommands : Obligations.TapCommands := fun s =>
  ⟨rfl, rfl, rfl, rfl, fun hs => exec_extest_live hs, fun hs => ⟨_, exec_extest_held hs⟩, fun cells => ⟨_, exec_samplePreload cells s⟩⟩

end Sys2Proof.Machine
end

section
/-!
# PROOFS. 14, the host port: lodge SRAM, descriptors, completion records, the answers to the block's own requests
-/
namespace Sys2Proof.Machine

theorem exec_sramRead (id : BitVec 16) (tag : BitVec 8) (n : Nat) (a : BitVec 24) (s : State) :
    exec (.sramRead id tag n a) s = execSramRead id tag n a s := rfl
theorem exec_sramWrite (id : BitVec 16) (tag : BitVec 8) (a : BitVec 24) (bs : List (Payload × BitVec 64)) (s : State) :
    exec (.sramWrite id tag a bs) s = execSramWrite id tag a bs s := rfl
theorem exec_descriptor (id : BitVec 16) (tag : BitVec 8) (c : Nat) (w : BitVec 256) (s : State) :
    exec (.descriptor id tag c w) s = execDescriptor id tag c w s := rfl
theorem exec_cmplRead (id : BitVec 16) (tag : BitVec 8) (c : Nat) (s : State) :
    exec (.cmplRead id tag c) s = execCmplRead id tag c s := rfl
theorem exec_outboundResponse (tag : Nat) (st : BitVec 4) (bs : List Payload) (s : State) :
    exec (.outboundResponse tag st bs) s = execOutboundResponse tag st bs s := rfl

/-! ## Numbers in a power-of-two base (00 R8) -/

/-- The digits of a number that is made of digits. -/
theorem ofDigits_div_pow_mod {b : Nat} (hb : 0 < b) {ds : List Nat} (h : ∀ d ∈ ds, d < b) (i : Nat) :
    Nat.ofDigits b ds / b ^ i % b = ds.getD i 0 := by
  rw [Nat.ofDigits_div_pow_eq_ofDigits_drop i hb ds h]
  by_cases hi : i < ds.length
  · rw [List.drop_eq_getElem_cons hi, Nat.ofDigits_cons, Nat.add_mul_mod_self_left, Nat.mod_eq_of_lt (h _ (List.getElem_mem hi)),
      List.getD_eq_getElem _ _ hi]
  · rw [List.drop_eq_nil_of_le (Nat.le_of_not_lt hi), List.getD_eq_default _ _ (Nat.le_of_not_lt hi), Nat.ofDigits_nil, Nat.zero_mod]

/-- Bits below the width of a word do not see what the word cuts off. -/
theorem bitsAt_toNat_ofNat {lo w n : Nat} (h : lo + w ≤ n) (v : Nat) : bitsAt (BitVec.ofNat n v).toNat lo w = bitsAt v lo w := by
  refine Nat.eq_of_testBit_eq fun i => ?_
  simp only [bitsAt, BitVec.toNat_ofNat, Nat.testBit_mod_two_pow, Nat.testBit_div_two_pow]
  by_cases hi : i < w
  · simp [show i + lo < n by omega]
  · simp [hi]

theorem bitsAt_ofDigits {w : Nat} {ds : List Nat} (h : ∀ d ∈ ds, d < 2 ^ w) (i : Nat) :
    bitsAt (Nat.ofDigits (2 ^ w) ds) (w * i) w = ds.getD i 0 := by
  rw [bitsAt, Nat.pow_mul, ofDigits_div_pow_mod (Nat.two_pow_pos w) h]

/-! ## The bytes of a beat (14 R359) -/

theorem ofBytes_eq_ofDigits (bs : List Byte) : ofBytes bs = Nat.ofDigits (2 ^ 8) (bs.map BitVec.toNat) := by
  simp only [ofBytes, leOfBytes, List.foldl_reverse]
  induction bs with
  | nil => rfl
  | cons b bs ih => rw [List.foldr_cons, ih, List.map_cons, Nat.ofDigits_cons]; omega

theorem payloadByte_eq (p : Payload) (j : Nat) : payloadByte p j = BitVec.ofNat 8 (bitsAt p.toNat (8 * j) 8) :=
  BitVec.eq_of_toNat_eq (by simp [payloadByte, bitsAt])

/-- A beat holds its bytes, byte 0 lowest. -/
theorem payloadByte_payloadOf {bs : List Byte} {j : Nat} (hj : j < 64) (hbs : j < bs.length) :
    payloadByte (payloadOf bs) j = bs[j] := by
  have hdigits : ∀ d ∈ (bs.take 64).map BitVec.toNat, d < 2 ^ 8 := by
    intro d hd
    obtain ⟨b, -, rfl⟩ := List.mem_map.mp hd
    exact b.isLt
  rw [payloadByte_eq, payloadOf, bitsAt_toNat_ofNat (by omega), ofBytes_eq_ofDigits, bitsAt_ofDigits hdigits]
  simp [List.getD_eq_getElem?_getD, hj, hbs]

/-- Whole beats: the `i`-th starts at byte `64 * i`. -/
theorem payloadsOf_eq_map {n : Nat} {bs : List Byte} (h : bs.length = 64 * n) :
    payloadsOf n bs = (List.range n).map (fun i => payloadOf (bs.drop (64 * i))) := by
  induction n generalizing bs with
  | zero => rfl
  | succ n ih =>
    have hsome : bs.isEmpty = false := by simpa [← List.length_eq_zero_iff] using by omega
    have hrest := ih (bs := bs.drop 64) (by simp; omega)
    rw [payloadsOf, hsome, hrest, List.range_succ_eq_map]
    simp [Nat.mul_succ, Nat.add_comm, Function.comp_def]

@[simp] theorem length_sramRead (m : Memory) (a n : Nat) : (sramRead m a n).length = n := by simp [sramRead]

/-- The byte `j` of beat `i` of a read of whole beats. -/
theorem payloadByte_payloadsOf_sramRead (m : Memory) (a : Nat) {n i j : Nat} (hi : i < n) (hj : j < 64) :
    ((payloadsOf n (sramRead m a (64 * n)))[i]?.map (payloadByte · j)) = some (sramByte m (a + 64 * i + j)) := by
  have hbyte : j < ((sramRead m a (64 * n)).drop (64 * i)).length := by rw [List.length_drop, length_sramRead]; omega
  rw [payloadsOf_eq_map (length_sramRead _ _ _), List.getElem?_map, List.getElem?_range hi, Option.map_some, Option.map_some,
    payloadByte_payloadOf hj hbyte]
  simp [sramRead, Nat.add_assoc]

/-! ## Requests of the host (R357, R359) -/

section
variable {s : State} (hs : s.live) (hpresent : s.boot.present = true)
include hs hpresent

theorem runs_hl {c : Instr} {t : State} {f : State → State} (hc : exec c s = hlUp s f) (ht : f s.quiet = t) : Runs c s t :=
  runs_when hs hc hpresent ht

/-- A request that is only answered changes nothing else. -/
theorem exec_hl_answer {c : Instr} {o : Output} {f : State → State} (hc : exec c s = hlUp s f) (ht : f s.quiet = s.quiet.emit o) :
    exec c s = .next { s with outs := [o] } :=
  (runs_hl hs hpresent hc ht).exec_eq rfl rfl rfl

end

/-! ## The checks of an SRAM request (R359) -/

section
variable {count addr : Nat}

theorem sramFault_count (h : count = 0 ∨ 64 < count) : sramFault count addr = 3 := if_pos h

theorem sramFault_place (hsome : 1 ≤ count) (hfits : count ≤ 64) (h : addr % 64 ≠ 0 ∨ 0x200000 < addr + 64 * count) :
    sramFault count addr = 2 := (if_neg (by omega)).trans (if_pos h)

theorem sramFault_none (hsome : 1 ≤ count) (hfits : count ≤ 64) (halign : addr % 64 = 0) (hend : addr + 64 * count ≤ 0x200000) :
    sramFault count addr = 0 := (if_neg (by omega)).trans (if_neg (by omega))

end

section
variable {s : State} (hs : s.live) (hpresent : s.boot.present = true) (id : BitVec 16) (tag : BitVec 8) {a : BitVec 24}
include hs hpresent

theorem exec_sramRead_refused {n k : Nat} (h : sramFault n a.toNat = k) (hk : k ≠ 0) :
    exec (.sramRead id tag n a) s = .next { s with outs := [.hlResp (hlHeader tag k 0 0) []] } :=
  exec_hl_answer hs hpresent (exec_sramRead id tag n a s) (by subst h; exact if_pos hk)

theorem exec_sramRead_done {n : Nat} (h : sramFault n a.toNat = 0) :
    exec (.sramRead id tag n a) s = .next { s with
      outs := [.hlResp (hlHeader tag 0 n 0) (payloadsOf n (sramRead s.lodge.sram a.toNat (64 * n)))] } :=
  exec_hl_answer hs hpresent (exec_sramRead id tag n a s) (if_neg (not_not_intro h))

theorem exec_sramWrite_refused {bs : List (Payload × BitVec 64)} {k : Nat} (h : sramFault bs.length a.toNat = k) (hk : k ≠ 0) :
    exec (.sramWrite id tag a bs) s = .next { s with outs := [.hlResp (hlHeader tag k 0 0) []] } :=
  exec_hl_answer hs hpresent (exec_sramWrite id tag a bs s) (by subst h; exact if_pos hk)

end

/-! ## The beats of an SRAM write (R358) -/

/-- Lodge SRAM after the first `n` bytes of a beat at `a`, under its byte enables. -/
def putBytes (a : Nat) (x : Payload × BitVec 64) (n : Nat) (m : Memory) : Memory :=
  (List.range n).foldl (fun m i => if x.2.getLsbD i then sramPut m (a + i) (payloadByte x.1 i) else m) m

theorem putBytes_succ (a : Nat) (x : Payload × BitVec 64) (n : Nat) (m : Memory) :
    putBytes a x (n + 1) m =
      if x.2.getLsbD n then sramPut (putBytes a x n m) (a + n) (payloadByte x.1 n) else putBytes a x n m := by
  simp only [putBytes, List.range_succ, List.foldl_append, List.foldl_cons, List.foldl_nil]

theorem sramByte_putBytes_outside (a : Nat) (x : Payload × BitVec 64) (n : Nat) (m : Memory) {y : Nat} (h : y < a ∨ a + n ≤ y) :
    sramByte (putBytes a x n m) y = sramByte m y := by
  induction n with
  | zero => rfl
  | succ n ih =>
    rw [putBytes_succ]
    split
    · rw [sramByte_sramPut_other _ _ _ _ (by omega), ih (by omega)]
    · exact ih (by omega)

theorem sramByte_putBytes (a : Nat) (x : Payload × BitVec 64) {n : Nat} (m : Memory) {j : Nat} (h : j < n) :
    sramByte (putBytes a x n m) (a + j) = if x.2.getLsbD j then payloadByte x.1 j else sramByte m (a + j) := by
  induction n with
  | zero => cases h
  | succ n ih =>
    rw [putBytes_succ]
    by_cases hj : j = n
    · subst hj
      split
      · rw [sramByte_sramPut_same]
      · exact sramByte_putBytes_outside a x j m (.inr (Nat.le_refl _))
    · split
      · rw [sramByte_sramPut_other _ _ _ _ (by omega), ih (by omega)]
      · exact ih (by omega)

theorem putBytes_wf (a : Nat) (x : Payload × BitVec 64) (n : Nat) {m : Memory} (h : Memory.wf m = true) :
    Memory.wf (putBytes a x n m) = true := by
  induction n with
  | zero => exact h
  | succ n ih =>
    rw [putBytes_succ]
    split
    · exact sramPut_wf _ _ _ ih
    · exact ih

/-- Lodge SRAM after beats of 64 bytes from `a` upward. -/
def putBeats : Nat → List (Payload × BitVec 64) → Memory → Memory
  | _, [], m => m
  | a, x :: bs, m => putBeats (a + 64) bs (putBytes a x 64 m)

theorem sramByte_putBeats_outside (a : Nat) (bs : List (Payload × BitVec 64)) (m : Memory) {y : Nat}
    (h : y < a ∨ a + 64 * bs.length ≤ y) : sramByte (putBeats a bs m) y = sramByte m y := by
  induction bs generalizing a m with
  | nil => rfl
  | cons x bs ih =>
    rw [List.length_cons] at h
    rw [putBeats, ih _ _ (by omega), sramByte_putBytes_outside _ _ _ _ (by omega)]

theorem sramByte_putBeats (a : Nat) (bs : List (Payload × BitVec 64)) (m : Memory) {i j : Nat} (hj : j < 64)
    {b : Payload × BitVec 64} (h : bs[i]? = some b) :
    sramByte (putBeats a bs m) (a + 64 * i + j) =
      if b.2.getLsbD j then payloadByte b.1 j else sramByte m (a + 64 * i + j) := by
  induction bs generalizing a m i with
  | nil => cases h
  | cons x bs ih =>
    cases i with
    | zero =>
      cases h
      rw [putBeats, Nat.mul_zero, sramByte_putBeats_outside _ _ _ (.inl (by omega)), Nat.add_zero, sramByte_putBytes a _ m hj]
    | succ i =>
      have hrest := ih (a + 64) (putBytes a x 64 m) h
      rw [show a + 64 + 64 * i + j = a + 64 * (i + 1) + j by omega,
        sramByte_putBytes_outside a x 64 m (.inr (by omega))] at hrest
      exact hrest

theorem putBeats_wf (a : Nat) (bs : List (Payload × BitVec 64)) {m : Memory} (h : Memory.wf m = true) :
    Memory.wf (putBeats a bs m) = true := by
  induction bs generalizing a m with
  | nil => exact h
  | cons x bs ih => exact ih _ (putBytes_wf a x 64 h)

theorem State.foldl_ringBell (l : List Nat) (s : State) :
    ∃ bells, l.foldl (fun (s : State) i => s.ringBell i) s = { s with lodge := { s.lodge with bells := bells } } := by
  induction l generalizing s with
  | nil => exact ⟨_, rfl⟩
  | cons i l ih =>
    rw [List.foldl_cons, State.ringBell_eq]
    obtain ⟨bells, h⟩ := ih { s with lodge := { s.lodge with
      bells := if s.ringOn i && !s.lodge.bells.contains i then s.lodge.bells ++ [i] else s.lodge.bells } }
    exact ⟨bells, h⟩

/-- One beat of an SRAM write at `a`: its bytes, and the ring sets that it notifies. -/
def State.takeBeat (s : State) (a : Nat) (x : Payload × BitVec 64) : State :=
  (bellsOf a x.2).foldl (fun (s : State) i => s.ringBell i) (s.sramBeat a x)

/-- The beats of an SRAM write store their bytes, and notify ring sets. -/
theorem State.foldl_takeBeat (a : Nat) (bs : List (Payload × BitVec 64)) (k : Nat) (s : State) :
    ∃ bells, (bs.zipIdx k).foldl (fun (s : State) (x : (Payload × BitVec 64) × Nat) => s.takeBeat (a + 64 * x.2) x.1) s =
      { s with lodge := { s.lodge with sram := putBeats (a + 64 * k) bs s.lodge.sram, bells := bells } } := by
  induction bs generalizing k s with
  | nil => exact ⟨_, rfl⟩
  | cons x bs ih =>
    obtain ⟨first, hfirst⟩ := State.foldl_ringBell (bellsOf (a + 64 * k) x.2) (s.sramBeat (a + 64 * k) x)
    obtain ⟨bells, hrest⟩ := ih (k + 1) (s.takeBeat (a + 64 * k) x)
    refine ⟨bells, ?_⟩
    rw [List.zipIdx_cons, List.foldl_cons, hrest, State.takeBeat, hfirst, putBeats, Nat.mul_succ, ← Nat.add_assoc]
    rfl

theorem exec_sramWrite_done {s : State} (hs : s.live) (hpresent : s.boot.present = true) (id : BitVec 16) (tag : BitVec 8)
    {a : BitVec 24} {bs : List (Payload × BitVec 64)} (h : sramFault bs.length a.toNat = 0) :
    ∃ bells, exec (.sramWrite id tag a bs) s = .next { s with
      outs := [.hlResp (hlHeader tag 0 0 0) []]
      lodge := { s.lodge with sram := putBeats a.toNat bs s.lodge.sram, bells := bells } } := by
  obtain ⟨bells, hbeats⟩ := State.foldl_takeBeat a.toNat bs 0 s.quiet
  refine ⟨bells, (runs_hl hs hpresent (exec_sramWrite id tag a bs s) ((if_neg (not_not_intro h)).trans
    (congrArg (fun t : State => t.emit (.hlResp (hlHeader tag 0 0 0) [])) hbeats))).exec_eq rfl rfl rfl⟩

/-! ## Completion records (R358) -/

/-- Records packed from the lowest word upward are the digits of a number in base `2 ^ 64`. -/
theorem foldl_words (l : List (Nat × BitVec 64)) (k acc : Nat) :
    (l.zipIdx k).foldl (fun (a : Nat) (x : (Nat × BitVec 64) × Nat) => a + x.1.2.toNat * 2 ^ (64 * x.2)) acc =
      acc + 2 ^ (64 * k) * Nat.ofDigits (2 ^ 64) (l.map (·.2.toNat)) := by
  induction l generalizing k acc with
  | nil => simp
  | cons x l ih =>
    rw [List.zipIdx_cons, List.foldl_cons, ih, List.map_cons, Nat.ofDigits_cons, Nat.mul_succ, Nat.pow_add]
    ring

/-- The beat that up to eight records make. -/
def packRecords (l : List (Nat × BitVec 64)) : Payload :=
  BitVec.ofNat 512 (l.zipIdx.foldl (fun (a : Nat) (x : (Nat × BitVec 64) × Nat) => a + x.1.2.toNat * 2 ^ (64 * x.2)) 0)

theorem bitsAt_packRecords {l : List (Nat × BitVec 64)} (hl : l.length ≤ 8) {i : Nat} {r : Nat × BitVec 64} (h : l[i]? = some r) :
    bitsAt (packRecords l).toNat (64 * i) 64 = r.2.toNat := by
  have hi : i < l.length := (List.getElem?_eq_some_iff.mp h).1
  have hdigits : ∀ d ∈ l.map (·.2.toNat), d < 2 ^ 64 := by
    intro d hd
    obtain ⟨x, -, rfl⟩ := List.mem_map.mp hd
    exact x.2.isLt
  rw [packRecords, bitsAt_toNat_ofNat (by omega), foldl_words, Nat.mul_zero, Nat.pow_zero,
    Nat.one_mul, Nat.zero_add, bitsAt_ofDigits hdigits, List.getD_eq_getElem?_getD, List.getElem?_map, h]
  rfl

section
variable {α : Type} [BEq α] [LawfulBEq α]

theorem filter_foldl_erase (p : α → Bool) (xs l : List α) :
    (xs.foldl (fun (l : List α) x => l.erase x) l).filter p = xs.foldl (fun (l : List α) x => l.erase x) (l.filter p) :=
  (List.foldl_hom (List.filter p) fun _ _ => List.erase_filter).symm

/-- Taking the first elements of a list off it one by one leaves the others. -/
theorem foldl_erase_take (n : Nat) (l : List α) : (l.take n).foldl (fun (l : List α) x => l.erase x) l = l.drop n := by
  induction n generalizing l with
  | zero => rfl
  | succ n ih =>
    cases l with
    | nil => rfl
    | cons x l => rw [List.take_succ_cons, List.foldl_cons, List.erase_cons_head, ih, List.drop_succ_cons]

theorem foldl_erase_of_not_mem {xs l : List α} (h : ∀ x ∈ xs, x ∉ l) : xs.foldl (fun (l : List α) x => l.erase x) l = l := by
  induction xs with
  | nil => rfl
  | cons x xs ih =>
    rw [List.foldl_cons, List.erase_of_not_mem (h x List.mem_cons_self)]
    exact ih fun y hy => h y (List.mem_cons_of_mem x hy)

end

/-- The records of a client that a read takes: its oldest eight. -/
def State.oldestRecords (s : State) (c : Nat) : List (Nat × BitVec 64) := (s.host.cmpl.filter (fun x => x.1 == c)).take 8

/-- The records that a read of a client leaves queued. -/
def State.recordsLeft (s : State) (c : Nat) : List (Nat × BitVec 64) :=
  (s.oldestRecords c).foldl (fun (l : List (Nat × BitVec 64)) x => l.erase x) s.host.cmpl

theorem State.recordsLeft_own (s : State) (c : Nat) :
    (s.recordsLeft c).filter (fun x => x.1 == c) = (s.host.cmpl.filter (fun x => x.1 == c)).drop 8 := by
  rw [State.recordsLeft, filter_foldl_erase, State.oldestRecords, foldl_erase_take]

theorem State.recordsLeft_others (s : State) (c : Nat) :
    (s.recordsLeft c).filter (fun x => x.1 != c) = s.host.cmpl.filter (fun x => x.1 != c) := by
  rw [State.recordsLeft, filter_foldl_erase]
  refine foldl_erase_of_not_mem fun x hx hother => ?_
  have hown : x.1 == c := (List.mem_filter.mp (List.mem_of_mem_take hx)).2
  have hnot : x.1 != c := (List.mem_filter.mp hother).2
  rw [bne, hown] at hnot
  cases hnot

theorem exec_cmplRead_own {s : State} (hs : s.live) (hpresent : s.boot.present = true) (id : BitVec 16) (tag : BitVec 8) {c : Nat}
    (hc : c < 32) :
    exec (.cmplRead id tag c) s = .next { s with
      outs := [.hlResp (hlHeader tag 0 1 ((s.oldestRecords c).length * 2 ^ 40)) [packRecords (s.oldestRecords c)]]
      host := { s.host with cmpl := s.recordsLeft c } } :=
  (runs_hl hs hpresent (exec_cmplRead id tag c s) (if_neg (Nat.not_le.mpr hc))).exec_eq rfl rfl rfl

/-! ## Descriptors, and answers to the block's own requests (R359, R360) -/

section
variable {s : State} (hs : s.live) (hpresent : s.boot.present = true)
include hs hpresent

theorem exec_outboundResponse_none {tag : Nat} (st : BitVec 4) (bs : List Payload) (h : s.host.outReqs.find tag = none) :
    exec (.outboundResponse tag st bs) s = .next s.quiet := by
  refine (runs_hl hs hpresent (exec_outboundResponse tag st bs s) (t := s.quiet) ?_).exec_eq rfl rfl rfl
  simp only [State.quiet, h]

end

end Sys2Proof.Machine

namespace Sys2Proof.HostPort
open Machine

/-- Settles O18: a read that the checks pass is answered with its beats, any other request with the check that it fails. -/
theorem sramRead : Obligations.SramRead := by
  refine ⟨fun s id tag n a hs hpresent hsome hfits halign hend => ⟨_, exec_sramRead_done hs hpresent id tag
      (sramFault_none hsome hfits halign hend), ?length, fun i j hi hj => payloadByte_payloadsOf_sramRead _ _ hi hj⟩,
    fun s id tag a hs hpresent => ⟨fun n h => exec_sramRead_refused hs hpresent id tag (sramFault_count h) (by decide),
      fun n hsome hfits h => exec_sramRead_refused hs hpresent id tag (sramFault_place hsome hfits h) (by decide),
      fun bs h => exec_sramWrite_refused hs hpresent id tag (sramFault_count h) (by decide),
      fun bs hsome hfits h => exec_sramWrite_refused hs hpresent id tag (sramFault_place hsome hfits h) (by decide)⟩⟩
  case length => simp [payloadsOf_eq_map]

/-- Settles O19: the bytes by the laws of the beats, and of the lodge only the notified sets change beside them. -/
theorem sramWrite : Obligations.SramWrite := by
  intro s id tag a bs hs hpresent hsome hfits halign hend
  obtain ⟨bells, hdone⟩ := exec_sramWrite_done hs hpresent id tag (sramFault_none hsome hfits halign hend)
  exact ⟨_, hdone, rfl, fun i j hj b hb => sramByte_putBeats _ _ _ hj hb, fun x hx => sramByte_putBeats_outside _ _ _ hx,
    putBeats_wf _ _⟩

/-- Settles O21: each descriptor by the first check that it fails, or by none. -/
theorem hostDescriptor : Obligations.HostDescriptor := fun s id tag c w hs hpresent =>
  ⟨fun hc => exec_hl_answer hs hpresent (exec_descriptor id tag c w s) (if_pos hc),
    fun hc hopen => exec_hl_answer hs hpresent (exec_descriptor id tag c w s) ((if_neg (Nat.not_le.mpr hc)).trans (if_pos hopen)),
    fun hc hopen => runs_hl hs hpresent (exec_descriptor id tag c w s)
      ((if_neg (Nat.not_le.mpr hc)).trans (if_neg (Nat.not_le.mpr hopen)))⟩

/-- Settles O22: the beat holds the digits packed into it, and the queue loses the records that it holds. -/
theorem completionRead : Obligations.CompletionRead := fun s id tag c hs hpresent hc =>
  ⟨_, _, exec_cmplRead_own hs hpresent id tag hc, rfl,
    fun _ _ hr => bitsAt_packRecords (List.length_take_le _ _) hr, s.recordsLeft_own c, s.recordsLeft_others c⟩

/-- Settles O23: by whether a request of the tag is open, and whether another waits. -/
theorem outboundResponse : Obligations.OutboundResponse := by
  intro s tag st bs hs hpresent
  refine ⟨fun hnone => exec_outboundResponse_none hs hpresent st bs hnone, fun x hx => ?_⟩
  refine runs_hl hs hpresent (exec_outboundResponse tag st bs s) ?_
  simp only [State.quiet, hx]

end Sys2Proof.HostPort
end

section
/-!
# PROOFS. 14, the management port: MCTP control commands and the I3C address
-/
namespace Sys2Proof.Machine

theorem exec_setEndpointId (e : BitVec 8) (s : State) : exec (.setEndpointId e) s = execSetEndpointId e s := rfl
theorem exec_getEndpointId (s : State) : exec .getEndpointId s = execGetEndpointId s := rfl
theorem exec_getMctpVersionSupport (s : State) : exec .getMctpVersionSupport s = execGetMctpVersionSupport s := rfl
theorem exec_getMessageTypeSupport (s : State) : exec .getMessageTypeSupport s = execGetMessageTypeSupport s := rfl
theorem exec_getVendorDefinedMessageSupport (s : State) :
    exec .getVendorDefinedMessageSupport s = execGetVendorDefinedMessageSupport s := rfl
theorem exec_unsupportedMctpCommand (c : BitVec 8) (s : State) :
    exec (.unsupportedMctpCommand c) s = execUnsupportedMctpCommand c s := rfl
theorem exec_i3cDynamicAddress (m : I3cMethod) (a : BitVec 7) (s : State) :
    exec (.i3cDynamicAddress m a) s = execI3cDynamicAddress m a s := rfl

section
variable {s : State} (hs : s.live) (hserved : 2 ≤ s.boot.progress)
include hs hserved

theorem runs_mg {c : Instr} {t : State} {f : State → State} (hc : exec c s = mgUp s f) (ht : f s.quiet = t) : Runs c s t :=
  runs_when hs hc (decide_eq_true hserved) ht

/-- A command that is only answered changes nothing else. -/
theorem exec_mg_answer {c : Instr} {o : Output} {f : State → State} (hc : exec c s = mgUp s f) (ht : f s.quiet = s.quiet.emit o) :
    exec c s = .next { s with outs := [o] } :=
  (runs_mg hs hserved hc ht).exec_eq rfl rfl rfl

theorem exec_setEndpointId_kept {e : BitVec 8} (hlow : e ≠ 0) (hhigh : e ≠ 0xFF) :
    exec (.setEndpointId e) s = .next { s with outs := [.mctp 0#8 [0#8, e, 0#8]], mgmt := { s.mgmt with eid := e } } :=
  (runs_mg hs hserved (exec_setEndpointId e s) (if_neg (not_or_intro hlow hhigh))).exec_eq rfl rfl rfl

theorem exec_setEndpointId_reserved {e : BitVec 8} (h : e = 0 ∨ e = 0xFF) :
    exec (.setEndpointId e) s = .next { s with outs := [.mctp 0x02#8 []] } :=
  exec_mg_answer hs hserved (exec_setEndpointId e s) (if_pos h)

theorem exec_entdaa (a : BitVec 7) :
    exec (.i3cDynamicAddress .entdaa a) s = .next { s with outs := [], mgmt := { s.mgmt with dynAddr := some a } } :=
  (runs_mg hs hserved (exec_i3cDynamicAddress .entdaa a s) rfl).exec_eq rfl rfl rfl

theorem exec_setdasa_static (a : BitVec 7) (h : s.build.i3cStatic ≠ 0) :
    exec (.i3cDynamicAddress .setdasa a) s = .next { s with outs := [], mgmt := { s.mgmt with dynAddr := some a } } :=
  (runs_mg hs hserved (exec_i3cDynamicAddress .setdasa a s) (if_neg h)).exec_eq rfl rfl rfl

theorem exec_setdasa_none (a : BitVec 7) (h : s.build.i3cStatic = 0) :
    exec (.i3cDynamicAddress .setdasa a) s = .next s.quiet :=
  (runs_mg hs hserved (exec_i3cDynamicAddress .setdasa a s) (if_pos h)).exec_eq rfl rfl rfl

end

/-- Settles O17: each command by its equation where the port is served. -/
theorem managementPort : Obligations.ManagementPort :=
  ⟨fun s hs hserved =>
    ⟨fun _ hlow hhigh => exec_setEndpointId_kept hs hserved hlow hhigh, fun _ h => exec_setEndpointId_reserved hs hserved h,
      exec_mg_answer hs hserved (exec_getEndpointId s) rfl,
      ⟨_, exec_mg_answer hs hserved (exec_getMctpVersionSupport s) rfl⟩,
      ⟨_, exec_mg_answer hs hserved (exec_getMessageTypeSupport s) rfl⟩,
      ⟨_, exec_mg_answer hs hserved (exec_getVendorDefinedMessageSupport s) rfl⟩,
      fun c => exec_mg_answer hs hserved (exec_unsupportedMctpCommand c s) rfl⟩,
    fun _ a hs hserved => ⟨exec_entdaa hs hserved a, exec_setdasa_static hs hserved a, exec_setdasa_none hs hserved a⟩⟩

end Sys2Proof.Machine
end

section
/-!
# PROOFS. 13, the observation: counters, trace records, the belvedere, snapshots
-/
namespace Sys2Proof.Machine

theorem exec_counterFreeze (s : State) : exec .counterFreeze s = execCounterFreeze s := rfl
theorem exec_traceFlush (u : UnitId) (s : State) : exec (.traceFlush u) s = execTraceFlush u s := rfl
theorem exec_belvedereLinkChange (r : Bool) (s : State) : exec (.belvedereLinkChange r) s = execBelvedereLinkChange r s := rfl
theorem exec_snapshotCapture (s : State) : exec .snapshotCapture s = execSnapshotCapture s := rfl
theorem exec_snapshotWriteComplete (s : State) : exec .snapshotWriteComplete s = execSnapshotWriteComplete s := rfl

/-! ## Trace records (13 R340, R341) -/

/-- A source's outbox after it has sent its records: empty, or with the LOSS record of those that it could not hold. -/
def State.outboxLeft (s : State) (u : UnitId) : TraceOut :=
  let o := s.obs.traces.get {} u.code
  if o.lost = 0 then {} else { recs := [lossRecord u (s.now u) o.lost o.lostAt], since := s.now u }

/-- The state once a source has taken the records out of its outbox. -/
def State.outboxSent (s : State) (u : UnitId) : State :=
  { s with obs := { s.obs with traces := s.obs.traces.put u.code (s.outboxLeft u) } }

/-- The data units of a TRACE packet: two records in a unit, an empty place padding an odd one. -/
def traceUnits (recs : List (BitVec 256)) : List Payload :=
  let at_ (i : Nat) : Payload := (recs.getD i 0).setWidth 512
  (List.range ((recs.length + 1) / 2)).map (fun i => at_ (2 * i) ||| (at_ (2 * i + 1) <<< 256))

/-- A source sends some records to the belvedere. -/
def State.sendTrace (s : State) (u : UnitId) (recs : List (BitVec 256)) : State :=
  let src := match epOf u with | some e => s.addrOf e | none => s.addrOf 2060
  s.makeFrom u { s.ownHeader 0x33 4 1023 src (s.addrOf 2060) 0 0 with length := BitVec.ofNat 7 (traceUnits recs).length } (traceUnits recs)

section
variable {s : State} {u : UnitId}

/-- A gallery or a hall captures its own records while the belvedere does not stream. -/
theorem State.flushTrace_captured (hu : u.level = 2 ∨ u.level = 3) (h : s.streaming = false) :
    s.flushTrace u = (s.obs.traces.get {} u.code).recs.foldl (fun a r => a.traceTake u r) (s.outboxSent u) := by
  have hquiet : (s.outboxSent u).streaming = false := h
  cases u with
  | gallery | hall => exact if_pos (by rw [Bool.not_eq_true', ← hquiet]; rfl)
  | landing | stair | pavilion | special | chip => simp [UnitId.level] at hu

theorem State.flushTrace_sent (hu : u.level = 0 ∨ u.level = 1 ∨ u.level = 4) :
    s.flushTrace u = (s.outboxSent u).sendTrace u (s.obs.traces.get {} u.code).recs := by
  cases u with
  | landing | stair | pavilion => rfl
  | gallery | hall | special | chip => simp [UnitId.level] at hu

theorem runs_traceFlush {t : State} (hs : s.live) (hdue : s.quiet.traceDue u = true) (hruns : s.quiet.running u = true)
    (ht : s.quiet.flushTrace u = t) : Runs (.traceFlush u) s t :=
  runs_when hs (exec_traceFlush u s) (Bool.and_eq_true_iff.mpr ⟨hdue, hruns⟩) ht

/-! ## Counters, the belvedere, the snapshot (13 R335, R343, R345, R348) -/

theorem runs_counterFreeze (hs : s.live) (harmed : s.obs.ctrState = 1) (hdue : s.obs.freezeAt ≤ s.time) :
    Runs .counterFreeze s { s.quiet with obs := { s.obs with ctrState := 2, frozenAt := s.time } } :=
  runs_when hs (exec_counterFreeze s) (decide_eq_true ⟨harmed, hdue⟩) rfl

theorem runs_belvedereUp (hs : s.live) : Runs (.belvedereLinkChange true) s { s.quiet with obs := { s.obs with bvReady := true } } :=
  runs_up hs (exec_belvedereLinkChange true s) rfl

/-- A link that is lost while the belvedere streams loses its queue. -/
theorem runs_belvedereLost (hs : s.live) (h : s.quiet.streaming = true) : Runs (.belvedereLinkChange false) s
    ({ s.quiet with obs := { s.obs with bvReady := false, bvQueue := [], bvRun := 0 } }.bvLose s.obs.bvQueue.length) :=
  runs_up hs (exec_belvedereLinkChange false s) (if_pos h)

/-- The wait-timeout notices that are due end their waits, and leave the list. -/
def State.endDueWaits (s : State) : State :=
  let due := s.obs.notices.filter (fun (n : Nat × Nat) => n.2 ≤ s.time)
  let s := due.foldl (fun (s : State) n => s.endTimedOut n.1) s
  { s with obs := { s.obs with notices := s.obs.notices.filter (fun (n : Nat × Nat) => !decide (n.2 ≤ s.time)) } }

theorem runs_snapshotCapture (hs : s.live) (hst : s.obs.snap.st = 1) (hdue : s.obs.snap.ts ≤ s.time) :
    Runs .snapshotCapture s s.quiet.capture.writeArea.endDueWaits := by
  refine runs_when hs (exec_snapshotCapture s) (Bool.or_eq_true_iff.mpr (.inl
    (Bool.and_eq_true_iff.mpr ⟨beq_iff_eq.mpr hst, decide_eq_true hdue⟩))) ?_
  exact congrArg State.endDueWaits (if_pos ⟨hst, hdue⟩)

/-- The area of a captured snapshot is written, where it lies in lodge SRAM. -/
def State.areaWritten (s : State) : State := if s.val 0x386002 = 0 then s.sramSet (s.val 0x386003) s.obs.snap.bytes else s

theorem State.areaWritten_obs (s : State) : s.areaWritten.obs = s.obs := by
  rw [State.areaWritten]
  split <;> rfl

theorem runs_snapshotWriteComplete (hs : s.live) (hst : s.obs.snap.st = 2) (hidle : s.quiet.areaBusy = false) :
    Runs .snapshotWriteComplete s
      { s.quiet.areaWritten with obs := { s.quiet.areaWritten.obs with snap := { s.quiet.areaWritten.obs.snap with st := 3 } } } :=
  runs_when hs (exec_snapshotWriteComplete s)
    (Bool.and_eq_true_iff.mpr ⟨beq_iff_eq.mpr hst, by rw [hidle]; rfl⟩) rfl

end

/-- Settles O59: each command where its guard holds, the trace records by the level of their source. -/
theorem observationEvents : Obligations.ObservationEvents := by
  intro s hs
  refine ⟨fun harmed hdue => (runs_counterFreeze hs harmed hdue).exec_eq rfl rfl rfl, fun u hdue hruns => ?trace,
    (runs_belvedereUp hs).exec_eq rfl rfl rfl, fun hstreams => runs_belvedereLost hs hstreams,
    fun hst hdue => runs_snapshotCapture hs hst hdue, fun hst hidle => ⟨_, runs_snapshotWriteComplete hs hst hidle, ?written⟩⟩
  case trace =>
    exact ⟨fun hlevel hstill => runs_traceFlush hs hdue hruns (State.flushTrace_captured hlevel hstill),
      fun hlevel => runs_traceFlush hs hdue hruns (State.flushTrace_sent hlevel)⟩
  case written => rw [State.framed_obs, State.areaWritten_obs]; rfl

end Sys2Proof.Machine
end
